-- ==== Sys2Proof/Word.lean ====
section
/-! DEFINITION. The word types of the machine and their plainest readings (R7, R8, R54). -/

namespace Sys2Proof

/-- A byte of memory (R54). -/
abbrev Byte := BitVec 8
/-- A 32-bit instruction word or vector register (R8, R45). -/
abbrev W32 := BitVec 32
/-- A 64-bit scalar register or register pair (R45, R46). -/
abbrev W64 := BitVec 64
/-- A 128-bit register quad (R46). -/
abbrev W128 := BitVec 128

/-- Bits `[hi:lo]` of a word, as a number. -/
def bitsNat {w : Nat} (x : BitVec w) (hi lo : Nat) : Nat := (x.toNat >>> lo) % 2 ^ (hi + 1 - lo)

/-- Bit `i` of a word. -/
def bitAt {w : Nat} (x : BitVec w) (i : Nat) : Bool := x.getLsbD i

end Sys2Proof
end

