-- ==== Sys2Proof/Config.lean ====
section
/-! DEFINITION. What the spec leaves open: the free values. Each is an opaque constant, so that nothing proves a value
of it; the assumption log names every one. -/

namespace Sys2Proof.Config

/-- R127: the result of `frcp` before the bound of its table row is imposed. (DESIGN CHOICE, log 20.) -/
opaque frcp : W32 → W32
/-- R127: `frsq`, likewise. (DESIGN CHOICE, log 20.) -/
opaque frsq : W32 → W32
/-- R127: `fex2`, likewise. (DESIGN CHOICE, log 20.) -/
opaque fex2 : W32 → W32
/-- R127: `flg2`, likewise. (DESIGN CHOICE, log 20.) -/
opaque flg2 : W32 → W32
/-- R127: `fsin`, likewise. (DESIGN CHOICE, log 20.) -/
opaque fsin : W32 → W32
/-- R127: `fcos`, likewise. (DESIGN CHOICE, log 20.) -/
opaque fcos : W32 → W32
/-- R127: `ftnh`, likewise. (DESIGN CHOICE, log 20.) -/
opaque ftnh : W32 → W32

/-- R270: what a scratchpad byte holds at a bind, 0 or a byte an earlier workgroup of the context left: whether the
byte is taken from what was left, by bind number and offset. (DESIGN CHOICE, log 7.) -/
opaque spadKept : Nat → Nat → Bool

/-- R143: whether a sector of a peer's memory is sealed under a version at a heartbeat: the peer is another device, and its seals
are none of this machine's state. (DESIGN CHOICE, log 60.) -/
opaque peerSealed : Nat → Nat → Nat → Bool

/-- R353: the bytes a saved context takes, whose layout is internal to the device. (DESIGN CHOICE, log 90.) -/
opaque contextBytes : Nat

/-- A fresh value for the `n`-th choice the spec leaves open, where a rule gives a set to choose from.
(DESIGN CHOICE, log 3.) -/
opaque choice : Nat → Nat

/-- R410, R411: a signature, as far as it rests on the fuse secret and on ML-DSA and SHA, which no rule of the spec
computes. (DESIGN CHOICE, log 40.) -/
opaque fuseSign : Nat → List Byte → List Byte
/-- R410: whether signed bytes verify. (DESIGN CHOICE, log 40.) -/
opaque fuseVerify : List Byte → Bool
/-- R410: the digest of bytes. (DESIGN CHOICE, log 40.) -/
opaque digest : List Byte → List Byte
/-- R410: the version an image carries. (DESIGN CHOICE, log 40.) -/
opaque imageVersion : List Byte → Nat

end Sys2Proof.Config
end

