-- ==== Sys2Proof/Machine/Num.lean ====
section
/-! DEFINITION. Number formats and exact arithmetic (R52 to R74): exact reals as dyadic numbers, one rounding, the flags
of R62, conversions, the fused matrix pass, window integers. -/

namespace Sys2Proof.Machine

/-- The flags of `%fflags` (R49): bit 0 invalid, 1 divide-by-zero, 2 overflow, 3 underflow, 4 inexact. -/
abbrev Flags := BitVec 5

def fInvalid : Flags := 0b00001
def fDivZero : Flags := 0b00010
def fOverflow : Flags := 0b00100
def fUnderflow : Flags := 0b01000
def fInexact : Flags := 0b10000

/-- `f` if the condition holds, else no flag. -/
def flagIf (c : Bool) (f : Flags) : Flags := if c then f else 0

/-- The rounding modes of R62. -/
inductive Mode where
  | rne | rtz | rdn | rup | rna | rto
  deriving DecidableEq, Repr

/-- The mode of a code of `%rm` or of the prefix (R15); codes 0 and 7 do not occur, and read as RNE. -/
def Mode.ofCode (c : BitVec 3) : Mode :=
  if c = 2 then .rtz else if c = 3 then .rdn else if c = 4 then .rup else if c = 5 then .rna
  else if c = 6 then .rto else .rne

/-- A floating-point value: a NaN (signalling or not), an infinity, a zero, or ± m × 2^e with m > 0. -/
inductive FVal where
  | nan (signalling : Bool)
  | inf (neg : Bool)
  | zero (neg : Bool)
  | fin (neg : Bool) (m : Nat) (e : Int)
  deriving DecidableEq, Repr

/-- A floating-point format: `t` fraction bits, the quantum 2^`qmin` of its subnormals, the code of its largest finite
magnitude, the code of infinity if it has one, the bit that holds the sign if it has one, and its canonical NaN. -/
structure FloatFmt where
  t : Nat
  qmin : Int
  maxCode : Nat
  infCode : Option Nat
  signBit : Option Nat
  nanBits : Nat
  /-- an IEEE format (R52), which has −0 and signalling NaNs; otherwise binary8 (R55). -/
  ieee : Bool
  deriving DecidableEq, Repr

/-- R52. -/
def fp32 : FloatFmt := ⟨23, -149, 0x7F7FFFFF, some 0x7F800000, some 31, 0x7FC00000, true⟩
def fp16 : FloatFmt := ⟨10, -24, 0x7BFF, some 0x7C00, some 15, 0x7E00, true⟩
def bf16 : FloatFmt := ⟨7, -133, 0x7F7F, some 0x7F80, some 15, 0x7FC0, true⟩
def w48 : FloatFmt := ⟨39, -165, 0x7F7FFFFFFFFF, some 0x7F8000000000, some 47, 0x7FC000000000, true⟩

/-- R55, R56: binary8 of precision `p` (1 to 7). -/
def binary8 (p : Nat) (signed infs : Bool) : FloatFmt :=
  let t := p - 1
  if signed then
    ⟨t, 1 - (2 ^ (7 - p) : Nat) - (t : Int), if infs then 0x7E else 0x7F, if infs then some 0x7F else none, some 7,
      0x80, false⟩
  else
    ⟨t, 1 - (2 ^ (8 - p) : Nat) - (t : Int), if infs then 0xFD else 0xFE, if infs then some 0xFE else none, none,
      0xFF, false⟩

/-- The exponent of the smallest normal magnitude. -/
def FloatFmt.emin (f : FloatFmt) : Int := f.qmin + f.t

/-- floor(log2 (m × 2^e)) for m > 0. -/
def ilog2 (m : Nat) (e : Int) : Int := (Nat.log2 m : Int) + e

/-- The magnitude of a finite code: (m, e) with value m × 2^e. -/
def FloatFmt.magOf (f : FloatFmt) (code : Nat) : Nat × Int :=
  if code < 2 ^ f.t then (code, f.qmin)
  else (2 ^ f.t + code % 2 ^ f.t, f.qmin + ((code / 2 ^ f.t : Nat) : Int) - 1)

/-- R52, R55: the value of a bit pattern. -/
def FloatFmt.decode (f : FloatFmt) (bits : Nat) : FVal :=
  let neg := match f.signBit with | some s => bits.testBit s | none => false
  let code := match f.signBit with | some s => bits % 2 ^ s | none => bits
  if f.ieee then
    match f.infCode with
    | some ic =>
      if code = ic then .inf neg
      else if ic < code then .nan (!bits.testBit (f.t - 1))
      else if code = 0 then .zero neg
      else let (m, e) := f.magOf code; .fin neg m e
    | none => .nan false
  else if bits = f.nanBits then .nan false
  else if f.infCode = some code then .inf neg
  else if code = 0 then .zero false
  else let (m, e) := f.magOf code; .fin neg m e

/-- Places sign and magnitude code into a bit pattern; a binary8 zero has no sign (R55). (DEDUCED, log 19.) -/
def FloatFmt.place (f : FloatFmt) (neg : Bool) (code : Nat) : Nat :=
  match f.signBit with
  | some s => if neg && (f.ieee || code != 0) then 2 ^ s + code else code
  | none => code

/-- What is cut off below a quantum, compared with half of it. -/
inductive Cut where
  | none | below | half | above
  deriving DecidableEq, Repr

/-- m × 2^e in units of 2^q, cut down, and what was cut off. -/
def cutAt (m : Nat) (e q : Int) : Nat × Cut :=
  if q ≤ e then (m <<< (e - q).toNat, .none)
  else
    let sh := (q - e).toNat
    if Nat.log2 m + 1 < sh then (0, if m = 0 then .none else .below)
    else
      let r := m % 2 ^ sh
      let h := 2 ^ (sh - 1)
      (m >>> sh, if r = 0 then .none else if r < h then .below else if r = h then .half else .above)

/-- R62: whether the neighbour of larger magnitude is taken; `odd` is the parity of the lower neighbour's lowest bit. -/
def roundUp (mode : Mode) (neg odd : Bool) (c : Cut) : Bool :=
  match c with
  | .none => false
  | _ =>
    match mode with
    | .rne => c == .above || (c == .half && odd)
    | .rtz => false
    | .rdn => neg
    | .rup => !neg
    | .rna => c == .above || c == .half
    | .rto => !odd

/-- The parity of a cut significand of magnitude class `k`: its lowest fraction bit, or, in a format without fraction
bits, the lowest bit of its code. (DEDUCED, log 21.) -/
def FloatFmt.oddAt (f : FloatFmt) (n : Nat) (q : Int) : Bool :=
  if f.t = 0 then n != 0 && ((q - f.qmin + n) % 2 == 1) else n % 2 == 1

/-- The value n × 2^q as a magnitude code, for q ≥ qmin and n ≤ 2^(t+1). (DEDUCED, log 21.) -/
def FloatFmt.codeOf (f : FloatFmt) (n : Nat) (q : Int) : Nat := (q - f.qmin).toNat * 2 ^ f.t + n

/-- What rounding gives: a magnitude code (of infinity on an overflow that gives one), whether it overflowed, and the
flags. -/
structure Rounded where
  code : Nat
  overflow : Bool
  flags : Flags
  deriving DecidableEq, Repr

/-- R62: tininess after rounding with the exponent unbounded, for m > 0. -/
def isTiny (f : FloatFmt) (mode : Mode) (neg : Bool) (m : Nat) (e : Int) : Bool :=
  let k := ilog2 m e
  if f.emin ≤ k then false
  else
    let q := k - f.t
    let (u0, c) := cutAt m e q
    let u := if roundUp mode neg (f.oddAt u0 q) c then u0 + 1 else u0
    decide (ilog2 u q < f.emin)

/-- R62: the magnitude code of ± m × 2^e rounded. -/
def roundMag (f : FloatFmt) (mode : Mode) (neg : Bool) (m : Nat) (e : Int) : Rounded :=
  if m = 0 then ⟨0, false, 0⟩
  else
    let k := ilog2 m e
    let q := max (k - f.t) f.qmin
    let (n0, c) := cutAt m e q
    let n := if roundUp mode neg (f.oddAt n0 q) c then n0 + 1 else n0
    let code := f.codeOf n q
    if f.maxCode < code then
      let toInf := match mode with
        | .rne | .rna => true
        | .rtz | .rto => false
        | .rdn => neg
        | .rup => !neg
      ⟨if toInf then f.infCode.getD f.maxCode else f.maxCode, true, fOverflow ||| fInexact⟩
    else
      let inexact := c != .none
      ⟨code, false, flagIf inexact fInexact ||| flagIf (inexact && isTiny f mode neg m e) fUnderflow⟩

/-- R62, R64, R65: the bit pattern and flags of a value converted to `f`. A quiet NaN sets no flag.
(DEDUCED, log 19.) -/
def convert (f : FloatFmt) (mode : Mode) (x : FVal) : Nat × Flags :=
  match x with
  | .nan s => (f.nanBits, flagIf s fInvalid)
  | .inf neg =>
    match f.infCode with
    | some c => if neg && f.signBit.isNone then (f.nanBits, fInvalid) else (f.place neg c, 0)
    | none => (f.nanBits, fInvalid)
  | .zero neg => (f.place neg 0, 0)
  | .fin neg m e =>
    if neg && f.signBit.isNone then
      let r := roundMag f mode false m e
      if r.code ≠ 0 then (f.nanBits, fInvalid) else (0, r.flags)
    else
      let r := roundMag f mode neg m e
      (f.place neg r.code, r.flags)

/-- The negation of a value. -/
def FVal.neg : FVal → FVal
  | .nan s => .nan s
  | .inf n => .inf !n
  | .zero n => .zero !n
  | .fin n m e => .fin (!n) m e

def FVal.isNan : FVal → Bool
  | .nan _ => true
  | _ => false

def FVal.isSignalling : FVal → Bool
  | .nan s => s
  | _ => false

/-- The value of an integer. -/
def FVal.ofInt (n : Int) : FVal := if n = 0 then .zero false else .fin (decide (n < 0)) n.natAbs 0

/-- n × 2^e as a value. -/
def FVal.ofScaled (n : Int) (e : Int) : FVal := if n = 0 then .zero false else .fin (decide (n < 0)) n.natAbs e

/-- x × 2^n. -/
def FVal.scale (x : FVal) (n : Int) : FVal :=
  match x with
  | .fin s m e => .fin s m (e + n)
  | y => y

/-- The sign bit of a value; a NaN counts as positive. -/
def FVal.sign : FVal → Bool
  | .nan _ => false
  | .inf n => n
  | .zero n => n
  | .fin n _ _ => n

/-- The exact product; ∞ × 0 is a NaN and sets invalid. A zero product has the sign of its factors, in a format without −0
too. (DEDUCED, log 110.) -/
def FVal.mul (a b : FVal) : FVal × Bool :=
  match a, b with
  | .nan _, _ => (.nan false, false)
  | _, .nan _ => (.nan false, false)
  | .inf _, .zero _ => (.nan false, true)
  | .zero _, .inf _ => (.nan false, true)
  | .inf n, y => (.inf (n != y.sign), false)
  | x, .inf n => (.inf (x.sign != n), false)
  | .zero n, y => (.zero (n != y.sign), false)
  | x, .zero n => (.zero (x.sign != n), false)
  | .fin n m e, .fin n' m' e' => (.fin (n != n') (m * m') (e + e'), false)

/-- The exact sum of the finite terms of a list, as n × 2^e with one e for all. -/
def exactSum (ts : List FVal) : Int × Int :=
  let e := ts.foldl (fun acc t => match t with | .fin _ _ e => min acc e | _ => acc) 0
  (ts.foldl (fun acc t => match t with
    | .fin n m e' => let x : Int := ((m <<< (e' - e).toNat : Nat) : Int); if n then acc - x else acc + x
    | _ => acc) 0, e)

/-- R62: the exact sum of the terms as one value: NaN and infinities as IEEE 754 has them, an exact zero +0 unless every
term is −0. The flag says whether +∞ met −∞. -/
def sumVal (ts : List FVal) : FVal × Bool :=
  let both := ts.any (· == .inf false) && ts.any (· == .inf true)
  if ts.any FVal.isNan || both then (.nan false, both)
  else if ts.any (· == .inf false) then (.inf false, false)
  else if ts.any (· == .inf true) then (.inf true, false)
  else
    let (n, e) := exactSum ts
    if n = 0 then (.zero (ts.all (· == .zero true)), false) else (.ofScaled n e, false)

/-- Σ of products and addends, formed exactly and rounded once (R62, R117, R120). -/
def fusedSum (f : FloatFmt) (mode : Mode) (prods : List (FVal × FVal)) (adds : List FVal) : Nat × Flags :=
  let ps := prods.map fun p => p.1.mul p.2
  let (s, bad) := sumVal (ps.map (·.1) ++ adds)
  let inv := bad || ps.any (·.2) || adds.any FVal.isSignalling || prods.any fun p => p.1.isSignalling || p.2.isSignalling
  let (bits, fl) := convert f mode s
  (bits, fl ||| flagIf inv fInvalid)

/-- a ≤ b as exact reals with infinities, −0 = +0; false if unordered. -/
def FVal.key (x : FVal) (e : Int) : Int :=
  match x with
  | .fin n m e' => let v : Int := ((m <<< (e' - e).toNat : Nat) : Int); if n then -v else v
  | _ => 0

/-- The order of two values that are no NaN: −1, 0 or 1. -/
def FVal.cmp (a b : FVal) : Int :=
  match a, b with
  | .inf n, .inf n' => if n = n' then 0 else if n then -1 else 1
  | .inf n, _ => if n then -1 else 1
  | _, .inf n => if n then 1 else -1
  | x, y =>
    let e := match x, y with
      | .fin _ _ e, .fin _ _ e' => min e e'
      | .fin _ _ e, _ => e
      | _, .fin _ _ e => e
      | _, _ => 0
    let d := x.key e - y.key e
    if d < 0 then -1 else if d = 0 then 0 else 1

/-- ± m × 2^e rounded to an integer under the mode, and whether a fraction was dropped (R66, R117). -/
def roundToInt (mode : Mode) (neg : Bool) (m : Nat) (e : Int) : Int × Bool :=
  let (n0, c) := cutAt m e 0
  let n := if roundUp mode neg (n0 % 2 == 1) c then n0 + 1 else n0
  (if neg then -(n : Int) else n, c != .none)

/-- R66: a value converted to an integer between `lo` and `hi`. -/
def toInteger (mode : Mode) (lo hi : Int) (x : FVal) : Int × Flags :=
  match x with
  | .nan _ => (0, fInvalid)
  | .inf n => (if n then lo else hi, fInvalid)
  | .zero _ => (0, 0)
  | .fin n m e =>
    -- a magnitude of 2^65 or more is beyond every integer format
    if 65 < ilog2 m e then (if n then lo else hi, fInvalid)
    else
      let (r, dropped) := roundToInt mode n m e
      if r < lo then (lo, fInvalid) else if hi < r then (hi, fInvalid) else (r, flagIf dropped fInexact)

/-! ### The format word (R59 to R61) -/

/-- Operand formats of a format word. -/
inductive OpFmt where
  | h16 | bh16 | b8 (f : FloatFmt) | s8 | n8
  deriving DecidableEq, Repr

/-- A valid format word. -/
structure FmtWord where
  a : OpFmt
  b : OpFmt
  scale : Nat
  s48 : Bool
  ovf : Nat
  deriving DecidableEq, Repr

/-- One operand's code, precision and options; none if the word is invalid there (R61). -/
def opFmt? (code p : Nat) (signed infs : Bool) : Option OpFmt :=
  if code = 2 then (if p = 0 then none else some (.b8 (binary8 p signed infs)))
  else if p ≠ 0 ∨ signed ∨ infs then none
  else if code = 0 then some .h16 else if code = 1 then some .bh16 else if code = 3 then some .s8
  else if code = 4 then some .n8 else none

def OpFmt.is8 : OpFmt → Bool
  | .h16 | .bh16 => false
  | _ => true

def OpFmt.isInt : OpFmt → Bool
  | .s8 | .n8 => true
  | _ => false

/-- R61: the fields of a format word, none if it is invalid. -/
def fmtWord? (w : W32) : Option FmtWord := do
  let a ← opFmt? (bitsNat w 3 0) (bitsNat w 6 4) (bitAt w 7) (bitAt w 8)
  let b ← opFmt? (bitsNat w 11 9) (bitsNat w 14 12) (bitAt w 15) (bitAt w 16)
  let scale := bitsNat w 18 17
  let s48 := bitAt w 19
  let ovf := bitsNat w 21 20
  if scale = 3 ∨ ovf = 3 ∨ bitsNat w 31 22 ≠ 0 then none
  else if scale ≠ 0 ∧ !a.is8 ∧ !b.is8 then none
  else if s48 ∧ (!a.isInt ∨ !b.isInt ∨ scale ≠ 0) then none
  else some { a, b, scale, s48, ovf }

/-- R115: the binary8 format of a vector instruction's format word, whose other fields must be 0. -/
def vecFmt? (w : W32) : Option FloatFmt :=
  if bitsNat w 31 9 ≠ 0 then none
  else match opFmt? (bitsNat w 3 0) (bitsNat w 6 4) (bitAt w 7) (bitAt w 8) with
    | some (.b8 f) => some f
    | _ => none

/-- The bytes of an element of an operand format. -/
def OpFmt.bytes (f : OpFmt) : Nat := if f.is8 then 1 else 2

/-- The value of an operand's bit pattern; integers are exact. -/
def OpFmt.value (f : OpFmt) (bits : Nat) : FVal :=
  match f with
  | .h16 => fp16.decode bits
  | .bh16 => bf16.decode bits
  | .b8 g => g.decode bits
  | .s8 => .ofInt (BitVec.ofNat 8 bits).toInt
  | .n8 => .ofInt bits

/-- R60: K elements of a pass. -/
def FmtWord.k (w : FmtWord) : Nat := if w.a.is8 && w.b.is8 then 64 else 32

/-! ### Block scales and the fused pass (R57, R69) -/

/-- R57: the exponent of an E8 scale, none for the NaN scale. -/
def e8 (b : Nat) : Option Int := if b = 0xFF then none else some ((b : Int) - 127)

/-- R58: an s48 pattern as an integer, and back. -/
def s48Int (x : BitVec 48) : Int := x.toInt

/-- One term of a pass: the two operands and the exponent of their scales (none: a NaN scale). -/
structure Term where
  a : FVal
  w : FVal
  e : Option Int
  deriving DecidableEq, Repr

/-- sign(t) × floor(|t| / g) in units of g = 2^q, and whether t was no multiple of g (R69). -/
def truncAt (q : Int) (t : FVal) : Int × Bool :=
  match t with
  | .fin n m e => let (u, c) := cutAt m e q; (if n then -(u : Int) else u, c != .none)
  | _ => (0, false)

/-- floor(log2 |t|) of the nonzero terms, the largest. -/
def maxLog (ts : List FVal) : Option Int :=
  ts.foldl (fun acc t => match t with
    | .fin _ m e => let k := ilog2 m e; some (match acc with | some a => max a k | none => k)
    | _ => acc) none

/-- R69: one element of an accumulator row after a pass, in w48. A NaN scale makes its terms NaN without a flag. -/
def passW48 (c : BitVec 48) (ts : List Term) : BitVec 48 × Flags :=
  let cv := w48.decode c.toNat
  let ps := ts.map fun t =>
    match t.e with
    | none => ((FVal.nan false, false) : FVal × Bool)
    | some e => let (p, bad) := t.a.mul t.w; (p.scale e, bad)
  let all := cv :: ps.map (·.1)
  let pos := all.any (· == .inf false)
  let ngv := all.any (· == .inf true)
  let sig := cv.isSignalling || ts.any fun t => t.e.isSome && (t.a.isSignalling || t.w.isSignalling)
  let inv := flagIf (ps.any (·.2) || (pos && ngv) || sig) fInvalid
  if all.any FVal.isNan || (pos && ngv) then (BitVec.ofNat 48 w48.nanBits, inv)
  else if pos then (BitVec.ofNat 48 (w48.place false 0x7F8000000000), inv)
  else if ngv then (BitVec.ofNat 48 (w48.place true 0x7F8000000000), inv)
  else
    match maxLog all with
    | none => (BitVec.ofNat 48 (w48.place (all.all (· == .zero true)) 0), inv)
    | some emax =>
      let q := emax - 60
      let parts := all.map (truncAt q)
      let s : Int := parts.foldl (fun acc p => acc + p.1) 0
      let lost := parts.any (·.2)
      if s = 0 then (0, inv ||| flagIf lost fInexact)
      else
        let r := roundMag w48 .rne (decide (s < 0)) s.natAbs q
        let inexact := lost || bitAt r.flags 4
        (BitVec.ofNat 48 (w48.place (decide (s < 0)) r.code),
          inv ||| r.flags ||| flagIf inexact fInexact ||| flagIf (inexact && isTiny w48 .rne (decide (s < 0)) s.natAbs q) fUnderflow)

/-- The integer of an exact integral value. -/
def FVal.toInt : FVal → Int
  | .fin n m e => let v : Int := ((m <<< e.toNat : Nat) : Int); if n then -v else v
  | _ => 0

/-- R58, R69: one element of an s48 row after a pass. -/
def passS48 (c : BitVec 48) (ts : List Term) : BitVec 48 × Flags :=
  let s := ts.foldl (fun acc t => acc + t.a.toInt * t.w.toInt) (s48Int c)
  if s < -(2 ^ 47) then (BitVec.ofInt 48 (-(2 ^ 47)), fOverflow)
  else if 2 ^ 47 - 1 < s then (BitVec.ofInt 48 (2 ^ 47 - 1), fOverflow)
  else (BitVec.ofInt 48 s, 0)

/-! ### Drains (R187) -/

/-- What a drain converts to (R174). -/
inductive DrainFmt where
  | flt (f : FloatFmt)
  | int (lo hi : Int)
  deriving DecidableEq, Repr

/-- The target of a drain: TGT 0 the A fields, 1 FP32, 2 s32. -/
def drainFmt (w : FmtWord) (tgt : Nat) : DrainFmt :=
  if tgt = 1 then .flt fp32
  else if tgt = 2 then .int (-(2 ^ 31)) (2 ^ 31 - 1)
  else match w.a with
    | .h16 => .flt fp16
    | .bh16 => .flt bf16
    | .b8 f => .flt f
    | .s8 => .int (-128) 127
    | .n8 => .int 0 255

/-- The bytes of a drained element. -/
def drainBytes (w : FmtWord) (tgt : Nat) : Nat := if tgt = 0 then w.a.bytes else 4

/-- The result of an overflow under OVF: 0 ±max finite, 1 ±∞, 2 NaN (R187). -/
def ovfBits (f : FloatFmt) (ovf : Nat) (neg : Bool) : Nat :=
  if ovf = 2 then f.nanBits
  else if ovf = 1 then f.place neg (f.infCode.getD f.maxCode)
  else f.place neg f.maxCode

/-- A finite value drained to a floating-point target. -/
def drainFin (f : FloatFmt) (mode : Mode) (ovf : Nat) (neg : Bool) (m : Nat) (e : Int) : Nat × Flags :=
  if neg && f.signBit.isNone then
    let r := roundMag f mode false m e
    if r.code ≠ 0 then (0xFF, fInvalid) else (0, r.flags)
  else
    let r := roundMag f mode neg m e
    if r.overflow then (ovfBits f ovf neg, r.flags) else (f.place neg r.code, r.flags)

/-- R187: one drained element of a tile. -/
def drainElem (w : FmtWord) (tgt : Nat) (mode : Mode) (x : BitVec 48) : Nat × Flags :=
  match drainFmt w tgt with
  | .flt f =>
    let v := if w.s48 then FVal.ofInt (s48Int x) else w48.decode x.toNat
    match v with
    | .fin neg m e => drainFin f mode w.ovf neg m e
    | v => convert f mode v
  | .int lo hi =>
    let wid := 8 * drainBytes w tgt
    if w.s48 then
      let n := s48Int x
      if n < lo then ((BitVec.ofInt wid lo).toNat, fOverflow)
      else if hi < n then ((BitVec.ofInt wid hi).toNat, fOverflow)
      else ((BitVec.ofInt wid n).toNat, 0)
    else
      let (n, fl) := toInteger mode lo hi (w48.decode x.toNat)
      ((BitVec.ofInt wid n).toNat, fl)

/-! ### Window integers (R71 to R74) -/

/-- R71: the window exponent of an operand, none where bits [63:11] differ from bit 10. -/
def windowExp (x : W64) : Option Int :=
  let v := x.toInt
  if -1024 ≤ v ∧ v ≤ 1023 then some v else none

/-- R71: the largest magnitude of a contribution. -/
def windowMax : Int := 2 ^ 62 - 1

/-- R71: a contribution q and its flags. -/
def windowQ (e : Int) (v : FVal) : Int × Flags :=
  match v with
  | .nan _ => (0, fInvalid)
  | .inf n => (if n then -windowMax else windowMax, fOverflow)
  | .zero _ => (0, 0)
  | .fin n m e' =>
    if 64 < ilog2 m (e' - e) then (if n then -windowMax else windowMax, fOverflow)
    else
      let (u, c) := cutAt m (e' - e) 0
      if windowMax < (u : Int) then (if n then -windowMax else windowMax, fOverflow)
      else (if n then -(u : Int) else u, flagIf (c != .none) fInexact)

/-- R74: S × 2^E as FP32, and as a 64-bit integer. -/
def windowF32 (mode : Mode) (s : W64) (e : Int) : W32 × Flags :=
  let (b, f) := convert fp32 mode (.ofScaled s.toInt e)
  (BitVec.ofNat 32 b, f)
def windowS64 (mode : Mode) (s : W64) (e : Int) : W64 × Flags :=
  let (n, f) := toInteger mode (-(2 ^ 63)) (2 ^ 63 - 1) (.ofScaled s.toInt e)
  (BitVec.ofInt 64 n, f)

/-! ### The nonzero test (R77) -/

/-- R77, R214: whether an element's pattern counts as zero; `signZero` is ETYPE 1, ±0 is zero. -/
def isZeroElem (signZero : Bool) (bytes : Nat) (bits : Nat) : Bool :=
  bits == 0 || (signZero && bits == 2 ^ (8 * bytes - 1))

end Sys2Proof.Machine
end

