-- ==== Sys2Proof/Machine/LaneInt.lean ====
section
/-! DEFINITION. What a vector integer instruction computes in one lane (R100 to R108), and what a cross-lane operation
computes over its participants (R111): functions of the operand values alone. -/

namespace Sys2Proof.Machine

/-- The operand values of one lane: A, B, F and the old D, each as one to four register words with the low word first; a
predicate operand is bit 0. -/
structure LaneIn where
  a : W128 := 0
  b : W128 := 0
  f : W128 := 0
  d : W128 := 0
  mode : Mode := .rne
  deriving DecidableEq, Repr

/-- What one lane receives: the destination (a predicate in bit 0), the carry predicate of `vadc` and `vsbc`, and its
flags. -/
structure LaneOut where
  v : W128
  carry : Bool := false
  flags : Flags := 0
  deriving DecidableEq, Repr

def LaneIn.a32 (x : LaneIn) : W32 := x.a.setWidth 32
def LaneIn.b32 (x : LaneIn) : W32 := x.b.setWidth 32
def LaneIn.f32 (x : LaneIn) : W32 := x.f.setWidth 32
def LaneIn.d32 (x : LaneIn) : W32 := x.d.setWidth 32
def LaneIn.a64 (x : LaneIn) : W64 := x.a.setWidth 64
def LaneIn.b64 (x : LaneIn) : W64 := x.b.setWidth 64
def LaneIn.f64 (x : LaneIn) : W64 := x.f.setWidth 64
/-- The predicate operand in F. -/
def LaneIn.pf (x : LaneIn) : Bool := x.f.getLsbD 0

/-- A 32-bit, 64-bit or predicate result. -/
def o32 (v : W32) : LaneOut := { v := v.setWidth 128 }
def o64 (v : W64) : LaneOut := { v := v.setWidth 128 }
def oPred (p : Bool) : LaneOut := { v := (BitVec.ofBool p).setWidth 128 }

/-! ### Arithmetic at width n (R79, R101) -/

/-- Division truncated toward zero; by zero −1; the most negative number by −1 is itself. -/
def divS {n : Nat} (a b : BitVec n) : BitVec n := if b = 0 then BitVec.allOnes n else a.sdiv b
/-- Division rounded down; by zero all ones. -/
def divN {n : Nat} (a b : BitVec n) : BitVec n := if b = 0 then BitVec.allOnes n else a / b
/-- a − b × divS a b; a for b = 0. -/
def remS {n : Nat} (a b : BitVec n) : BitVec n := if b = 0 then a else a.srem b
/-- a mod b; a for b = 0. -/
def remN {n : Nat} (a b : BitVec n) : BitVec n := if b = 0 then a else a % b
/-- Bits [2n−1:n] of the exact product. -/
def mulhS {n : Nat} (a b : BitVec n) : BitVec n := BitVec.ofInt n ((a.toInt * b.toInt) >>> n)
def mulhN {n : Nat} (a b : BitVec n) : BitVec n := BitVec.ofNat n ((a.toNat * b.toNat) >>> n)
def minS {n : Nat} (a b : BitVec n) : BitVec n := if a.slt b then a else b
def maxS {n : Nat} (a b : BitVec n) : BitVec n := if a.slt b then b else a
def minN {n : Nat} (a b : BitVec n) : BitVec n := if a.ult b then a else b
def maxN {n : Nat} (a b : BitVec n) : BitVec n := if a.ult b then b else a
/-- An exact integer clamped to the signed or unsigned range of n bits (R101, R105). -/
def clampS (n : Nat) (x : Int) : Int := max (-(2 ^ (n - 1))) (min x (2 ^ (n - 1) - 1))
def clampN (n : Nat) (x : Int) : Int := max 0 (min x (2 ^ n - 1))

/-- The number of leading zero bits. -/
def clz {n : Nat} (b : BitVec n) : Nat := if b = 0 then n else n - 1 - Nat.log2 b.toNat
/-- The number of one bits. -/
def popc {n : Nat} (b : BitVec n) : Nat := (List.range n).countP fun i => b.getLsbD i
/-- Bit i moved to bit n − 1 − i. -/
def brev {n : Nat} (b : BitVec n) : BitVec n := b.reverse

/-- R104: the position and length of a bit field. -/
def fieldPos (c : W32) : Nat := bitsNat c 4 0
def fieldLen (c : W32) : Nat := min (bitsNat c 13 8) (32 - fieldPos c)

/-- R104: `vbfe`. -/
def bfe (signed : Bool) (a c : W32) : W32 :=
  let l := fieldLen c
  if l = 0 then 0
  else
    let u := bitsNat a (fieldPos c + l - 1) (fieldPos c)
    if signed && u.testBit (l - 1) then BitVec.ofInt 32 ((u : Int) - 2 ^ l) else BitVec.ofNat 32 u

/-- R104: `vbfi` with base `d`. -/
def bfi (d a c : W32) : W32 :=
  let l := fieldLen c
  let m : W32 := BitVec.ofNat 32 ((2 ^ l - 1) <<< fieldPos c)
  (d &&& ~~~m) ||| ((a <<< fieldPos c) &&& m)

/-- The low five or six bits of a count (R67, R102). -/
def cnt32 (x : LaneIn) : Nat := bitsNat x.b32 4 0
def cnt64 (x : LaneIn) : Nat := bitsNat x.b32 5 0

/-! ### Arithmetic (R101) -/

/-- R101: Vector 32-bit add modulo 2^32. -/
def laneVaddS32 (x : LaneIn) : LaneOut := o32 (x.a32 + x.b32)
/-- R101: Vector 64-bit add on pairs. -/
def laneVaddS64 (x : LaneIn) : LaneOut := o64 (x.a64 + x.b64)
/-- R101: Vector signed saturating add. -/
def laneVaddSatS32 (x : LaneIn) : LaneOut := o32 (BitVec.ofInt 32 (clampS 32 (x.a32.toInt + x.b32.toInt)))
/-- R101: Vector unsigned saturating add. -/
def laneVaddSatN32 (x : LaneIn) : LaneOut := o32 (BitVec.ofInt 32 (clampN 32 ((x.a32.toNat : Int) + x.b32.toNat)))
/-- R101: Vector 32-bit subtract. -/
def laneVsubS32 (x : LaneIn) : LaneOut := o32 (x.a32 - x.b32)
/-- R101: Vector 64-bit subtract. -/
def laneVsubS64 (x : LaneIn) : LaneOut := o64 (x.a64 - x.b64)
/-- R101: Vector signed saturating subtract. -/
def laneVsubSatS32 (x : LaneIn) : LaneOut := o32 (BitVec.ofInt 32 (clampS 32 (x.a32.toInt - x.b32.toInt)))
/-- R101: Vector unsigned saturating subtract. -/
def laneVsubSatN32 (x : LaneIn) : LaneOut := o32 (BitVec.ofInt 32 (clampN 32 ((x.a32.toNat : Int) - x.b32.toNat)))
/-- R101: Vector 32-bit low multiply. -/
def laneVmulS32 (x : LaneIn) : LaneOut := o32 (x.a32 * x.b32)
/-- R101: Vector 64-bit low multiply. -/
def laneVmulS64 (x : LaneIn) : LaneOut := o64 (x.a64 * x.b64)
/-- R101: High 32 bits of the signed vector product. -/
def laneVmulhS32 (x : LaneIn) : LaneOut := o32 (mulhS x.a32 x.b32)
/-- R101: High 32 bits of the unsigned vector product. -/
def laneVmulhN32 (x : LaneIn) : LaneOut := o32 (mulhN x.a32 x.b32)
/-- R101: Vector 32-bit multiply-add with the F addend. -/
def laneVmadS32 (x : LaneIn) : LaneOut := o32 (x.a32 * x.b32 + x.f32)
/-- R101: Vector 64-bit multiply-add with the F addend. -/
def laneVmadS64 (x : LaneIn) : LaneOut := o64 (x.a64 * x.b64 + x.f64)
/-- t := a + b + p[F]; D := t[31:0]; p[F] := t[32]. -/
def laneVadcN32 (x : LaneIn) : LaneOut :=
  let t := x.a32.toNat + x.b32.toNat + x.pf.toNat
  { v := (BitVec.ofNat 32 t).setWidth 128, carry := decide (2 ^ 32 ≤ t) }
/-- D := a − b − p[F] mod 2^32; p[F] := 1 if a < b + p[F]. -/
def laneVsbcN32 (x : LaneIn) : LaneOut :=
  let s := x.b32.toNat + x.pf.toNat
  { v := (BitVec.ofInt 32 ((x.a32.toNat : Int) - s)).setWidth 128, carry := decide (x.a32.toNat < s) }
/-- R101: Vector signed 32-bit division with defined special cases. -/
def laneVdivS32 (x : LaneIn) : LaneOut := o32 (divS x.a32 x.b32)
/-- R101: Vector unsigned 32-bit division. -/
def laneVdivN32 (x : LaneIn) : LaneOut := o32 (divN x.a32 x.b32)
/-- R101: Vector signed 64-bit division. -/
def laneVdivS64 (x : LaneIn) : LaneOut := o64 (divS x.a64 x.b64)
/-- R101: Vector unsigned 64-bit division. -/
def laneVdivN64 (x : LaneIn) : LaneOut := o64 (divN x.a64 x.b64)
/-- R101: Vector signed 32-bit remainder. -/
def laneVremS32 (x : LaneIn) : LaneOut := o32 (remS x.a32 x.b32)
/-- R101: Vector unsigned 32-bit remainder. -/
def laneVremN32 (x : LaneIn) : LaneOut := o32 (remN x.a32 x.b32)
/-- R101: Vector signed 64-bit remainder. -/
def laneVremS64 (x : LaneIn) : LaneOut := o64 (remS x.a64 x.b64)
/-- R101: Vector unsigned 64-bit remainder. -/
def laneVremN64 (x : LaneIn) : LaneOut := o64 (remN x.a64 x.b64)
/-- R101: Vector 32-bit absolute value. -/
def laneVabsS32 (x : LaneIn) : LaneOut := o32 (if x.b32.msb then -x.b32 else x.b32)
/-- R101: Vector 64-bit absolute value. -/
def laneVabsS64 (x : LaneIn) : LaneOut := o64 (if x.b64.msb then -x.b64 else x.b64)
/-- R101: Vector 32-bit negation. -/
def laneVnegS32 (x : LaneIn) : LaneOut := o32 (-x.b32)
/-- R101: Vector 64-bit negation. -/
def laneVnegS64 (x : LaneIn) : LaneOut := o64 (-x.b64)
/-- R101: Vector signed 32-bit minimum. -/
def laneVminS32 (x : LaneIn) : LaneOut := o32 (minS x.a32 x.b32)
/-- R101: Vector unsigned 32-bit minimum. -/
def laneVminN32 (x : LaneIn) : LaneOut := o32 (minN x.a32 x.b32)
/-- R101: Vector signed 32-bit maximum. -/
def laneVmaxS32 (x : LaneIn) : LaneOut := o32 (maxS x.a32 x.b32)
/-- R101: Vector unsigned 32-bit maximum. -/
def laneVmaxN32 (x : LaneIn) : LaneOut := o32 (maxN x.a32 x.b32)
/-- R101: Vector signed 64-bit minimum. -/
def laneVminS64 (x : LaneIn) : LaneOut := o64 (minS x.a64 x.b64)
/-- R101: Vector unsigned 64-bit minimum. -/
def laneVminN64 (x : LaneIn) : LaneOut := o64 (minN x.a64 x.b64)
/-- R101: Vector signed 64-bit maximum. -/
def laneVmaxS64 (x : LaneIn) : LaneOut := o64 (maxS x.a64 x.b64)
/-- R101: Vector unsigned 64-bit maximum. -/
def laneVmaxN64 (x : LaneIn) : LaneOut := o64 (maxN x.a64 x.b64)

/-! ### Logic, shifts, bit fields and moves (R103, R104) -/

/-- R103: Vector 32-bit and. -/
def laneVandB32 (x : LaneIn) : LaneOut := o32 (x.a32 &&& x.b32)
/-- R103: Vector 32-bit or. -/
def laneVorB32 (x : LaneIn) : LaneOut := o32 (x.a32 ||| x.b32)
/-- R103: Vector 32-bit exclusive or. -/
def laneVxorB32 (x : LaneIn) : LaneOut := o32 (x.a32 ^^^ x.b32)
/-- R103: Vector 32-bit a and not b. -/
def laneVandnB32 (x : LaneIn) : LaneOut := o32 (x.a32 &&& ~~~x.b32)
/-- R103: Vector 64-bit and. -/
def laneVandB64 (x : LaneIn) : LaneOut := o64 (x.a64 &&& x.b64)
/-- R103: Vector 64-bit or. -/
def laneVorB64 (x : LaneIn) : LaneOut := o64 (x.a64 ||| x.b64)
/-- R103: Vector 64-bit exclusive or. -/
def laneVxorB64 (x : LaneIn) : LaneOut := o64 (x.a64 ^^^ x.b64)
/-- R103: Vector 64-bit a and not b. -/
def laneVandnB64 (x : LaneIn) : LaneOut := o64 (x.a64 &&& ~~~x.b64)
/-- R103: Vector 32-bit shift left. -/
def laneVshlB32 (x : LaneIn) : LaneOut := o32 (x.a32 <<< cnt32 x)
/-- R103: Vector 32-bit logical shift right. -/
def laneVshrB32 (x : LaneIn) : LaneOut := o32 (x.a32 >>> cnt32 x)
/-- R103: Vector 32-bit arithmetic shift right. -/
def laneVsraB32 (x : LaneIn) : LaneOut := o32 (x.a32.sshiftRight (cnt32 x))
/-- R103: Vector 32-bit rotate left. -/
def laneVrotB32 (x : LaneIn) : LaneOut := o32 (x.a32.rotateLeft (cnt32 x))
/-- R103: Vector 64-bit shift left. -/
def laneVshlB64 (x : LaneIn) : LaneOut := o64 (x.a64 <<< cnt64 x)
/-- R103: Vector 64-bit logical shift right. -/
def laneVshrB64 (x : LaneIn) : LaneOut := o64 (x.a64 >>> cnt64 x)
/-- R103: Vector 64-bit arithmetic shift right. -/
def laneVsraB64 (x : LaneIn) : LaneOut := o64 (x.a64.sshiftRight (cnt64 x))
/-- R103: Vector 64-bit rotate left. -/
def laneVrotB64 (x : LaneIn) : LaneOut := o64 (x.a64.rotateLeft (cnt64 x))
/-- R103: Counts leading zeros of a 32-bit value. -/
def laneVclzB32 (x : LaneIn) : LaneOut := o32 (BitVec.ofNat 32 (clz x.b32))
/-- R103: Counts leading zeros of a 64-bit value. -/
def laneVclzB64 (x : LaneIn) : LaneOut := o32 (BitVec.ofNat 32 (clz x.b64))
/-- R103: Counts one bits of a 32-bit value. -/
def laneVpopcB32 (x : LaneIn) : LaneOut := o32 (BitVec.ofNat 32 (popc x.b32))
/-- R103: Counts one bits of a 64-bit value. -/
def laneVpopcB64 (x : LaneIn) : LaneOut := o32 (BitVec.ofNat 32 (popc x.b64))
/-- R103: Reverses the bits of a 32-bit value. -/
def laneVbrevB32 (x : LaneIn) : LaneOut := o32 (brev x.b32)
/-- R103: Reverses the bits of a 64-bit value. -/
def laneVbrevB64 (x : LaneIn) : LaneOut := o64 (brev x.b64)
/-- R104: Extracts a bit field, sign-extended. -/
def laneVbfeS32 (x : LaneIn) : LaneOut := o32 (bfe true x.a32 x.b32)
/-- R104: Extracts a bit field, zero-extended. -/
def laneVbfeN32 (x : LaneIn) : LaneOut := o32 (bfe false x.a32 x.b32)
/-- R104: Inserts a bit field of a into D. -/
def laneVbfiB32 (x : LaneIn) : LaneOut := o32 (bfi x.d32 x.a32 x.b32)
/-- R103: Adds a sign-extended 32-bit offset to a 64-bit address pair. -/
def laneVleaB64 (x : LaneIn) : LaneOut := o64 (x.a64 + x.b32.signExtend 64)
/-- R103: Vector 32-bit move. -/
def laneVmovB32 (x : LaneIn) : LaneOut := o32 x.b32
/-- R103: Vector 64-bit move. -/
def laneVmovB64 (x : LaneIn) : LaneOut := o64 x.b64
/-- R106: Per-lane 32-bit select by the F predicate. -/
def laneVselB32 (x : LaneIn) : LaneOut := o32 (if x.pf then x.a32 else x.b32)
/-- R106: Per-lane 64-bit select by the F predicate. -/
def laneVselB64 (x : LaneIn) : LaneOut := o64 (if x.pf then x.a64 else x.b64)

/-! ### Conversions (R105) -/

/-- R105: Sign-extends a byte to 32 bits. -/
def laneVcvtS32S8 (x : LaneIn) : LaneOut := o32 ((x.b32.setWidth 8).signExtend 32)
/-- R105: Sign-extends a half-word to 32 bits. -/
def laneVcvtS32S16 (x : LaneIn) : LaneOut := o32 ((x.b32.setWidth 16).signExtend 32)
/-- R105: Zero-extends a byte to 32 bits. -/
def laneVcvtN32N8 (x : LaneIn) : LaneOut := o32 ((x.b32.setWidth 8).setWidth 32)
/-- R105: Zero-extends a half-word to 32 bits. -/
def laneVcvtN32N16 (x : LaneIn) : LaneOut := o32 ((x.b32.setWidth 16).setWidth 32)
/-- R105: Sign-extends 32 bits to a 64-bit pair. -/
def laneVcvtS64S32 (x : LaneIn) : LaneOut := o64 (x.b32.signExtend 64)
/-- R105: Zero-extends 32 bits to a 64-bit pair. -/
def laneVcvtN64N32 (x : LaneIn) : LaneOut := o64 (x.b32.setWidth 64)
/-- R105: Clamps a signed value to 8 bits. -/
def laneVcvtS8S32 (x : LaneIn) : LaneOut := o32 (BitVec.ofInt 32 (clampS 8 x.b32.toInt))
/-- R105: Clamps a signed value to 16 bits. -/
def laneVcvtS16S32 (x : LaneIn) : LaneOut := o32 (BitVec.ofInt 32 (clampS 16 x.b32.toInt))
/-- R105: Clamps an unsigned value to 255. -/
def laneVcvtN8N32 (x : LaneIn) : LaneOut := o32 (BitVec.ofNat 32 (min x.b32.toNat 255))
/-- R105: Clamps an unsigned value to 65,535. -/
def laneVcvtN16N32 (x : LaneIn) : LaneOut := o32 (BitVec.ofNat 32 (min x.b32.toNat 65535))
/-- R105: Clamps a signed 64-bit value to 32 bits. -/
def laneVcvtS32S64 (x : LaneIn) : LaneOut := o32 (BitVec.ofInt 32 (clampS 32 x.b64.toInt))
/-- R105: Clamps an unsigned 64-bit value to 32 bits. -/
def laneVcvtN32N64 (x : LaneIn) : LaneOut := o32 (BitVec.ofNat 32 (min x.b64.toNat (2 ^ 32 - 1)))
/-- R105: Clamps an unsigned value to the signed 32-bit maximum. -/
def laneVcvtS32N32 (x : LaneIn) : LaneOut := o32 (BitVec.ofNat 32 (min x.b32.toNat (2 ^ 31 - 1)))
/-- R105: Clamps a signed value at 0. -/
def laneVcvtN32S32 (x : LaneIn) : LaneOut := o32 (BitVec.ofInt 32 (max x.b32.toInt 0))

/-! ### Compare and predicate logic (R107, R108) -/

/-- R107: Vector 32-bit equality compare into a predicate. -/
def laneVcmpEqB32 (x : LaneIn) : LaneOut := oPred (x.a32 == x.b32)
/-- R107: Vector 32-bit inequality compare. -/
def laneVcmpNeB32 (x : LaneIn) : LaneOut := oPred (x.a32 != x.b32)
/-- R107: Vector signed 32-bit less-than. -/
def laneVcmpLtS32 (x : LaneIn) : LaneOut := oPred (x.a32.slt x.b32)
/-- R107: Vector signed 32-bit less-or-equal. -/
def laneVcmpLeS32 (x : LaneIn) : LaneOut := oPred (x.a32.sle x.b32)
/-- R107: Vector unsigned 32-bit less-than. -/
def laneVcmpLtN32 (x : LaneIn) : LaneOut := oPred (x.a32.ult x.b32)
/-- R107: Vector unsigned 32-bit less-or-equal. -/
def laneVcmpLeN32 (x : LaneIn) : LaneOut := oPred (x.a32.ule x.b32)
/-- R107: Vector 64-bit equality compare. -/
def laneVcmpEqB64 (x : LaneIn) : LaneOut := oPred (x.a64 == x.b64)
/-- R107: Vector 64-bit inequality compare. -/
def laneVcmpNeB64 (x : LaneIn) : LaneOut := oPred (x.a64 != x.b64)
/-- R107: Vector signed 64-bit less-than. -/
def laneVcmpLtS64 (x : LaneIn) : LaneOut := oPred (x.a64.slt x.b64)
/-- R107: Vector signed 64-bit less-or-equal. -/
def laneVcmpLeS64 (x : LaneIn) : LaneOut := oPred (x.a64.sle x.b64)
/-- R107: Vector unsigned 64-bit less-than. -/
def laneVcmpLtN64 (x : LaneIn) : LaneOut := oPred (x.a64.ult x.b64)
/-- R107: Vector unsigned 64-bit less-or-equal. -/
def laneVcmpLeN64 (x : LaneIn) : LaneOut := oPred (x.a64.ule x.b64)
/-- Bit (2 × a + b) of the truth table. -/
def lanePlop (t : BitVec 4) (x : LaneIn) : LaneOut :=
  oPred (t.getLsbD (2 * (x.a.getLsbD 0).toNat + (x.b.getLsbD 0).toNat))

/-! ### Cross-lane operations (R111)

`P` lists the participants in ascending home lane order with their operand values; the result is the one of the
participant of rank `r`. -/

/-- A participant: its home lane and its operand values. -/
structure Part where
  lane : Nat
  x : LaneIn
  deriving DecidableEq, Repr

/-- a(j), or the own value where there is no participant of that rank. -/
def shufA (P : List Part) (own : LaneIn) (j : Nat) : W128 :=
  match P[j]? with
  | some p => p.x.a
  | none => own.a

def crossXshf (P : List Part) (_r : Nat) (x : LaneIn) : W128 := shufA P x x.b32.toNat
def crossXshu (P : List Part) (r : Nat) (x : LaneIn) : W128 :=
  if x.b32.toNat ≤ r then shufA P x (r - x.b32.toNat) else x.a
def crossXshd (P : List Part) (r : Nat) (x : LaneIn) : W128 := shufA P x (r + x.b32.toNat)
def crossXbfl (P : List Part) (r : Nat) (x : LaneIn) : W128 := shufA P x (r ^^^ x.b32.toNat)
def crossXbcast (P : List Part) (_r : Nat) (x : LaneIn) : W128 :=
  match P with
  | [] => x.a
  | p :: _ => shufA P x p.x.b32.toNat
/-- R111: OR of a predicate over the participants. -/
def crossXvoteAny (P : List Part) (_r : Nat) (_x : LaneIn) : W128 :=
  (BitVec.ofBool (P.any fun p => p.x.a.getLsbD 0)).setWidth 128
/-- R111: AND of a predicate over the participants. -/
def crossXvoteAll (P : List Part) (_r : Nat) (_x : LaneIn) : W128 :=
  (BitVec.ofBool (P.all fun p => p.x.a.getLsbD 0)).setWidth 128
/-- The home lane of the lowest-ranked participant with the own value. -/
def crossXmatch (P : List Part) (_r : Nat) (x : LaneIn) : W128 :=
  match P.find? fun p => p.x.a = x.a with
  | some p => BitVec.ofNat 128 p.lane
  | none => 0

/-- The reduction of a nonempty list at width n, in rank order. -/
def fold1 {n : Nat} (op : BitVec n → BitVec n → BitVec n) : List (BitVec n) → BitVec n
  | [] => 0
  | v :: vs => vs.foldl op v

/-- The A values of the participants at width n. -/
def aVals (n : Nat) (P : List Part) : List (BitVec n) := P.map fun p => p.x.a.setWidth n

/-- `xred` at width n. -/
def crossRed (n : Nat) (op : BitVec n → BitVec n → BitVec n) (P : List Part) (_r : Nat) (_x : LaneIn) : W128 :=
  (fold1 op (aVals n P)).setWidth 128
/-- `xscan`, inclusive. -/
def crossScan (n : Nat) (op : BitVec n → BitVec n → BitVec n) (P : List Part) (r : Nat) (_x : LaneIn) : W128 :=
  (fold1 op ((aVals n P).take (r + 1))).setWidth 128
/-- `xscan.addx`, exclusive, 0 for rank 0. -/
def crossScanX (n : Nat) (P : List Part) (r : Nat) (_x : LaneIn) : W128 :=
  (((aVals n P).take r).foldl (· + ·) (0 : BitVec n)).setWidth 128

end Sys2Proof.Machine
end

