-- ==== Sys2Proof/Machine/LaneFloat.lean ====
section
/-! DEFINITION. What a floating-point, conversion or special-function instruction computes in one lane (R113 to R131):
functions of the operand values, the mode and, where R127 leaves a choice within a bound, the free values of Config. -/

namespace Sys2Proof.Machine

/-- The 16-bit element `i` of a register (R52). -/
def half (w : W32) (i : Nat) : Nat := bitsNat w (16 * i + 15) (16 * i)

/-- A result of one element: its pattern and flags. -/
abbrev Elem := Nat × Flags

/-- One FP32 element from the operand patterns a, b and f. -/
def elem32 (op : Nat → Nat → Nat → Elem) (x : LaneIn) : LaneOut :=
  let (v, fl) := op x.a32.toNat x.b32.toNat x.f32.toNat
  { v := BitVec.ofNat 128 v, flags := fl }

/-- Two 16-bit elements, computed independently; the flags of both go to the lane (R113). -/
def elem16 (op : Nat → Nat → Nat → Elem) (x : LaneIn) : LaneOut :=
  let (v0, f0) := op (half x.a32 0) (half x.b32 0) (half x.f32 0)
  let (v1, f1) := op (half x.a32 1) (half x.b32 1) (half x.f32 1)
  { v := BitVec.ofNat 128 (v0 + v1 * 2 ^ 16), flags := f0 ||| f1 }

/-! ### Arithmetic on one element (R117 to R119) -/

def opFma (f : FloatFmt) (mode : Mode) (a b c : Nat) : Elem := fusedSum f mode [(f.decode a, f.decode b)] [f.decode c]
def opAdd (f : FloatFmt) (mode : Mode) (a b _c : Nat) : Elem := fusedSum f mode [] [f.decode a, f.decode b]
def opSub (f : FloatFmt) (mode : Mode) (a b _c : Nat) : Elem := fusedSum f mode [] [f.decode a, (f.decode b).neg]
def opMul (f : FloatFmt) (mode : Mode) (a b _c : Nat) : Elem := fusedSum f mode [(f.decode a, f.decode b)] []

/-- The order of R118: −0 is below +0. -/
def ltZ (a b : FVal) : Bool :=
  match a, b with
  | .zero n, .zero n' => n && !n'
  | a, b => a.cmp b == -1

/-- R118: the lesser (`greater` false) or greater operand; one NaN gives the other operand, or, for `fminn` and `fmaxn`
(`prop`), the canonical NaN. -/
def opMinMax (f : FloatFmt) (greater prop : Bool) (a b _c : Nat) : Elem :=
  let va := f.decode a
  let vb := f.decode b
  let fl := flagIf (va.isSignalling || vb.isSignalling) fInvalid
  if va.isNan && vb.isNan || prop && (va.isNan || vb.isNan) then (f.nanBits, fl)
  else if va.isNan then (b, fl)
  else if vb.isNan then (a, fl)
  else if greater then (if ltZ va vb then b else a, fl)
  else (if ltZ vb va then b else a, fl)

/-- The weight of the sign bit of an IEEE format. -/
def signWeight (f : FloatFmt) : Nat := 2 ^ (f.signBit.getD 0)

/-- R119, R53: sign operations change the sign bit only and set no flag. -/
def opAbs (f : FloatFmt) (_a b _c : Nat) : Elem := (b % signWeight f, 0)
def opNeg (f : FloatFmt) (_a b _c : Nat) : Elem := (b ^^^ signWeight f, 0)
def opCps (f : FloatFmt) (a b _c : Nat) : Elem := (a % signWeight f + (b / signWeight f) * signWeight f, 0)

/-- R119: the class mask. -/
def opClass (f : FloatFmt) (_a b _c : Nat) : Elem :=
  let i := match f.decode b with
    | .nan true => 0
    | .nan false => 1
    | .inf true => 2
    | .fin true m e => if ilog2 m e < f.emin then 4 else 3
    | .zero true => 5
    | .zero false => 6
    | .fin false m e => if ilog2 m e < f.emin then 7 else 8
    | .inf false => 9
  (2 ^ i, 0)

/-- R117: `frnd`. -/
def opRnd (f : FloatFmt) (mode : Mode) (_a b _c : Nat) : Elem :=
  match f.decode b with
  | .nan s => (f.nanBits, flagIf s fInvalid)
  | .fin n m e =>
    let (r, dropped) := roundToInt mode n m e
    if r = 0 then (f.place n 0, flagIf dropped fInexact)
    else ((convert f .rne (.ofInt r)).1, flagIf dropped fInexact)
  | _ => (b, 0)

/-- R117: `fscl`, with the count `n`. -/
def opScl (f : FloatFmt) (mode : Mode) (a : Nat) (n : Int) : Elem := convert f mode ((f.decode a).scale n)

/-- R119: floor(log2 |x|) as a value of the format. -/
def opGetx (f : FloatFmt) (_a b _c : Nat) : Elem :=
  match f.decode b with
  | .nan s => (f.nanBits, flagIf s fInvalid)
  | .inf _ => (f.place false (f.infCode.getD 0), 0)
  | .zero _ => (f.place true (f.infCode.getD 0), fDivZero)
  | .fin _ m e => ((convert f .rne (.ofInt (ilog2 m e))).1, 0)

/-- R117: FP32 fused multiply-add rounded once. -/
def laneFfmaF32 (x : LaneIn) : LaneOut := elem32 (opFma fp32 x.mode) x
/-- R117: FP32 add. -/
def laneFaddF32 (x : LaneIn) : LaneOut := elem32 (opAdd fp32 x.mode) x
/-- R117: FP32 subtract. -/
def laneFsubF32 (x : LaneIn) : LaneOut := elem32 (opSub fp32 x.mode) x
/-- R117: FP32 multiply. -/
def laneFmulF32 (x : LaneIn) : LaneOut := elem32 (opMul fp32 x.mode) x
/-- R118: FP32 minimum ignoring a single NaN. -/
def laneFminF32 (x : LaneIn) : LaneOut := elem32 (opMinMax fp32 false false) x
/-- R118: FP32 maximum ignoring a single NaN. -/
def laneFmaxF32 (x : LaneIn) : LaneOut := elem32 (opMinMax fp32 true false) x
/-- R118: FP32 minimum propagating NaN. -/
def laneFminnF32 (x : LaneIn) : LaneOut := elem32 (opMinMax fp32 false true) x
/-- R118: FP32 maximum propagating NaN. -/
def laneFmaxnF32 (x : LaneIn) : LaneOut := elem32 (opMinMax fp32 true true) x
/-- R119: Clears the FP32 sign bit. -/
def laneFabsF32 (x : LaneIn) : LaneOut := elem32 (opAbs fp32) x
/-- R119: Inverts the FP32 sign bit. -/
def laneFnegF32 (x : LaneIn) : LaneOut := elem32 (opNeg fp32) x
/-- R119: Magnitude of a with the sign of b. -/
def laneFcpsF32 (x : LaneIn) : LaneOut := elem32 (opCps fp32) x
/-- R119: Writes the FP32 class mask. -/
def laneFclassF32 (x : LaneIn) : LaneOut := elem32 (opClass fp32) x
/-- R117: Rounds FP32 to an integral value under the mode. -/
def laneFrndF32 (x : LaneIn) : LaneOut := elem32 (opRnd fp32 x.mode) x
/-- R117: Scales FP32 by a power of 2. -/
def laneFsclF32 (x : LaneIn) : LaneOut := elem32 (fun a b _ => opScl fp32 x.mode a (BitVec.ofNat 32 b).toInt) x
/-- R119: Exponent of an FP32 value as FP32. -/
def laneFgetxF32 (x : LaneIn) : LaneOut := elem32 (opGetx fp32) x

/-- R117: Paired FP16 fused multiply-add. -/
def laneFfmaH2 (x : LaneIn) : LaneOut := elem16 (opFma fp16 x.mode) x
/-- R117: Paired FP16 add. -/
def laneFaddH2 (x : LaneIn) : LaneOut := elem16 (opAdd fp16 x.mode) x
/-- R117: Paired FP16 subtract. -/
def laneFsubH2 (x : LaneIn) : LaneOut := elem16 (opSub fp16 x.mode) x
/-- R117: Paired FP16 multiply. -/
def laneFmulH2 (x : LaneIn) : LaneOut := elem16 (opMul fp16 x.mode) x
/-- R118: Paired FP16 minimum. -/
def laneFminH2 (x : LaneIn) : LaneOut := elem16 (opMinMax fp16 false false) x
/-- R118: Paired FP16 maximum. -/
def laneFmaxH2 (x : LaneIn) : LaneOut := elem16 (opMinMax fp16 true false) x
/-- R118: Paired FP16 NaN-propagating minimum. -/
def laneFminnH2 (x : LaneIn) : LaneOut := elem16 (opMinMax fp16 false true) x
/-- R118: Paired FP16 NaN-propagating maximum. -/
def laneFmaxnH2 (x : LaneIn) : LaneOut := elem16 (opMinMax fp16 true true) x
/-- R119: Paired FP16 absolute value. -/
def laneFabsH2 (x : LaneIn) : LaneOut := elem16 (opAbs fp16) x
/-- R119: Paired FP16 negation. -/
def laneFnegH2 (x : LaneIn) : LaneOut := elem16 (opNeg fp16) x
/-- R119: Paired FP16 copy sign. -/
def laneFcpsH2 (x : LaneIn) : LaneOut := elem16 (opCps fp16) x
/-- R119: Paired FP16 class masks. -/
def laneFclassH2 (x : LaneIn) : LaneOut := elem16 (opClass fp16) x
/-- R117: Paired FP16 round to integral. -/
def laneFrndH2 (x : LaneIn) : LaneOut := elem16 (opRnd fp16 x.mode) x
/-- R117: Paired FP16 scale by powers of 2. -/
def laneFsclH2 (x : LaneIn) : LaneOut := elem16 (fun a b _ => opScl fp16 x.mode a (BitVec.ofNat 16 b).toInt) x
/-- R119: Paired FP16 exponents. -/
def laneFgetxH2 (x : LaneIn) : LaneOut := elem16 (opGetx fp16) x

/-- R117: Paired BF16 fused multiply-add. -/
def laneFfmaBh2 (x : LaneIn) : LaneOut := elem16 (opFma bf16 x.mode) x
/-- R117: Paired BF16 add. -/
def laneFaddBh2 (x : LaneIn) : LaneOut := elem16 (opAdd bf16 x.mode) x
/-- R117: Paired BF16 subtract. -/
def laneFsubBh2 (x : LaneIn) : LaneOut := elem16 (opSub bf16 x.mode) x
/-- R117: Paired BF16 multiply. -/
def laneFmulBh2 (x : LaneIn) : LaneOut := elem16 (opMul bf16 x.mode) x
/-- R118: Paired BF16 minimum. -/
def laneFminBh2 (x : LaneIn) : LaneOut := elem16 (opMinMax bf16 false false) x
/-- R118: Paired BF16 maximum. -/
def laneFmaxBh2 (x : LaneIn) : LaneOut := elem16 (opMinMax bf16 true false) x
/-- R118: Paired BF16 NaN-propagating minimum. -/
def laneFminnBh2 (x : LaneIn) : LaneOut := elem16 (opMinMax bf16 false true) x
/-- R118: Paired BF16 NaN-propagating maximum. -/
def laneFmaxnBh2 (x : LaneIn) : LaneOut := elem16 (opMinMax bf16 true true) x
/-- R119: Paired BF16 absolute value. -/
def laneFabsBh2 (x : LaneIn) : LaneOut := elem16 (opAbs bf16) x
/-- R119: Paired BF16 negation. -/
def laneFnegBh2 (x : LaneIn) : LaneOut := elem16 (opNeg bf16) x
/-- R119: Paired BF16 copy sign. -/
def laneFcpsBh2 (x : LaneIn) : LaneOut := elem16 (opCps bf16) x
/-- R119: Paired BF16 class masks. -/
def laneFclassBh2 (x : LaneIn) : LaneOut := elem16 (opClass bf16) x
/-- R117: Paired BF16 round to integral. -/
def laneFrndBh2 (x : LaneIn) : LaneOut := elem16 (opRnd bf16 x.mode) x
/-- R117: Paired BF16 scale by powers of 2. -/
def laneFsclBh2 (x : LaneIn) : LaneOut := elem16 (fun a b _ => opScl bf16 x.mode a (BitVec.ofNat 16 b).toInt) x
/-- R119: Paired BF16 exponents. -/
def laneFgetxBh2 (x : LaneIn) : LaneOut := elem16 (opGetx bf16) x

/-! ### Dot products (R120) -/

/-- round(f + a0 × b0 + a1 × b1, FP32, mode) with the 16-bit format `g`. -/
def opDot2 (g : FloatFmt) (x : LaneIn) : LaneOut :=
  let p i := (g.decode (half x.a32 i), g.decode (half x.b32 i))
  let (v, fl) := fusedSum fp32 x.mode [p 0, p 1] [fp32.decode x.f32.toNat]
  { v := BitVec.ofNat 128 v, flags := fl }

/-- R120: Two-element FP16 dot product with FP32 addend, rounded once. -/
def laneFdot2F32H2 (x : LaneIn) : LaneOut := opDot2 fp16 x
/-- R120: Two-element BF16 dot product with FP32 addend. -/
def laneFdot2F32Bh2 (x : LaneIn) : LaneOut := opDot2 bf16 x

/-- Byte `i` of a register. -/
def byteOf (w : W32) (i : Nat) : Nat := bitsNat w (8 * i + 7) (8 * i)

/-- round(d + Σ aj × bj, FP32, mode) over four bytes under the format word in F; the format word is valid where this
is computed (R115). -/
def laneFdot4F32Q8 (x : LaneIn) : LaneOut :=
  match vecFmt? x.f32 with
  | none => { v := x.d }
  | some g =>
    let p i := (g.decode (byteOf x.a32 i), g.decode (byteOf x.b32 i))
    let (v, fl) := fusedSum fp32 x.mode [p 0, p 1, p 2, p 3] [fp32.decode x.d32.toNat]
    { v := BitVec.ofNat 128 v, flags := fl }

/-! ### Comparison (R121) -/

/-- The six conditions. -/
inductive FCond where
  | eq | ne | lt | le | un | ord
  deriving DecidableEq, Repr

def fcmp (c : FCond) (x : LaneIn) : LaneOut :=
  let a := fp32.decode x.a32.toNat
  let b := fp32.decode x.b32.toNat
  let nan := a.isNan || b.isNan
  let sig := a.isSignalling || b.isSignalling
  let r := match c with
    | .eq => !nan && a.cmp b == 0
    | .ne => nan || a.cmp b != 0
    | .lt => !nan && a.cmp b == -1
    | .le => !nan && a.cmp b != 1
    | .un => nan
    | .ord => !nan
  let inv := match c with
    | .lt | .le => nan
    | _ => sig
  { oPred r with flags := flagIf inv fInvalid }

/-- R121: FP32 equality compare into a predicate. -/
def laneFcmpEqF32 (x : LaneIn) : LaneOut := fcmp .eq x
/-- R121: FP32 inequality compare, true if unordered. -/
def laneFcmpNeF32 (x : LaneIn) : LaneOut := fcmp .ne x
/-- R121: FP32 less-than compare. -/
def laneFcmpLtF32 (x : LaneIn) : LaneOut := fcmp .lt x
/-- R121: FP32 less-or-equal compare. -/
def laneFcmpLeF32 (x : LaneIn) : LaneOut := fcmp .le x
/-- R121: FP32 unordered test. -/
def laneFcmpUnF32 (x : LaneIn) : LaneOut := fcmp .un x
/-- R121: FP32 ordered test. -/
def laneFcmpOrdF32 (x : LaneIn) : LaneOut := fcmp .ord x

/-! ### Conversions (R64 to R66, R122) -/

/-- R122: Widens FP16 to FP32 exactly. -/
def laneFcvtF32F16 (x : LaneIn) : LaneOut :=
  let (v, fl) := convert fp32 .rne (fp16.decode (half x.b32 0))
  { v := BitVec.ofNat 128 v, flags := fl }
/-- R122: Widens BF16 to FP32 exactly. -/
def laneFcvtF32Bf16 (x : LaneIn) : LaneOut :=
  let (v, fl) := convert fp32 .rne (bf16.decode (half x.b32 0))
  { v := BitVec.ofNat 128 v, flags := fl }

/-- Element 0 from a, element 1 from b. -/
def opCvt2 (g : FloatFmt) (x : LaneIn) : LaneOut :=
  let (v0, f0) := convert g x.mode (fp32.decode x.a32.toNat)
  let (v1, f1) := convert g x.mode (fp32.decode x.b32.toNat)
  { v := BitVec.ofNat 128 (v0 + v1 * 2 ^ 16), flags := f0 ||| f1 }

/-- R122: Narrows two FP32 values into a paired FP16 register. -/
def laneFcvtH2F32 (x : LaneIn) : LaneOut := opCvt2 fp16 x
/-- R122: Narrows two FP32 values into a paired BF16 register. -/
def laneFcvtBh2F32 (x : LaneIn) : LaneOut := opCvt2 bf16 x

/-- R122: Decodes a binary8 byte to FP32 under a format word. -/
def laneFcvtF32Q8 (x : LaneIn) : LaneOut :=
  match vecFmt? x.b32 with
  | none => { v := 0 }
  | some g => { v := BitVec.ofNat 128 (convert fp32 .rne (g.decode (byteOf x.a32 0))).1 }
/-- R122: Encodes FP32 to binary8 under a format word. -/
def laneFcvtQ8F32 (x : LaneIn) : LaneOut :=
  match vecFmt? x.b32 with
  | none => { v := 0 }
  | some g =>
    let (v, fl) := convert g x.mode (fp32.decode x.a32.toNat)
    { v := BitVec.ofNat 128 v, flags := fl }

/-- R66: FP32 to an integer of n bits. -/
def opCvti (n : Nat) (lo hi : Int) (x : LaneIn) : LaneOut :=
  let (v, fl) := toInteger x.mode lo hi (fp32.decode x.b32.toNat)
  { v := (BitVec.ofInt n v).setWidth 128, flags := fl }

/-- R122: FP32 to signed 32-bit integer with saturation. -/
def laneFcvtiS32F32 (x : LaneIn) : LaneOut := opCvti 32 (-(2 ^ 31)) (2 ^ 31 - 1) x
/-- R122: FP32 to unsigned 32-bit integer with saturation. -/
def laneFcvtiN32F32 (x : LaneIn) : LaneOut := opCvti 32 0 (2 ^ 32 - 1) x
/-- R122: FP32 to signed 64-bit integer pair. -/
def laneFcvtiS64F32 (x : LaneIn) : LaneOut := opCvti 64 (-(2 ^ 63)) (2 ^ 63 - 1) x
/-- R122: FP32 to unsigned 64-bit integer pair. -/
def laneFcvtiN64F32 (x : LaneIn) : LaneOut := opCvti 64 0 (2 ^ 64 - 1) x

/-- R66: an integer to FP32. -/
def opCvtf (n : Int) (x : LaneIn) : LaneOut :=
  let (v, fl) := convert fp32 x.mode (.ofInt n)
  { v := BitVec.ofNat 128 v, flags := fl }

/-- R122: Signed 32-bit integer to FP32. -/
def laneFcvtfF32S32 (x : LaneIn) : LaneOut := opCvtf x.b32.toInt x
/-- R122: Unsigned 32-bit integer to FP32. -/
def laneFcvtfF32N32 (x : LaneIn) : LaneOut := opCvtf x.b32.toNat x
/-- R122: Signed 64-bit integer pair to FP32. -/
def laneFcvtfF32S64 (x : LaneIn) : LaneOut := opCvtf x.b64.toInt x
/-- R122: Unsigned 64-bit integer pair to FP32. -/
def laneFcvtfF32N64 (x : LaneIn) : LaneOut := opCvtf x.b64.toNat x

/-! ### Block quantisation (R123 to R126) -/

/-- The four FP32 elements of a quad. -/
def quadElems (v : W128) : List FVal := (List.range 4).map fun i => fp32.decode (bitsNat v (32 * i + 31) (32 * i))

/-- R125: the exponent byte of a block of finite elements. -/
def blockExp (g : FloatFmt) (xs : List FVal) : Nat :=
  match maxLog xs with
  | none => 127
  | some k =>
    let (m, e) := g.magOf g.maxCode
    (max 0 (min (k - ilog2 m e + 127) 254)).toNat

/-- R125: one element quantised. -/
def quantElem (g : FloatFmt) (mode : Mode) (e : Nat) (x : FVal) : Nat × Flags :=
  match x.scale (127 - (e : Int)) with
  | .fin neg m ex =>
    if neg && g.signBit.isNone then
      let r := roundMag g mode false m ex
      if r.code ≠ 0 then (0xFF, fInvalid) else (0, r.flags)
    else
      let r := roundMag g mode neg m ex
      if r.overflow then (g.place neg g.maxCode, fOverflow ||| fInexact) else (g.place neg r.code, r.flags)
  | y => convert g mode y

/-- R125: what a participant of a block receives: its four bytes in register D and the scale in D + 1. -/
def quantLane (g : FloatFmt) (mode : Mode) (e : Nat) (quad : W128) : LaneOut :=
  let rs := (quadElems quad).map (quantElem g mode e)
  let bytes := (rs.mapIdx fun i r => r.1 * 2 ^ (8 * i)).sum
  { v := BitVec.ofNat 128 (bytes + e * 2 ^ 32), flags := rs.foldl (fun acc r => acc ||| r.2) 0 }

/-- R126: `fdqnt` in one lane. -/
def laneFdqntF32Q8 (x : LaneIn) : LaneOut :=
  match vecFmt? x.b32 with
  | none => { v := 0 }
  | some g =>
    let s := bitsNat x.a 39 32
    let one (j : Nat) : Nat × Flags :=
      match e8 s with
      | none => (fp32.nanBits, 0)
      | some e => convert fp32 x.mode ((g.decode (bitsNat x.a (8 * j + 7) (8 * j))).scale e)
    let rs := (List.range 4).map one
    { v := BitVec.ofNat 128 (rs.mapIdx fun i r => r.1 * 2 ^ (32 * i)).sum,
      flags := rs.foldl (fun acc r => acc ||| r.2) 0 }

/-! ### Special functions (R127)

The exact value is approximated as a dyadic number with an error far below the bounds of the table; the result is the
free value where it lies within the bound, and the nearest FP32 value otherwise (log 20). -/

/-- floor(2^300 × ln 2). -/
def ln2Fix : Nat := 1411965743695424507508857192728570223734551239724995589061361292466257174357546532574725854

/-- A Taylor series of exp on 0 ≤ r < 1, in fixed point with `n` fraction bits. -/
def expFix (n : Nat) (r : Nat) : Nat :=
  ((List.range 90).foldl (fun (acc : Nat × Nat) i =>
    let t := ((acc.1 * r) >>> n) / (i + 1)
    (t, acc.2 + t)) (2 ^ n, 2 ^ n)).2

/-- 2^x for ± m × 2^e, |x| < 2^8. -/
def exp2Val (neg : Bool) (m : Nat) (e : Int) : FVal :=
  let n := 300
  let mag : Int := ((cutAt m e (-300)).1 : Nat)
  let fixed : Int := if neg then -mag else mag
  let k := fixed / 2 ^ n
  let fr := (fixed % 2 ^ n).toNat
  .fin false (expFix n ((fr * ln2Fix) >>> n)) (k - 300)

/-- The first 100 bits of log2 of a number of [1, 2), given with 200 fraction bits. -/
def log2Bits (m : Nat) : Nat :=
  ((List.range 100).foldl (fun (acc : Nat × Nat) _ =>
    let s := (acc.1 * acc.1) >>> 200
    if s < 2 ^ 201 then (s, 2 * acc.2) else (s / 2, 2 * acc.2 + 1)) (m, 0)).2

/-- log2 of m × 2^e. -/
def log2Val (m : Nat) (e : Int) : FVal :=
  let k := ilog2 m e
  let f := log2Bits ((m <<< 200) >>> Nat.log2 m)
  .ofScaled (k * 2 ^ 100 + f) (-100)

/-- floor(2^400 × 2π). -/
def twoPiFix : Nat := 16224754493461942477724542702601789038322303200358530407182382075230461810747980997491046721853633630855133559454655152472

/-- Taylor series of sin (start 1) or cos (start 0) at r, in fixed point with 400 fraction bits. -/
def trigFix (start : Nat) (r : Nat) : Int :=
  let n := 400
  let first : Nat := if start = 1 then r else 2 ^ n
  ((List.range 60).foldl (fun (acc : Nat × Int) i =>
    let d := 2 * i + start
    let t := ((((acc.1 * r) >>> n) * r) >>> n) / ((d + 1) * (d + 2))
    (t, if i % 2 = 0 then acc.2 - t else acc.2 + t)) (first, (first : Int))).2

/-- ± m × 2^e, or a value just below it in magnitude: sin x and tanh x of a small x. -/
def justBelow (neg : Bool) (m : Nat) (e : Int) : FVal := .fin neg ((m <<< 100) - 1) (e - 100)

/-- sin or cos of ± m × 2^e radians. -/
def trigVal (start : Nat) (neg : Bool) (m : Nat) (e : Int) : FVal :=
  if start = 1 ∧ ilog2 m e < -100 then justBelow neg m e
  else
    let r := (cutAt m e (-400)).1 % twoPiFix
    let v := trigFix start r
    .ofScaled (if neg && start = 1 then -v else v) (-400)

/-- tanh of ± m × 2^e. -/
def tanhVal (neg : Bool) (m : Nat) (e : Int) : FVal :=
  let n := 300
  if 5 < ilog2 m e then .fin neg (2 ^ 60 - 1) (-60)
  else if ilog2 m e < -100 then justBelow neg m e
  else
    let z := (cutAt m (e + 1) (-300)).1
    let k := z / ln2Fix
    let ex := expFix n (z % ln2Fix) <<< k
    let q := ((ex - 2 ^ n) <<< n) / (ex + 2 ^ n)
    .fin neg q (-300)

/-- 1 / (m × 2^e) and 1 / sqrt(m × 2^e). -/
def rcpVal (neg : Bool) (m : Nat) (e : Int) : FVal := .fin neg (2 ^ 300 / m) (-300 - e)
def rsqVal (m : Nat) (e : Int) : FVal :=
  let (m, e) := if e % 2 = 0 then (m, e) else (2 * m, e - 1)
  .fin false (Nat.sqrt (2 ^ 600 / m)) (-300 - e / 2)

/-- The exponent of an ulp of FP32 at a value. -/
def ulpExp (y : FVal) : Int :=
  match y with
  | .fin _ m e => max (ilog2 m e - 23) (-149)
  | _ => -149

/-- |a − b| ≤ n × 2^e. -/
def within (a b : FVal) (n : Nat) (e : Int) : Bool :=
  match sumVal [a, b.neg] with
  | (.fin _ m x, _) => FVal.cmp (.fin false m x) (.fin false n e) != 1
  | (.zero _, _) => true
  | _ => false

/-- A result within n × 2^e of y: the free value if it is one, else y rounded to nearest. The flags are those of y
rounded under RNE, and inexact is set (R127). (DESIGN CHOICE, log 20.) -/
def approx (free : W32) (y : FVal) (n : Nat) (e : Int) : LaneOut :=
  let (v, fl) := convert fp32 .rne y
  let r := if within (fp32.decode free.toNat) y n e && !bitAt fl 2 then free else BitVec.ofNat 32 v
  { v := r.setWidth 128, flags := fl ||| fInexact }

/-- A result with no rounding, under R62 for range. -/
def exactly (y : FVal) : LaneOut :=
  let (v, fl) := convert fp32 .rne y
  { v := BitVec.ofNat 128 v, flags := fl }

/-- The canonical NaN, with invalid if `inv`. -/
def nanOut (inv : Bool) : LaneOut := { v := BitVec.ofNat 128 fp32.nanBits, flags := flagIf inv fInvalid }
/-- ±∞ with flags. -/
def infOut (neg : Bool) (fl : Flags) : LaneOut := { v := BitVec.ofNat 128 (fp32.place neg 0x7F800000), flags := fl }

/-- The exponent of a power of 2, none for other magnitudes. -/
def pow2? (m : Nat) (e : Int) : Option Int := if m = 2 ^ Nat.log2 m then some (ilog2 m e) else none

/-- `fsqrt`: correctly rounded under the mode; inexact is set for every finite result but a zero (R127). -/
def laneFsqrtF32 (x : LaneIn) : LaneOut :=
  match fp32.decode x.b32.toNat with
  | .nan s => nanOut s
  | .inf true => nanOut true
  | .inf false => infOut false 0
  | .zero n => { v := BitVec.ofNat 128 (fp32.place n 0) }
  | .fin true _ _ => nanOut true
  | .fin false m e =>
    let (m, e) := if e % 2 = 0 then (m, e) else (2 * m, e - 1)
    let m := m <<< 60
    let s := Nat.sqrt m
    let m2 := 2 * s + (if s * s = m then 0 else 1)
    let (v, fl) := convert fp32 x.mode (.fin false m2 ((e - 60) / 2 - 1))
    { v := BitVec.ofNat 128 v, flags := fl ||| fInexact }

/-- R127: FP32 reciprocal within 1 ulp. -/
def laneFrcpF32 (x : LaneIn) : LaneOut :=
  match fp32.decode x.b32.toNat with
  | .nan s => nanOut s
  | .inf n => { v := BitVec.ofNat 128 (fp32.place n 0) }
  | .zero n => infOut n fDivZero
  | .fin n m e =>
    match pow2? m e with
    | some k => exactly (.fin n 1 (-k))
    | none => let y := rcpVal n m e; approx (Config.frcp x.b32) y 1 (ulpExp y)

/-- R127: FP32 reciprocal square root. -/
def laneFrsqF32 (x : LaneIn) : LaneOut :=
  match fp32.decode x.b32.toNat with
  | .nan s => nanOut s
  | .inf true => nanOut true
  | .inf false => { v := 0 }
  | .zero n => infOut n fDivZero
  | .fin true _ _ => nanOut true
  | .fin false m e => let y := rsqVal m e; approx (Config.frsq x.b32) y 2 (ulpExp y)

/-- R127: FP32 power of 2. -/
def laneFex2F32 (x : LaneIn) : LaneOut :=
  match fp32.decode x.b32.toNat with
  | .nan s => nanOut s
  | .inf true => { v := 0 }
  | .inf false => infOut false 0
  | .zero _ => { v := 0x3F800000 }
  | .fin n m e =>
    if 8 ≤ ilog2 m e then exactly (.fin false 1 (if n then -300 else 300))
    else
      let (k, frac) := roundToInt .rtz n m e
      if !frac then exactly (.fin false 1 k)
      else let y := exp2Val n m e; approx (Config.fex2 x.b32) y 2 (ulpExp y)

/-- R127: FP32 base-2 logarithm. -/
def laneFlg2F32 (x : LaneIn) : LaneOut :=
  match fp32.decode x.b32.toNat with
  | .nan s => nanOut s
  | .inf true => nanOut true
  | .inf false => infOut false 0
  | .zero _ => infOut true fDivZero
  | .fin true _ _ => nanOut true
  | .fin false m e =>
    match pow2? m e with
    | some k => exactly (.ofInt k)
    | none =>
      let y := log2Val m e
      if ilog2 m e = -1 ∨ ilog2 m e = 0 then approx (Config.flg2 x.b32) y 1 (-22)
      else approx (Config.flg2 x.b32) y 2 (ulpExp y)

/-- R127: FP32 sine in radians. -/
def laneFsinF32 (x : LaneIn) : LaneOut :=
  match fp32.decode x.b32.toNat with
  | .nan s => nanOut s
  | .inf _ => nanOut true
  | .zero n => { v := BitVec.ofNat 128 (fp32.place n 0) }
  | .fin n m e => approx (Config.fsin x.b32) (trigVal 1 n m e) 1 (-21)

/-- R127: FP32 cosine in radians. -/
def laneFcosF32 (x : LaneIn) : LaneOut :=
  match fp32.decode x.b32.toNat with
  | .nan s => nanOut s
  | .inf _ => nanOut true
  | .zero _ => { v := 0x3F800000 }
  | .fin n m e => approx (Config.fcos x.b32) (trigVal 0 n m e) 1 (-21)

/-- R127: FP32 hyperbolic tangent. -/
def laneFtnhF32 (x : LaneIn) : LaneOut :=
  match fp32.decode x.b32.toNat with
  | .nan s => nanOut s
  | .inf n => { v := BitVec.ofNat 128 (fp32.place n 0x3F800000) }
  | .zero n => { v := BitVec.ofNat 128 (fp32.place n 0) }
  | .fin n m e =>
    let y := tanhVal n m e
    -- 2 ulp or 2^-22, whichever is larger
    if ulpExp y + 1 < -22 then approx (Config.ftnh x.b32) y 1 (-22) else approx (Config.ftnh x.b32) y 2 (ulpExp y)

/-! ### The activation table (R131) -/

/-- The segment of an FP32 pattern. -/
def tabSegment (b : W32) : Nat :=
  let t := max 0 (min ((bitsNat b 30 23 : Int) - 120) 15)
  (bitsNat b 31 31) * 128 + t.toNat * 8 + bitsNat b 22 20

/-- R131: the quadratic, formed exactly and rounded once; at ±∞ it is c0, a NaN among its values made canonical (R53).
(DEDUCED, log 99.) -/
def tabEval (mode : Mode) (c0 c1 c2 b : W32) : LaneOut :=
  match fp32.decode b.toNat with
  | .nan s => nanOut s
  | .inf _ =>
    let (r, fl) := convert fp32 .rne (fp32.decode c0.toNat)
    { v := BitVec.ofNat 128 r, flags := fl }
  | x =>
    let (sq, _) := x.mul x
    let v (c : W32) := fp32.decode c.toNat
    let (r, fl) := fusedSum fp32 mode [(v c2, sq), (v c1, x)] [v c0]
    { v := BitVec.ofNat 128 r, flags := fl }

end Sys2Proof.Machine
end

