-- ==== Sys2Proof/Machine/Tab.lean ====
section
/-! DEFINITION. Finite tables: lists of key and value with keys rising, the one container the state uses for sparse
data. A table with a default value lists no entry equal to it, so that equal contents are equal lists. -/

namespace Sys2Proof.Machine

/-- A table from numbers to values. -/
abbrev Tab (α : Type) := List (Nat × α)

variable {α β : Type}

/-- The value listed at `k`. -/
def Tab.find (m : Tab α) (k : Nat) : Option α :=
  match m with
  | [] => none
  | (j, v) :: rest => if j = k then some v else Tab.find rest k

/-- The value at `k`, `d` where none is listed. -/
def Tab.get (d : α) (m : Tab α) (k : Nat) : α := (Tab.find m k).getD d

/-- Without the entry at `k`. -/
def Tab.erase (m : Tab α) (k : Nat) : Tab α :=
  match m with
  | [] => []
  | (j, v) :: rest => if j = k then Tab.erase rest k else (j, v) :: Tab.erase rest k

/-- With `v` at `k`, in its place among rising keys; `k` is not listed. -/
def Tab.ins (m : Tab α) (k : Nat) (v : α) : Tab α :=
  match m with
  | [] => [(k, v)]
  | (j, w) :: rest => if k < j then (k, v) :: (j, w) :: rest else (j, w) :: Tab.ins rest k v

/-- With `v` at `k`. -/
def Tab.put (m : Tab α) (k : Nat) (v : α) : Tab α := Tab.ins (Tab.erase m k) k v

/-- With `v` at `k`; a default value is not listed. -/
def Tab.set [DecidableEq α] (d : α) (m : Tab α) (k : Nat) (v : α) : Tab α :=
  if v = d then Tab.erase m k else Tab.put m k v

/-- Every value changed by a function of key and value. -/
def Tab.map (g : Nat → α → β) (m : Tab α) : Tab β :=
  match m with
  | [] => []
  | (j, v) :: rest => (j, g j v) :: Tab.map g rest

/-- The value at `k` changed, if one is listed. -/
def Tab.modify (m : Tab α) (k : Nat) (g : α → α) : Tab α := Tab.map (fun j v => if j = k then g v else v) m

/-- The keys listed. -/
def Tab.keys (m : Tab α) : List Nat := List.map Prod.fst m

/-- The least number at or above `n` that is not a key, for tables whose keys are ids. -/
def Tab.fresh (m : Tab α) : Nat := m.foldl (fun acc p => max acc (p.1 + 1)) 0

/-- Keys strictly rise. -/
def Tab.sorted (m : Tab α) : Bool :=
  match m with
  | [] => true
  | (j, _) :: rest => rest.all (fun p => decide (j < p.1)) && Tab.sorted rest

/-- The canonical form: keys strictly rise and no entry is the default. -/
def Tab.wf [DecidableEq α] (d : α) (m : Tab α) : Bool := Tab.sorted m && m.all fun p => decide (p.2 ≠ d)

end Sys2Proof.Machine
end

