-- ==== Sys2Proof/Syntax.lean ====
section
/-! DEFINITION. The instructions of the Corwiris CW-940: one constructor per row of the opcode table. A row with a
word carries its decoded fields (R8 to R16); a row without a word is a step of the device, and its operands name the
unit it acts on or carry what comes from outside. -/

namespace Sys2Proof

/-- The fields of a prefix word (R15). -/
structure Pfx where
  /-- [2] operand B is a scalar register, broadcast. -/
  bs : Bool
  /-- [3] inactive lanes are written with 0. -/
  z : Bool
  /-- [10:4] the fourth operand F. -/
  f : BitVec 7
  /-- [13:11] the rounding mode, 0 for `%rm`. -/
  rnd : BitVec 3
  /-- [14] a lane is active where the predicate is 0. -/
  neg : Bool
  /-- [20:15] the mask predicate. -/
  pred : BitVec 6
  deriving DecidableEq, Repr

/-- What stands around the operand fields of an instruction: C, T, its prefix and its literal words (R8, R13). -/
structure Ctl where
  chain : Bool
  settle : Bool
  pfx : Option Pfx
  /-- the literal word of field A, of field B and of the prefix's F. -/
  la : Option (BitVec 32)
  lb : Option (BitVec 32)
  lf : Option (BitVec 32)
  deriving DecidableEq, Repr

/-- An instruction of format A, I, M or E: its fields D [20:14], A [13:7] and B, immediate, offset, qualifier or
selector [6:0] (R9). -/
structure Args where
  ctl : Ctl
  d : BitVec 7
  a : BitVec 7
  b : BitVec 7
  deriving DecidableEq, Repr

/-- An instruction of format J (R11). -/
structure ArgsJ where
  chain : Bool
  settle : Bool
  pred : BitVec 6
  neg : Bool
  off : BitVec 14
  deriving DecidableEq, Repr

/-- One constructor per row of the opcode table. -/
inductive Instr where
  /-- R17. The all-zero word issues on no pipe and changes nothing. -/
  | nop
  /-- R79. Scalar add modulo 2^64, once per home warp with an active thread. -/
  | sadd (x : Args)
  /-- R79. Scalar subtract modulo 2^64. -/
  | ssub (x : Args)
  /-- R79. Scalar low multiply modulo 2^64. -/
  | smul (x : Args)
  /-- R79. High 64 bits of the signed scalar product. -/
  | smulhS64 (x : Args)
  /-- R79. High 64 bits of the unsigned scalar product. -/
  | smulhN64 (x : Args)
  /-- R79. Signed scalar division truncated toward zero with defined zero and overflow cases. -/
  | sdivS64 (x : Args)
  /-- R79. Unsigned scalar division; division by zero gives all ones. -/
  | sdivN64 (x : Args)
  /-- R79. Signed scalar remainder with the sign of a. -/
  | sremS64 (x : Args)
  /-- R79. Unsigned scalar remainder; b = 0 gives a. -/
  | sremN64 (x : Args)
  /-- R79. Scalar bitwise and. -/
  | sand (x : Args)
  /-- R79. Scalar bitwise or. -/
  | sor (x : Args)
  /-- R79. Scalar bitwise exclusive or. -/
  | sxor (x : Args)
  /-- R79. Scalar shift left by b[5:0]. -/
  | sshl (x : Args)
  /-- R79. Scalar logical shift right by b[5:0]. -/
  | sshr (x : Args)
  /-- R79. Scalar arithmetic shift right by b[5:0]. -/
  | ssra (x : Args)
  /-- R79. Signed scalar minimum. -/
  | sminS64 (x : Args)
  /-- R79. Unsigned scalar minimum. -/
  | sminN64 (x : Args)
  /-- R79. Signed scalar maximum. -/
  | smaxS64 (x : Args)
  /-- R79. Unsigned scalar maximum. -/
  | smaxN64 (x : Args)
  /-- R79. Scalar move of b or a literal. -/
  | smov (x : Args)
  /-- R79. Scalar select of a or b by the predicate named in F. -/
  | ssel (x : Args)
  /-- R50. Reads a special register, zero-extended, into a vector register. -/
  | rdsr (x : Args)
  /-- R50. Writes a special register from a vector register for later instructions. -/
  | wrsr (x : Args)
  /-- R82. Reads an 8-byte word of the region's argument block into a scalar register. -/
  | sldk (x : Args)
  /-- R79. Moves the lowest active lane's vector value into a scalar register. -/
  | smovV (x : Args)
  /-- R79. Scalar add of a sign-extended 7-bit immediate. -/
  | saddI (x : Args)
  /-- R79. Scalar and with an immediate. -/
  | sandI (x : Args)
  /-- R79. Scalar or with an immediate. -/
  | sorI (x : Args)
  /-- R79. Scalar exclusive or with an immediate. -/
  | sxorI (x : Args)
  /-- R79. Scalar shift left by an immediate count. -/
  | sshlI (x : Args)
  /-- R79. Scalar logical shift right by an immediate count. -/
  | sshrI (x : Args)
  /-- R79. Scalar arithmetic shift right by an immediate count. -/
  | ssraI (x : Args)
  /-- R79. Loads a sign-extended immediate into a scalar register. -/
  | sli (x : Args)
  /-- R80. Scalar equality compare writing a predicate of each active thread. -/
  | scmpEq (x : Args)
  /-- R80. Scalar inequality compare. -/
  | scmpNe (x : Args)
  /-- R80. Signed scalar less-than compare. -/
  | scmpLtS64 (x : Args)
  /-- R80. Signed scalar less-or-equal compare. -/
  | scmpLeS64 (x : Args)
  /-- R80. Unsigned scalar less-than compare. -/
  | scmpLtN64 (x : Args)
  /-- R80. Unsigned scalar less-or-equal compare. -/
  | scmpLeN64 (x : Args)
  /-- R80. Scalar equality compare with an immediate. -/
  | scmpEqI (x : Args)
  /-- R80. Scalar inequality compare with an immediate. -/
  | scmpNeI (x : Args)
  /-- R80. Signed scalar less-than compare with an immediate. -/
  | scmpLtS64I (x : Args)
  /-- R80. Unsigned scalar less-than compare with an immediate. -/
  | scmpLtN64I (x : Args)
  /-- R81. Scalar load of one byte, zero-extended. -/
  | sldN8 (x : Args)
  /-- R81. Scalar load of one byte, sign-extended. -/
  | sldS8 (x : Args)
  /-- R81. Scalar load of 2 bytes, zero-extended. -/
  | sldN16 (x : Args)
  /-- R81. Scalar load of 2 bytes, sign-extended. -/
  | sldS16 (x : Args)
  /-- R81. Scalar load of 4 bytes, zero-extended. -/
  | sldN32 (x : Args)
  /-- R81. Scalar load of 4 bytes, sign-extended. -/
  | sldS32 (x : Args)
  /-- R81. Scalar load of 8 bytes. -/
  | sldB64 (x : Args)
  /-- R81. Scalar store of the low byte as a core-weak store. -/
  | sstN8 (x : Args)
  /-- R81. Scalar store of the low 2 bytes. -/
  | sstN16 (x : Args)
  /-- R81. Scalar store of the low 4 bytes. -/
  | sstN32 (x : Args)
  /-- R81. Scalar store of 8 bytes. -/
  | sstB64 (x : Args)
  /-- R85. Relative branch taken per thread where the predicate XOR NEG is 1. -/
  | br (x : ArgsJ)
  /-- R85. Branch to the absolute packet index in a scalar register. -/
  | bra (x : Args)
  /-- R85. Per-lane branch to the packet index in a vector register. -/
  | brx (x : Args)
  /-- R85. Writes the link and branches to an absolute target. -/
  | call (x : Args)
  /-- R85. Branches per lane to the link in a vector register. -/
  | ret (x : Args)
  /-- R88. Pushes a meeting entry, sets the meeting register and the thread's mask bit. -/
  | meet (x : Args)
  /-- R90. Sets the issuing thread's own bit in a mask register. -/
  | jn (x : Args)
  /-- R90. Clears the issuing thread's own bit in a mask register. -/
  | lv (x : Args)
  /-- R94. Settles and ends each active thread, clearing its mask bits. -/
  | exit (x : Args)
  /-- R95. Ends each active thread and records a successor kernel for the workgroup. -/
  | tail (x : Args)
  /-- R96. Releases at device scope and arms an idle region control block at its home. -/
  | spawn (x : Args)
  /-- R93. Meeting operation that gives 1 to the lowest active waiting thread. -/
  | elect (x : Args)
  /-- R97. Settles and makes active threads ineligible until other groups have issued. -/
  | yield (x : Args)
  /-- R101. Vector 32-bit add modulo 2^32. -/
  | vaddS32 (x : Args)
  /-- R101. Vector 64-bit add on pairs. -/
  | vaddS64 (x : Args)
  /-- R101. Vector signed saturating add. -/
  | vaddSatS32 (x : Args)
  /-- R101. Vector unsigned saturating add. -/
  | vaddSatN32 (x : Args)
  /-- R101. Vector 32-bit subtract. -/
  | vsubS32 (x : Args)
  /-- R101. Vector 64-bit subtract. -/
  | vsubS64 (x : Args)
  /-- R101. Vector signed saturating subtract. -/
  | vsubSatS32 (x : Args)
  /-- R101. Vector unsigned saturating subtract. -/
  | vsubSatN32 (x : Args)
  /-- R101. Vector 32-bit low multiply. -/
  | vmulS32 (x : Args)
  /-- R101. Vector 64-bit low multiply. -/
  | vmulS64 (x : Args)
  /-- R101. High 32 bits of the signed vector product. -/
  | vmulhS32 (x : Args)
  /-- R101. High 32 bits of the unsigned vector product. -/
  | vmulhN32 (x : Args)
  /-- R101. Vector 32-bit multiply-add with the F addend. -/
  | vmadS32 (x : Args)
  /-- R101. Vector 64-bit multiply-add with the F addend. -/
  | vmadS64 (x : Args)
  /-- R101. Vector add with carry-in and carry-out in the F predicate. -/
  | vadcN32 (x : Args)
  /-- R101. Vector subtract with borrow in the F predicate. -/
  | vsbcN32 (x : Args)
  /-- R101. Vector signed 32-bit division with defined special cases. -/
  | vdivS32 (x : Args)
  /-- R101. Vector unsigned 32-bit division. -/
  | vdivN32 (x : Args)
  /-- R101. Vector signed 64-bit division. -/
  | vdivS64 (x : Args)
  /-- R101. Vector unsigned 64-bit division. -/
  | vdivN64 (x : Args)
  /-- R101. Vector signed 32-bit remainder. -/
  | vremS32 (x : Args)
  /-- R101. Vector unsigned 32-bit remainder. -/
  | vremN32 (x : Args)
  /-- R101. Vector signed 64-bit remainder. -/
  | vremS64 (x : Args)
  /-- R101. Vector unsigned 64-bit remainder. -/
  | vremN64 (x : Args)
  /-- R101. Vector 32-bit absolute value. -/
  | vabsS32 (x : Args)
  /-- R101. Vector 64-bit absolute value. -/
  | vabsS64 (x : Args)
  /-- R101. Vector 32-bit negation. -/
  | vnegS32 (x : Args)
  /-- R101. Vector 64-bit negation. -/
  | vnegS64 (x : Args)
  /-- R101. Vector signed 32-bit minimum. -/
  | vminS32 (x : Args)
  /-- R101. Vector unsigned 32-bit minimum. -/
  | vminN32 (x : Args)
  /-- R101. Vector signed 32-bit maximum. -/
  | vmaxS32 (x : Args)
  /-- R101. Vector unsigned 32-bit maximum. -/
  | vmaxN32 (x : Args)
  /-- R101. Vector signed 64-bit minimum. -/
  | vminS64 (x : Args)
  /-- R101. Vector unsigned 64-bit minimum. -/
  | vminN64 (x : Args)
  /-- R101. Vector signed 64-bit maximum. -/
  | vmaxS64 (x : Args)
  /-- R101. Vector unsigned 64-bit maximum. -/
  | vmaxN64 (x : Args)
  /-- R103. Vector 32-bit and. -/
  | vandB32 (x : Args)
  /-- R103. Vector 32-bit or. -/
  | vorB32 (x : Args)
  /-- R103. Vector 32-bit exclusive or. -/
  | vxorB32 (x : Args)
  /-- R103. Vector 32-bit a and not b. -/
  | vandnB32 (x : Args)
  /-- R103. Vector 64-bit and. -/
  | vandB64 (x : Args)
  /-- R103. Vector 64-bit or. -/
  | vorB64 (x : Args)
  /-- R103. Vector 64-bit exclusive or. -/
  | vxorB64 (x : Args)
  /-- R103. Vector 64-bit a and not b. -/
  | vandnB64 (x : Args)
  /-- R103. Vector 32-bit shift left. -/
  | vshlB32 (x : Args)
  /-- R103. Vector 32-bit logical shift right. -/
  | vshrB32 (x : Args)
  /-- R103. Vector 32-bit arithmetic shift right. -/
  | vsraB32 (x : Args)
  /-- R103. Vector 32-bit rotate left. -/
  | vrotB32 (x : Args)
  /-- R103. Vector 64-bit shift left. -/
  | vshlB64 (x : Args)
  /-- R103. Vector 64-bit logical shift right. -/
  | vshrB64 (x : Args)
  /-- R103. Vector 64-bit arithmetic shift right. -/
  | vsraB64 (x : Args)
  /-- R103. Vector 64-bit rotate left. -/
  | vrotB64 (x : Args)
  /-- R103. Counts leading zeros of a 32-bit value. -/
  | vclzB32 (x : Args)
  /-- R103. Counts leading zeros of a 64-bit value. -/
  | vclzB64 (x : Args)
  /-- R103. Counts one bits of a 32-bit value. -/
  | vpopcB32 (x : Args)
  /-- R103. Counts one bits of a 64-bit value. -/
  | vpopcB64 (x : Args)
  /-- R103. Reverses the bits of a 32-bit value. -/
  | vbrevB32 (x : Args)
  /-- R103. Reverses the bits of a 64-bit value. -/
  | vbrevB64 (x : Args)
  /-- R104. Extracts a bit field, sign-extended. -/
  | vbfeS32 (x : Args)
  /-- R104. Extracts a bit field, zero-extended. -/
  | vbfeN32 (x : Args)
  /-- R104. Inserts a bit field of a into D. -/
  | vbfiB32 (x : Args)
  /-- R103. Adds a sign-extended 32-bit offset to a 64-bit address pair. -/
  | vleaB64 (x : Args)
  /-- R103. Vector 32-bit move. -/
  | vmovB32 (x : Args)
  /-- R103. Vector 64-bit move. -/
  | vmovB64 (x : Args)
  /-- R101. Vector 32-bit add of a sign-extended immediate. -/
  | vaddS32I (x : Args)
  /-- R103. Vector and with an immediate. -/
  | vandB32I (x : Args)
  /-- R103. Vector or with an immediate. -/
  | vorB32I (x : Args)
  /-- R103. Vector exclusive or with an immediate. -/
  | vxorB32I (x : Args)
  /-- R103. Vector shift left by an immediate count. -/
  | vshlB32I (x : Args)
  /-- R103. Vector logical shift right by an immediate count. -/
  | vshrB32I (x : Args)
  /-- R103. Vector arithmetic shift right by an immediate count. -/
  | vsraB32I (x : Args)
  /-- R103. Vector rotate left by an immediate count. -/
  | vrotB32I (x : Args)
  /-- R103. Loads a sign-extended immediate into a vector register. -/
  | vliB32 (x : Args)
  /-- R106. Per-lane 32-bit select by the F predicate. -/
  | vselB32 (x : Args)
  /-- R106. Per-lane 64-bit select by the F predicate. -/
  | vselB64 (x : Args)
  /-- R105. Sign-extends a byte to 32 bits. -/
  | vcvtS32S8 (x : Args)
  /-- R105. Sign-extends a half-word to 32 bits. -/
  | vcvtS32S16 (x : Args)
  /-- R105. Zero-extends a byte to 32 bits. -/
  | vcvtN32N8 (x : Args)
  /-- R105. Zero-extends a half-word to 32 bits. -/
  | vcvtN32N16 (x : Args)
  /-- R105. Sign-extends 32 bits to a 64-bit pair. -/
  | vcvtS64S32 (x : Args)
  /-- R105. Zero-extends 32 bits to a 64-bit pair. -/
  | vcvtN64N32 (x : Args)
  /-- R105. Clamps a signed value to 8 bits. -/
  | vcvtS8S32 (x : Args)
  /-- R105. Clamps a signed value to 16 bits. -/
  | vcvtS16S32 (x : Args)
  /-- R105. Clamps an unsigned value to 255. -/
  | vcvtN8N32 (x : Args)
  /-- R105. Clamps an unsigned value to 65,535. -/
  | vcvtN16N32 (x : Args)
  /-- R105. Clamps a signed 64-bit value to 32 bits. -/
  | vcvtS32S64 (x : Args)
  /-- R105. Clamps an unsigned 64-bit value to 32 bits. -/
  | vcvtN32N64 (x : Args)
  /-- R105. Clamps an unsigned value to the signed 32-bit maximum. -/
  | vcvtS32N32 (x : Args)
  /-- R105. Clamps a signed value at 0. -/
  | vcvtN32S32 (x : Args)
  /-- R107. Vector 32-bit equality compare into a predicate. -/
  | vcmpEqB32 (x : Args)
  /-- R107. Vector 32-bit inequality compare. -/
  | vcmpNeB32 (x : Args)
  /-- R107. Vector signed 32-bit less-than. -/
  | vcmpLtS32 (x : Args)
  /-- R107. Vector signed 32-bit less-or-equal. -/
  | vcmpLeS32 (x : Args)
  /-- R107. Vector unsigned 32-bit less-than. -/
  | vcmpLtN32 (x : Args)
  /-- R107. Vector unsigned 32-bit less-or-equal. -/
  | vcmpLeN32 (x : Args)
  /-- R107. Vector 64-bit equality compare. -/
  | vcmpEqB64 (x : Args)
  /-- R107. Vector 64-bit inequality compare. -/
  | vcmpNeB64 (x : Args)
  /-- R107. Vector signed 64-bit less-than. -/
  | vcmpLtS64 (x : Args)
  /-- R107. Vector signed 64-bit less-or-equal. -/
  | vcmpLeS64 (x : Args)
  /-- R107. Vector unsigned 64-bit less-than. -/
  | vcmpLtN64 (x : Args)
  /-- R107. Vector unsigned 64-bit less-or-equal. -/
  | vcmpLeN64 (x : Args)
  /-- R107. Vector equality compare with an immediate. -/
  | vcmpEqB32I (x : Args)
  /-- R107. Vector signed less-than with an immediate. -/
  | vcmpLtS32I (x : Args)
  /-- R107. Vector unsigned less-than with a sign-extended immediate. -/
  | vcmpLtN32I (x : Args)
  /-- R108. Combines two predicates by the truth table held in the opcode. -/
  | plop (t : BitVec 4) (x : Args)
  /-- R111. Shuffle from the participant of rank b after gathering the mask's threads. -/
  | xshfB32 (x : Args)
  /-- R111. Takes the value of the participant b ranks below. -/
  | xshuB32 (x : Args)
  /-- R111. Takes the value of the participant b ranks above. -/
  | xshdB32 (x : Args)
  /-- R111. Butterfly exchange with rank r XOR b. -/
  | xbflB32 (x : Args)
  /-- R111. OR of a predicate over the participants. -/
  | xvoteAny (x : Args)
  /-- R111. AND of a predicate over the participants. -/
  | xvoteAll (x : Args)
  /-- R111. Writes each participant's predicate into its bit of a mask register. -/
  | xvoteBal (x : Args)
  /-- R111. Home lane of the lowest participant with an equal 32-bit value. -/
  | xmatchB32 (x : Args)
  /-- R111. Broadcasts the value of the rank named by rank 0. -/
  | xbcastB32 (x : Args)
  /-- R111. 64-bit shuffle by rank. -/
  | xshfB64 (x : Args)
  /-- R111. 64-bit broadcast by rank. -/
  | xbcastB64 (x : Args)
  /-- R111. Home lane of the lowest participant with an equal 64-bit value. -/
  | xmatchB64 (x : Args)
  /-- R111. Wrapping 32-bit sum over the participants. -/
  | xredAddS32 (x : Args)
  /-- R111. Signed minimum over the participants. -/
  | xredMinS32 (x : Args)
  /-- R111. Signed maximum over the participants. -/
  | xredMaxS32 (x : Args)
  /-- R111. Unsigned minimum over the participants. -/
  | xredMinN32 (x : Args)
  /-- R111. Unsigned maximum over the participants. -/
  | xredMaxN32 (x : Args)
  /-- R111. Bitwise and over the participants. -/
  | xredAndB32 (x : Args)
  /-- R111. Bitwise or over the participants. -/
  | xredOrB32 (x : Args)
  /-- R111. Bitwise exclusive or over the participants. -/
  | xredXorB32 (x : Args)
  /-- R111. Wrapping 64-bit sum over the participants. -/
  | xredAddS64 (x : Args)
  /-- R111. Inclusive 32-bit prefix sum in rank order. -/
  | xscanAddS32 (x : Args)
  /-- R111. Exclusive 32-bit prefix sum in rank order. -/
  | xscanAddxS32 (x : Args)
  /-- R111. Inclusive signed prefix minimum. -/
  | xscanMinS32 (x : Args)
  /-- R111. Inclusive signed prefix maximum. -/
  | xscanMaxS32 (x : Args)
  /-- R111. Inclusive prefix or. -/
  | xscanOrB32 (x : Args)
  /-- R111. Exclusive 64-bit prefix sum. -/
  | xscanAddxS64 (x : Args)
  /-- R117. FP32 fused multiply-add rounded once. -/
  | ffmaF32 (x : Args)
  /-- R117. FP32 add. -/
  | faddF32 (x : Args)
  /-- R117. FP32 subtract. -/
  | fsubF32 (x : Args)
  /-- R117. FP32 multiply. -/
  | fmulF32 (x : Args)
  /-- R118. FP32 minimum ignoring a single NaN. -/
  | fminF32 (x : Args)
  /-- R118. FP32 maximum ignoring a single NaN. -/
  | fmaxF32 (x : Args)
  /-- R118. FP32 minimum propagating NaN. -/
  | fminnF32 (x : Args)
  /-- R118. FP32 maximum propagating NaN. -/
  | fmaxnF32 (x : Args)
  /-- R119. Clears the FP32 sign bit. -/
  | fabsF32 (x : Args)
  /-- R119. Inverts the FP32 sign bit. -/
  | fnegF32 (x : Args)
  /-- R119. Magnitude of a with the sign of b. -/
  | fcpsF32 (x : Args)
  /-- R119. Writes the FP32 class mask. -/
  | fclassF32 (x : Args)
  /-- R117. Rounds FP32 to an integral value under the mode. -/
  | frndF32 (x : Args)
  /-- R117. Scales FP32 by a power of 2. -/
  | fsclF32 (x : Args)
  /-- R119. Exponent of an FP32 value as FP32. -/
  | fgetxF32 (x : Args)
  /-- R120. Two-element FP16 dot product with FP32 addend, rounded once. -/
  | fdot2F32H2 (x : Args)
  /-- R117. Paired FP16 fused multiply-add. -/
  | ffmaH2 (x : Args)
  /-- R117. Paired FP16 add. -/
  | faddH2 (x : Args)
  /-- R117. Paired FP16 subtract. -/
  | fsubH2 (x : Args)
  /-- R117. Paired FP16 multiply. -/
  | fmulH2 (x : Args)
  /-- R118. Paired FP16 minimum. -/
  | fminH2 (x : Args)
  /-- R118. Paired FP16 maximum. -/
  | fmaxH2 (x : Args)
  /-- R118. Paired FP16 NaN-propagating minimum. -/
  | fminnH2 (x : Args)
  /-- R118. Paired FP16 NaN-propagating maximum. -/
  | fmaxnH2 (x : Args)
  /-- R119. Paired FP16 absolute value. -/
  | fabsH2 (x : Args)
  /-- R119. Paired FP16 negation. -/
  | fnegH2 (x : Args)
  /-- R119. Paired FP16 copy sign. -/
  | fcpsH2 (x : Args)
  /-- R119. Paired FP16 class masks. -/
  | fclassH2 (x : Args)
  /-- R117. Paired FP16 round to integral. -/
  | frndH2 (x : Args)
  /-- R117. Paired FP16 scale by powers of 2. -/
  | fsclH2 (x : Args)
  /-- R119. Paired FP16 exponents. -/
  | fgetxH2 (x : Args)
  /-- R120. Two-element BF16 dot product with FP32 addend. -/
  | fdot2F32Bh2 (x : Args)
  /-- R117. Paired BF16 fused multiply-add. -/
  | ffmaBh2 (x : Args)
  /-- R117. Paired BF16 add. -/
  | faddBh2 (x : Args)
  /-- R117. Paired BF16 subtract. -/
  | fsubBh2 (x : Args)
  /-- R117. Paired BF16 multiply. -/
  | fmulBh2 (x : Args)
  /-- R118. Paired BF16 minimum. -/
  | fminBh2 (x : Args)
  /-- R118. Paired BF16 maximum. -/
  | fmaxBh2 (x : Args)
  /-- R118. Paired BF16 NaN-propagating minimum. -/
  | fminnBh2 (x : Args)
  /-- R118. Paired BF16 NaN-propagating maximum. -/
  | fmaxnBh2 (x : Args)
  /-- R119. Paired BF16 absolute value. -/
  | fabsBh2 (x : Args)
  /-- R119. Paired BF16 negation. -/
  | fnegBh2 (x : Args)
  /-- R119. Paired BF16 copy sign. -/
  | fcpsBh2 (x : Args)
  /-- R119. Paired BF16 class masks. -/
  | fclassBh2 (x : Args)
  /-- R117. Paired BF16 round to integral. -/
  | frndBh2 (x : Args)
  /-- R117. Paired BF16 scale by powers of 2. -/
  | fsclBh2 (x : Args)
  /-- R119. Paired BF16 exponents. -/
  | fgetxBh2 (x : Args)
  /-- R120. Four-element binary8 dot product accumulated into D. -/
  | fdot4F32Q8 (x : Args)
  /-- R121. FP32 equality compare into a predicate. -/
  | fcmpEqF32 (x : Args)
  /-- R121. FP32 inequality compare, true if unordered. -/
  | fcmpNeF32 (x : Args)
  /-- R121. FP32 less-than compare. -/
  | fcmpLtF32 (x : Args)
  /-- R121. FP32 less-or-equal compare. -/
  | fcmpLeF32 (x : Args)
  /-- R121. FP32 unordered test. -/
  | fcmpUnF32 (x : Args)
  /-- R121. FP32 ordered test. -/
  | fcmpOrdF32 (x : Args)
  /-- R122. Widens FP16 to FP32 exactly. -/
  | fcvtF32F16 (x : Args)
  /-- R122. Widens BF16 to FP32 exactly. -/
  | fcvtF32Bf16 (x : Args)
  /-- R122. Narrows two FP32 values into a paired FP16 register. -/
  | fcvtH2F32 (x : Args)
  /-- R122. Narrows two FP32 values into a paired BF16 register. -/
  | fcvtBh2F32 (x : Args)
  /-- R122. Decodes a binary8 byte to FP32 under a format word. -/
  | fcvtF32Q8 (x : Args)
  /-- R122. Encodes FP32 to binary8 under a format word. -/
  | fcvtQ8F32 (x : Args)
  /-- R122. FP32 to signed 32-bit integer with saturation. -/
  | fcvtiS32F32 (x : Args)
  /-- R122. FP32 to unsigned 32-bit integer with saturation. -/
  | fcvtiN32F32 (x : Args)
  /-- R122. Signed 32-bit integer to FP32. -/
  | fcvtfF32S32 (x : Args)
  /-- R122. Unsigned 32-bit integer to FP32. -/
  | fcvtfF32N32 (x : Args)
  /-- R122. FP32 to signed 64-bit integer pair. -/
  | fcvtiS64F32 (x : Args)
  /-- R122. FP32 to unsigned 64-bit integer pair. -/
  | fcvtiN64F32 (x : Args)
  /-- R122. Signed 64-bit integer pair to FP32. -/
  | fcvtfF32S64 (x : Args)
  /-- R122. Unsigned 64-bit integer pair to FP32. -/
  | fcvtfF32N64 (x : Args)
  /-- R125. Gathers an octet and quantises its 32 FP32 elements to binary8 under one scale. -/
  | fqntQ8F32 (x : Args)
  /-- R126. Dequantises four binary8 bytes under a scale to FP32. -/
  | fdqntF32Q8 (x : Args)
  /-- R127. Correctly rounded FP32 square root. -/
  | fsqrtF32 (x : Args)
  /-- R127. FP32 reciprocal within 1 ulp. -/
  | frcpF32 (x : Args)
  /-- R127. FP32 reciprocal square root. -/
  | frsqF32 (x : Args)
  /-- R127. FP32 power of 2. -/
  | fex2F32 (x : Args)
  /-- R127. FP32 base-2 logarithm. -/
  | flg2F32 (x : Args)
  /-- R127. FP32 sine in radians. -/
  | fsinF32 (x : Args)
  /-- R127. FP32 cosine in radians. -/
  | fcosF32 (x : Args)
  /-- R127. FP32 hyperbolic tangent. -/
  | ftnhF32 (x : Args)
  /-- R131. Evaluates the quadratic of the active table bank's segment chosen by x. -/
  | ftabF32 (x : Args)
  /-- R129. Loads 3,072 bytes of coefficients into the inactive table bank, claiming the banks if free. -/
  | ldtab (x : Args)
  /-- R130. Waits for loads and makes the last-filled table bank active. -/
  | swtab (x : Args)
  /-- R137. Vector load of one byte, zero-extended, relaxed at core scope. -/
  | ldN8 (x : Args)
  /-- R137. Vector load of one byte, sign-extended. -/
  | ldS8 (x : Args)
  /-- R137. Vector load of 2 bytes, zero-extended. -/
  | ldN16 (x : Args)
  /-- R137. Vector load of 2 bytes, sign-extended. -/
  | ldS16 (x : Args)
  /-- R137. Vector load of 4 bytes. -/
  | ldB32 (x : Args)
  /-- R137. Vector load of 8 bytes into a pair. -/
  | ldB64 (x : Args)
  /-- R137. Vector load of 16 bytes into a quad. -/
  | ldB128 (x : Args)
  /-- R137. Load of 4 bytes from a scalar base plus home lane times size. -/
  | ldB32S (x : Args)
  /-- R137. Load of 8 bytes from a scalar base. -/
  | ldB64S (x : Args)
  /-- R137. Load of 16 bytes from a scalar base. -/
  | ldB128S (x : Args)
  /-- R138. Qualified 4-byte load with scope, acquire and promotion. -/
  | ldB32Q (x : Args)
  /-- R138. Qualified 8-byte load with scope, acquire and promotion. -/
  | ldB64Q (x : Args)
  /-- R137. Vector store of one byte as a core-weak store. -/
  | stN8 (x : Args)
  /-- R137. Vector store of 2 bytes. -/
  | stN16 (x : Args)
  /-- R137. Vector store of 4 bytes. -/
  | stB32 (x : Args)
  /-- R137. Vector store of 8 bytes. -/
  | stB64 (x : Args)
  /-- R137. Vector store of 16 bytes. -/
  | stB128 (x : Args)
  /-- R137. Store of 4 bytes at a scalar base plus home lane times size. -/
  | stB32S (x : Args)
  /-- R137. Store of 8 bytes at a scalar base. -/
  | stB64S (x : Args)
  /-- R137. Store of 16 bytes at a scalar base. -/
  | stB128S (x : Args)
  /-- R138. Qualified 4-byte store with scope and release. -/
  | stB32Q (x : Args)
  /-- R138. Qualified 8-byte store with scope and release. -/
  | stB64Q (x : Args)
  /-- R140. Scratchpad load of one byte, zero-extended. -/
  | ldsN8 (x : Args)
  /-- R140. Scratchpad load of one byte, sign-extended. -/
  | ldsS8 (x : Args)
  /-- R140. Scratchpad load of 2 bytes, zero-extended. -/
  | ldsN16 (x : Args)
  /-- R140. Scratchpad load of 2 bytes, sign-extended. -/
  | ldsS16 (x : Args)
  /-- R140. Scratchpad load of 4 bytes. -/
  | ldsB32 (x : Args)
  /-- R140. Scratchpad load of 8 bytes. -/
  | ldsB64 (x : Args)
  /-- R140. Scratchpad load of 16 bytes. -/
  | ldsB128 (x : Args)
  /-- R140. Scratchpad store of one byte. -/
  | stsN8 (x : Args)
  /-- R140. Scratchpad store of 2 bytes. -/
  | stsN16 (x : Args)
  /-- R140. Scratchpad store of 4 bytes. -/
  | stsB32 (x : Args)
  /-- R140. Scratchpad store of 8 bytes. -/
  | stsB64 (x : Args)
  /-- R140. Scratchpad store of 16 bytes. -/
  | stsB128 (x : Args)
  /-- R141. Uncached 4-byte load served at the home. -/
  | ldncB32 (x : Args)
  /-- R141. Uncached 8-byte load served at the home. -/
  | ldncB64 (x : Args)
  /-- R141. Uncached 16-byte load served at the home. -/
  | ldncB128 (x : Args)
  /-- R143. Versioned 4-byte load of sealed bytes. -/
  | ldvB32 (x : Args)
  /-- R143. Versioned 8-byte load of sealed bytes. -/
  | ldvB64 (x : Args)
  /-- R143. Versioned 16-byte load of sealed bytes. -/
  | ldvB128 (x : Args)
  /-- R142. Hints that a 64-byte sector be brought into the L1; never traps. -/
  | pf (x : Args)
  /-- R145. 32-bit atomic at the home with the selected operation, scope and ordering. -/
  | amoB32 (x : Args)
  /-- R145. 64-bit atomic at the home. -/
  | amoB64 (x : Args)
  /-- R146. 32-bit atomic on a scratchpad word at its bank. -/
  | amosB32 (x : Args)
  /-- R146. 64-bit atomic on a scratchpad word at its bank. -/
  | amosB64 (x : Args)
  /-- R147. Byte reduction sent to the home after group combining. -/
  | redN8 (x : Args)
  /-- R147. 32-bit reduction without return. -/
  | redB32 (x : Args)
  /-- R147. 64-bit reduction without return. -/
  | redB64 (x : Args)
  /-- R148. Converts an FP32 value to a window integer and adds it into the slot. -/
  | redwF32 (x : Args)
  /-- R148. Converts a signed integer to a window integer and adds it into the slot. -/
  | redwS32 (x : Args)
  /-- R149. Reads and clears a window slot, returning it rounded to FP32. -/
  | wfinF32 (x : Args)
  /-- R149. Reads and clears a window slot, returning a saturated 64-bit integer. -/
  | wfinS64 (x : Args)
  /-- R150. Holds the thread for release and/or acquire conditions at its scope; sys scope reports loss. -/
  | fence (x : Args)
  /-- R152. Device-scope release, wait for a heartbeat tick, then acquire, in the SC fence order. -/
  | fsc (x : Args)
  /-- R153. Holds each thread until a read of its 4-byte address returns the compare value. -/
  | waddrB32 (x : Args)
  /-- R153. Holds each thread until a read of its 8-byte address returns the compare value. -/
  | waddrB64 (x : Args)
  /-- R154. Releases at system scope and marks a range sealed under a version. -/
  | seal (x : Args)
  /-- R155. Frees a sealed range's entries and makes it writable. -/
  | unseal (x : Args)
  /-- R161. Workgroup barrier holding every thread, with optional scalar reduction or scan payload. -/
  | bar (x : Args)
  /-- R162. Grid barrier over every workgroup of the launch, with device-scope release and acquire. -/
  | gbar (x : Args)
  /-- R165. Initialises a phase-barrier word with an expected count. -/
  | mbini (x : Args)
  /-- R165. Arrives on a phase-barrier word with a count, returning the phase parity. -/
  | mbarv (x : Args)
  /-- R166. Settles and holds until the phase barrier's parity differs from the given one. -/
  | mbwt (x : Args)
  /-- R166. Tests without waiting whether the phase has moved on. -/
  | mbtry (x : Args)
  /-- R168. Binds a channel to FIFO storage under a descriptor. -/
  | chbind (x : Args)
  /-- R171. Unbinds a channel and returns the number of discarded elements. -/
  | chfree (x : Args)
  /-- R169. Reads a channel's state. -/
  | chstat (x : Args)
  /-- R176. Assigns the next plane generation and queues its load into the shadow plane. -/
  | mst (x : Args)
  /-- R177. Queues a flip making a loaded generation active. -/
  | mflip (x : Args)
  /-- R183. Streams A rows past a plane generation into accumulator rows. -/
  | mma (x : Args)
  /-- R183. Block-scaled matrix pass with A scales from a scale record. -/
  | mmas (x : Args)
  /-- R186. Clears the accumulator rows of the active lanes. -/
  | mzero (x : Args)
  /-- R188. Drains accumulator rows, converted, to scratchpad. -/
  | mdr (x : Args)
  /-- R188. Drains a column group of accumulator rows into vector registers. -/
  | mdrv (x : Args)
  /-- R188. Drains accumulator rows into the octet's bypass staging. -/
  | mbyp (x : Args)
  /-- R189. Tests whether an octet group's format words agree and are valid. -/
  | mvote (x : Args)
  /-- R190. Reads matrix array state selected by a scalar. -/
  | mstat (x : Args)
  /-- R204. Issues a tensor copy command to the copy engine and returns its handle. -/
  | cpy (x : Args)
  /-- R204. Issues an indexed gather copy command. -/
  | cpyg (x : Args)
  /-- R204. Issues an indexed scatter copy command. -/
  | cpys (x : Args)
  /-- R204. Issues a fill command. -/
  | cpyf (x : Args)
  /-- R209. Issues a coordinate insert command assigning dense indices. -/
  | ceIns (x : Args)
  /-- R209. Issues a coordinate query command. -/
  | ceQry (x : Args)
  /-- R209. Issues a coordinate insert-and-accumulate command. -/
  | ceAcc (x : Args)
  /-- R211. Issues a neighbour-map build, reusing a matching existing map. -/
  | ceMap (x : Args)
  /-- R210. Issues a table clear command. -/
  | ceClr (x : Args)
  /-- R210. Issues a table seal command setting VER. -/
  | ceSeal (x : Args)
  /-- R213. Issues a tile-engine command running a fixed sequence of matrix passes. -/
  | tg (x : Args)
  /-- R360. Issues a scan listing nonzero elements or rows. -/
  | scnz (x : Args)
  /-- R361. Issues a token compaction command. -/
  | sctk (x : Args)
  /-- R200. Makes a held command queued. -/
  | erel (x : Args)
  /-- R200. Cancels a held or queued command with status 0x41. -/
  | ecan (x : Args)
  /-- R200. Reads a handle's state: dead, held, queued or running. -/
  | estat (x : Args)
  /-- R216. Raises software trap code 0x21 with the trap number in tval. -/
  | trap (x : Args)
  /-- R216. Raises breakpoint code 0x20 with the tag in tval. -/
  | brk (x : Args)
  /-- R217. Ends a privileged handler and continues after the trapping group. -/
  | sret (x : Args)
  /-- R217. Ends a privileged handler and re-executes the trapping instruction in the faulted lanes. -/
  | rply (x : Args)
  /-- R218. Settles, drains the home warp's writes at system scope and leaves the core or continues. -/
  | park (x : Args)
  /-- R218. Ends the restore handler, resuming each thread where pre-emption found it. -/
  | rst (x : Args)
  /-- R219. Writes the bits of the home warp's lanes in this formed warp into a mask. -/
  | flane (x : Args)
  /-- R219. Reads a selected workgroup performance counter. -/
  | perf (x : Args)
  /-- R220. Reads a privileged register. -/
  | rdpr (x : Args)
  /-- R220. Writes a privileged register. -/
  | wrpr (x : Args)
  /-- R221. Releases at device scope and removes selected TLB entries on both dies. -/
  | tlbi (x : Args)
  /-- R228. Each clock the Landing grants up to 64 lanes of formed warps to resident workgroups. -/
  | issueClock (core : Nat)
  /-- R20. A code line is fetched and its CRC trailer verified before any word issues. -/
  | fetchCodeLine (wg : Nat) (origin : BitVec 64) (line : Nat)
  /-- R24. A variable-latency result returns, leaves the pending set and merges its flags. -/
  | resultReturn (wg tid k : Nat)
  /-- R89. Threads held at a meeting address are released together once the mask condition holds. -/
  | meetingRelease (wg hw pkt mask : Nat)
  /-- R93. Waiting threads of an elect continue together, the lowest active one receiving 1. -/
  | electRelease (wg hw pkt slot : Nat)
  /-- R110. Held threads of a cross-lane operation are released and issue it as one formed warp. -/
  | crossLaneRelease (wg hw pkt slot : Nat)
  /-- R124. An octet held at fqnt is released and issues the quantisation together. -/
  | fqntRelease (wg octet pkt slot : Nat)
  /-- R160. When every live thread is held at a bar, the payload is computed and all are released. -/
  | barRelease (wg : Nat)
  /-- R162. When every live thread of the launch is held at gbar, all are released. -/
  | gbarRelease (region : Nat)
  /-- R166. A write completing the awaited phase releases threads held at mbwt. -/
  | mbwtRelease (wg tid : Nat)
  /-- R153. The held waddr read is repeated after each write-update and at least every 16 ticks. -/
  | waddrPoll (wg tid : Nat)
  /-- R97. A yielding thread becomes eligible again once other groups have issued or 64 slots passed. -/
  | yieldResume (wg tid : Nat)
  /-- R5. The 64-bit heartbeat advances every 27.8 ns. -/
  | heartbeatTick
  /-- R300. A core-weak store is written through 512 ck after entering the write buffer. -/
  | writeThroughTimeout (core sector : Nat)
  /-- R302. A write reaching its home slice is applied in H(x) and forwarded to sharers. -/
  | homeWriteApply (req : Nat)
  /-- R302. A sharer applies forwarded bytes except its own core-weak bytes and answers. -/
  | sharerUpdate (upd : Nat)
  /-- R302. The writer receives the acknowledgement after every sharer has answered. -/
  | writeAck (req : Nat)
  /-- R306. A read miss reaches the home slice and opens or joins a multicast window. -/
  | homeRead (req : Nat)
  /-- R306. At the end of a 24-ck window the slice sends one reply to every joined reader. -/
  | multicastWindowEnd (window : Nat)
  /-- R304. A sharer receiving a drop writes through its core-weak bytes and discards the sector. -/
  | directoryDrop (sector core : Nat)
  /-- R138. The last writer core receives a probe, writes through its core-weak stores and acknowledges. -/
  | promotionProbe (req : Nat)
  /-- R310. A remote line and its L1 sectors are dropped 8,192 ticks after their fill tick. -/
  | porchLineExpire (die line : Nat)
  /-- R381. The home reduction unit applies one atomic, reduction or window request in arrival order. -/
  | reductionUnitApply (req : Nat)
  /-- R318. A walker reads page-table entries at home, sets A and D, and installs or faults. -/
  | pageWalk (core : Nat) (asid : Nat) (va : BitVec 64)
  /-- R313. Every 16,384 ticks the placement unit evaluates regions and halves their counts. -/
  | placementEvaluate (die : Nat)
  /-- R315. After the copy phase, requests are held while TLBs, sectors and slots move to the new home. -/
  | migrationCutOver
  /-- R315. The home map names the new die and held requests are served there in order. -/
  | migrationDone
  /-- R199. A queued command starts running in its engine's order. -/
  | engineCommandStart (core slot : Nat)
  /-- R197. A command ends: payload, record status, completion word, arrival, push, successor, slot. -/
  | engineCommandComplete (core slot : Nat)
  /-- R291. A completing command waiting for room pushes its element into a full result queue. -/
  | engineQueuePush (core slot : Nat)
  /-- R288. A command halted on a missing page continues once the page is present. -/
  | engineFaultResume (core slot : Nat)
  /-- R288. A halted command ends with status 0x10 after 36,000 ticks. -/
  | engineFaultTimeout (core slot : Nat)
  /-- R376. One key's probe, slot claim, NKEY increment and ACC addition are applied whole. -/
  | coordKeyOp (core slot : Nat)
  /-- R363. The sequencer loads a plane, gathers A rows and commits one step of passes. -/
  | tgStep (core slot : Nat)
  /-- R176. All bytes of a plane and its scales are read; the shadow becomes loaded. -/
  | planeLoadDone (core : Nat)
  /-- R177. A queued flip makes its generation active once load and prior passes are done. -/
  | flipTakeEffect (core : Nat)
  /-- R183. An octet group's passes run when their generation is active. -/
  | matrixPass (core op : Nat)
  /-- R342. Trapping threads settle and enter the region's privileged handler together. -/
  | handlerEntry (wg set : Nat)
  /-- R258. The dispatch unit obeys an OP 1 bind record, allocating ranges and starting threads. -/
  | bind (core slot : Nat)
  /-- R354. The dispatch unit restores a saved context on a core and runs the restore handler. -/
  | resume (core slot : Nat)
  /-- R351. OP 3 written over a slot starts pre-emption of the workgroup. -/
  | preempt (core slot : Nat)
  /-- R351. At its next group boundary a thread takes code 0x30 or parks. -/
  | preemptEntry (wg tid : Nat)
  /-- R352. A thread not parked 65,536 ck after entering the pre-empt handler is parked. -/
  | preemptHandlerTimeout (wg tid : Nat)
  /-- R353. Once every thread has parked, the context is saved and the slot freed. -/
  | contextSave (wg : Nat)
  /-- R94. After the last thread and engine command end, stores are written through and the end counted. -/
  | workgroupEnd (wg : Nat)
  /-- R95. After engine completion and checks, the successor kernel starts on the same core. -/
  | tailStart (wg : Nat)
  /-- R248. A write to a block's state word is checked at its home and applied or discarded. -/
  | stateWordWrite (req : Nat)
  /-- R250. The watch bit signals the Hearth, which reads the armed block with a system-scope acquire. -/
  | hearthReadBlock (block : Nat)
  /-- R252. An armed block with DEPC 0 and PERIOD passed is checked, set running and launched. -/
  | regionEligible (block : Nat)
  /-- R255. A completed region writes counters, state and completion and decrements successors. -/
  | regionComplete (block : Nat)
  /-- R261. The Hearth binds the next workgroup in priority order where it fits, when room frees. -/
  | hearthBind (block : Nat)
  /-- R262. A high-class workgroup that has waited 64 ticks may pre-empt. -/
  | highClassPreemptWait (block : Nat)
  /-- R265. The Hearth sets the power state of a core, engine, Porch quarter or port. -/
  | powerStateSet (unit state : Nat)
  /-- R265. A unit finishes waking after its wake latency. -/
  | wakeComplete (unit : Nat)
  /-- R391. Each Hall column and plane grants one beat per ck by class and least-recently-granted row. -/
  | hallGrant (die column plane : Nat)
  /-- R395. A link transmitter sends one flit of the chosen class. -/
  | linkFlitSend (link dir : Nat)
  /-- R400. A flit is checked and accepted once, or discarded with a replay request. -/
  | flitReceive (link dir : Nat) (good : Bool)
  /-- R400. The sender resends every flit after the last acknowledged one. -/
  | replayRequest (link dir : Nat)
  /-- R400. A link that loses lock or exceeds its replay threshold retrains. -/
  | linkRetrainStart (link : Nat)
  /-- R400. A retrain ends and the sender replays from the last acknowledged flit. -/
  | linkRetrainEnd (link : Nat)
  /-- R401. A retrain exceeding 10 ms declares the link down, discarding partials and failing originators. -/
  | linkDown (link : Nat)
  /-- R404. A peer packet is served, forwarded with HOP less 1, or refused. -/
  | peerPacketReceive (node dst hop : Nat) (write : Bool) (addr : Nat) (size : Nat) (bytes : List (BitVec 8))
  /-- R406. A host CXL.mem read returns the last write applied at home. -/
  | hostMemRead (addr : Nat) (size : Nat) (tag : Nat)
  /-- R406. A host CXL.mem write is applied at its home in H(x). -/
  | hostMemWrite (addr : Nat) (bytes : List (BitVec 8))
  /-- R406. The host answers a back-invalidate snoop, letting the home apply the device write. -/
  | backInvalidateResponse (line : Nat)
  /-- R407. A host snoop removes copies of host lines from the L1s and Porch. -/
  | hostSnoop (line : Nat)
  /-- R409. After power-good the module runs its reset and training steps and sets PHASE. -/
  | reset
  /-- R408. At the throttle temperature or power limit the Hearth lowers the die's core clock. -/
  | thermalThrottle (scale : Nat)
  /-- R408. At the shutdown temperature the module stops and records the trip. -/
  | thermalShutdown
  /-- R412. Writing 1 to DEVSTAT.THS clears the thermal-shutdown bit. -/
  | devstatWrite (value : BitVec 64)
  /-- R249. Mailbox 0xC000 registers a region table and context, reading its armed blocks. -/
  | registerTable (base len : Nat) (asid : Nat) (root : Nat) (key0 : Bool)
  /-- R413. Mailbox 0xC001 starts deregistration of a table in the background. -/
  | deregisterTable (table : Nat)
  /-- R249. The background deregistration completes once no block is armed, waiting or running. -/
  | deregistrationComplete
  /-- R403. Mailbox 0xC002 writes a route table entry. -/
  | writeRouteEntry (node : Nat) (entry : BitVec 32)
  /-- R401. Mailbox 0xC003 with operand 0 re-enables a Xelas port. -/
  | xelasPortReenable (port : Nat)
  /-- R401. The re-enable completes once no packet is in flight to the port's nodes. -/
  | portReenableComplete (port : Nat)
  /-- R401. Mailbox 0xC003 with operand 1 declares a Xelas port down. -/
  | xelasPortDeclareDown (port : Nat)
  /-- R266. Mailbox 0xC004 raises the deadline demand floor. -/
  | deadlineDemandFloor (value : Nat)
  /-- R413. Mailbox 0xC005 sets the power limit, capped at the grade's limit. -/
  | powerLimit (value : Nat)
  /-- R411. Mailbox 0xC006 returns a signed attestation report for a nonce. -/
  | attestation (nonce : List (BitVec 8))
  /-- R413. Mailbox 0xC007 removes and returns the oldest event queue entry. -/
  | eventQueueEntry
  /-- R413. Mailbox 0xC008 sets the link replay threshold. -/
  | replayThreshold (value : Nat)
  /-- R414. Mailbox 0xC009 sets the device's node number when ports are down and no block is active. -/
  | nodeNumber (value : Nat)
  /-- R411. Mailbox 0xC00A returns certificate i of the identity chain. -/
  | certificateChain (index : Nat)
  /-- R410. The CXL Transfer FW command loads a new Hearth image. -/
  | transferFw (image : List (BitVec 8))
  /-- R411. The CXL Activate FW command stages an image and signs its identity certificate. -/
  | activateFw
  /-- R185. The array performs a queued mzero, mdr or mbyp in its tile's issue order, writes the row or scratchpad bytes and counts the operation as completed. -/
  | matrixOperationComplete (core op : Nat)
  deriving DecidableEq, Repr

end Sys2Proof
end

