-- ==== Sys2Proof/Machine/State.lean ====
section
/-! DEFINITION. The state of the machine as plain data: everything the spec gives the device, the record of work in
flight, and the few fields of the model itself (the formed warps granted, the group that is issuing, the agenda, the
counter of free values). -/

namespace Sys2Proof.Machine

/-! ### Threads -/

/-- R20: a program counter, the packet index and the slot. -/
structure PC where
  pkt : Nat
  slot : Nat
  deriving DecidableEq, Repr

/-- A destination that can be pending (R24): a vector register, a predicate, or a scalar register of the home warp. -/
inductive Dest where
  | v (n : Nat)
  | p (n : Nat)
  | s (n : Nat)
  deriving DecidableEq, Repr

/-- A value on its way to a destination; predicates and registers alike. -/
structure Write where
  dest : Dest
  val : W64
  deriving DecidableEq, Repr

/-- How the bytes of a memory reply become registers (R137, R145): bytes read and sign extension. -/
structure LoadFmt where
  size : Nat
  signed : Bool
  deriving DecidableEq, Repr

/-- What a pending result waits for (R24). -/
inductive PendSrc where
  /-- the result is there; the step RESULT_RETURN writes it. -/
  | ready (vals : List Write) (flags : Flags)
  /-- the reply of request `req`, whose bytes go to register `d` on. -/
  | mem (req : Nat) (d : Nat) (fmt : LoadFmt)
  /-- the elements of a channel (R170): the deferred computation `id` of the workgroup. -/
  | chan (id : Nat)
  /-- the reply failed: the code and address of the trap the thread takes. -/
  | failed (code : Nat) (va : W64)
  deriving DecidableEq, Repr

/-- One variable-latency instruction of a thread that has not returned (R24): where it stands, its destinations and what
it waits for. -/
structure Pend where
  pkt : Nat
  slot : Nat
  /-- the issue of the group it belongs to: with the slot, the execution whose lanes trap together (R135, R342). -/
  stamp : Nat := 0
  dests : List Dest
  src : PendSrc
  /-- the activation bank an `ftab` reads (R129). -/
  bank : Option Nat := none
  deriving DecidableEq, Repr

/-- Why a thread is not ready (R229). A held thread's PC is at the group it waits before. -/
inductive Hold where
  | ready
  /-- parked on a settle (R25). -/
  | settle
  /-- parked on an implicit settle: on its pending set, its matrix operations and the acknowledgement of its writes (R25,
  R139, R185). -/
  | implicit
  /-- waiting until its pops and peeks have their elements (R170, R322). -/
  | pops
  /-- waiting until these requests are answered (R138, R139, R150); `step` when that ends a wait of its group. -/
  | drain (deps : List Nat) (step : Bool)
  /-- waiting for its matrix operations (R185). -/
  | matrix
  /-- held at meeting address ADDR with mask MASK (R89). -/
  | meeting (addr mask : Nat)
  /-- held at an `elect` on a mask (R93). -/
  | elect (mask : Nat)
  /-- held at a cross-lane operation on a mask (R110). -/
  | cross (mask : Nat)
  /-- held at `fqnt` (R124). -/
  | fqnt
  /-- held at `bar` (R160): whether it was active, its selector, D and A fields and its mode. -/
  | bar (active : Bool) (sel d a : Nat) (mode : Mode)
  /-- held at `gbar` (R162). -/
  | gbar
  /-- held at `mbwt` on the word at an offset until PH differs from a parity (R166). -/
  | mbwt (off : Nat) (parity : Bool)
  /-- held at `waddr`: address, size, value, scope, acquire, promoting, the tick of the last read (R153). -/
  | waddr (va : W64) (size : Nat) (want : W64) (scope : Nat) (acq prom : Bool) (last : W64)
  /-- made ineligible by `yield`: the PC groups that were ready then and the slots passed since (R97). -/
  | yield (groups : List PC) (slots : Nat)
  /-- at `fsc`, waiting for the heartbeat to advance past a tick (R152). -/
  | fsc (tick : W64)
  /-- trapped, waiting for its formed warp to enter the handler together (R342). -/
  | trapping (set : Nat)
  deriving DecidableEq, Repr

/-- The handler a thread runs at user level (R218, R342, R351, R354). -/
inductive UserMode where
  | program | preemptHandler | restoreHandler
  deriving DecidableEq, Repr

/-- Where pre-emption or a handler of the kernel found a thread (R218, R351, R352): what it was running, its PC, and the
instructions it owed alone. -/
structure Frame where
  user : UserMode
  pc : PC
  alone : List PC
  cont : Option PC
  contSettle : Bool
  /-- a `yield` it is held at (R351). -/
  hold : Hold := .ready
  deriving DecidableEq, Repr

/-- A write of a thread that its home has not acknowledged (R138, R139). -/
structure OutWrite where
  req : Nat
  va : W64
  /-- homed on a peer or the host (R151). -/
  remote : Bool
  deriving DecidableEq, Repr

/-- A write of a thread that failed, and whose trap is owed (R139): its place in the order of issue, the code and the
address. -/
structure FailedWrite where
  seq : Nat
  code : Nat
  va : W64
  /-- a row of a matrix operation that uncorrectable data has stopped (R192). -/
  mx : Bool := false
  deriving DecidableEq, Repr

/-- Why a ready thread's next group cannot issue (R229). -/
inductive Block where
  /-- no room in channel `q` for `n` elements, of which the group itself frees some; an element `i` of channel `q` is absent
  (R170). -/
  | room (q n freed : Nat)
  | elem (q i : Nat)
  /-- no slot of the core's handle space is free (R194). -/
  | slots
  /-- a command of the result queue `q` has not pushed (R171). -/
  | queue (q : Nat)
  /-- an `ftab` on the bank that `ldtab` would fill has not returned (R129). -/
  | table
  deriving DecidableEq, Repr

/-- A thread (R225, R234). -/
structure Thread where
  tid : Nat
  pc : PC
  /-- v0 to v63, 0 where none is listed (R45, R227). -/
  v : Tab W32 := []
  /-- p1 to p47; bit 0 is never read (R45). -/
  p : BitVec 48 := 0
  /-- the meeting register and the saved entries, entry i of `%depth` at i (R87). -/
  meet : W32 := 0
  entries : Tab W32 := []
  depth : Nat := 0
  rm : BitVec 3 := 1
  fflags : Flags := 0
  tcause : BitVec 8 := 0
  tpos : W32 := 0
  tval : W64 := 0
  pend : List Pend := []
  writes : List OutWrite := []
  /-- writes that failed and whose trap is still owed (R139): in issue order. -/
  failed : List FailedWrite := []
  /-- requests of other threads that a meeting has ordered before it (R326). -/
  joined : List Nat := []
  /-- writes to a peer or the host lost since the last `fence.sys` (R151). -/
  lost : Bool := false
  hold : Hold := .ready
  ended : Bool := false
  /-- ended by `tail` (R95). -/
  tailed : Bool := false
  /-- parked for pre-emption (R351). -/
  parked : Bool := false
  /-- in the region's privileged handler, and `%depth` when it entered (R342). -/
  priv : Bool := false
  depthIn : Nat := 0
  user : UserMode := .program
  /-- what it returns to from the handlers of its kernel, the innermost first (R218, R352, R354). -/
  frames : List Frame := []
  /-- it has just changed between its program and a handler of the kernel. -/
  switched : Bool := false
  /-- core clock at which it entered the pre-empt handler (R352). -/
  entered : Nat := 0
  /-- issue slots of the workgroup passed since it last became ready (R230). -/
  wait : Nat := 0
  /-- the number of the formed warp of its last issue, and the threads of that warp (R233). -/
  fw : Nat := 0
  fwWith : List Nat := []
  /-- instructions it executes alone, the first at its PC, before it goes on at `cont` (R217, R341). -/
  alone : List PC := []
  /-- the slot at which it trapped in the group now issuing, and the instructions it still owes after that trap (R341). -/
  trapSlot : Option Nat := none
  again : List PC := []
  /-- the issue of the group in which it trapped. -/
  trapStamp : Nat := 0
  /-- the trap was of a whole group, by its fetch or its form: `rply` issues the group again. -/
  wholeTrap : Bool := false
  /-- the lanes a replay covers are those of `%faultm` (R217). -/
  memTrap : Bool := false
  /-- how many of the waits before the instruction in slot k of its next group are over: digit k to base 4. -/
  stage : Nat := 0
  /-- the slot of the instruction it is held before. -/
  heldSlot : Nat := 0
  /-- the tick its `fsc` waited for, and the issue in which it began (R152). -/
  fscTick : W64 := 0
  fscStamp : Nat := 0
  /-- ready, but its next group cannot issue for now (R229). -/
  blocked : Option Block := none
  /-- where the thread goes on after a trap: the group after the trapping one, or where it stood when a reply failed after
  it had gone on (R217, R341). -/
  cont : Option PC := none
  /-- the group of the trap has a word with T = 1: the thread settles before it goes on (R25, log 45). -/
  contSettle : Bool := false  -- DEDUCED, log 45
  /-- it takes the trap of a write that failed before it was parked at the next group it issues (R352). -/
  owedNow : Bool := false
  /-- registers and predicates whose stored value is uncorrectable, until they are written (R340). -/
  spoilt : List Dest := []  -- DESIGN CHOICE, log 14
  deriving DecidableEq, Repr

/-- What a home warp holds (R45, R49). -/
structure HWarp where
  s : Tab W64 := []
  k : Tab W64 := []
  faultm : W64 := 0
  psave : W64 := 0
  /-- scalar registers whose stored value is uncorrectable, until they are written (R340). -/
  spoilt : List Nat := []  -- DESIGN CHOICE, log 14
  deriving DecidableEq, Repr

/-! ### Workgroups -/

/-- A role of the kernel header (R26, R27). -/
structure Role where
  kind : Nat
  warps : Nat
  vregs : Nat
  deriving DecidableEq, Repr

/-- The kernel header (R26). -/
structure Hdr where
  width : Nat := 16
  vregs : Nat := 8
  depth : Nat := 0
  tiles : Nat := 0
  spad : Nat := 0
  hwarps : Nat := 1
  gbar : Bool := false
  surplus : Bool := false
  roles : List Role := []
  entry : Nat := 0
  preempt : Option Nat := none
  restore : Option Nat := none
  len : Nat := 1
  deriving DecidableEq, Repr

/-- A bound channel (R168 to R170): its descriptor fields, the index of the next element to be claimed and to be
appended, and the appended elements whose value is still to come. -/
structure Chan where
  kind : Nat
  esz : Nat
  ldep : Nat
  src : Nat
  base : Nat
  head : Nat := 0
  tail : Nat := 0
  unready : List Nat := []
  deriving DecidableEq, Repr

/-- An operand of a deferred computation: there, or the element `i` of channel `q` (R170). -/
inductive Src where
  | val (x : W128)
  | elem (q i : Nat)
  deriving DecidableEq, Repr

/-- One lane of a deferred computation. -/
structure DLane where
  tid : Nat
  a : Src
  b : Src
  f : Src
  d : W128
  mode : Mode
  deriving DecidableEq, Repr

/-- Where a deferred computation writes: a register or predicate, or element `i` of channel `q`. -/
inductive Sink where
  | reg
  | elem (q i : Nat)
  deriving DecidableEq, Repr

/-- A computation that waits for channel elements (R170): the opcode and its fields, and the lanes; a cross-lane
operation holds all participants of a home warp, any other instruction one lane. -/
structure Deferred where
  op : Nat
  x : Args
  lanes : List DLane
  sinks : List Sink
  deriving DecidableEq, Repr

/-- R180: a scale record. -/
structure ScaleRec where
  addr : Nat
  stride : Nat
  colMajor : Bool
  deriving DecidableEq, Repr

/-- A row of a matrix operation: its octet lane and thread, the scratchpad offset it reads or writes, the record of its A
scales, and the mode of its lane. -/
structure MxRow where
  lane : Nat
  tid : Nat
  off : Nat := 0
  scale : Option ScaleRec := none
  mode : Mode := .rne
  deriving DecidableEq, Repr

/-- The matrix array's queue (R176, R177, R183, R185). -/
inductive MxOp where
  /-- load of a plane: generation, offset, format word, record of its B scales. -/
  | load (gen off : Nat) (fmt : W32) (scale : Option ScaleRec)
  | flip (gen : Nat)
  /-- an octet group's passes: octet (of the workgroup), tile, generation, format word, rows. -/
  | pass (octet tile gen : Nat) (fmt : W32) (rows : List MxRow)
  | zero (octet tile : Nat) (rows : List MxRow)
  /-- `mdr`: format word and target. -/
  | drain (octet tile : Nat) (fmt : W32) (tgt : Nat) (rows : List MxRow)
  | bypass (octet tile : Nat) (fmt : W32) (rows : List MxRow)
  deriving DecidableEq, Repr

/-- A queued matrix operation and the threads that issued it. -/
structure MxEntry where
  id : Nat
  tids : List Nat
  op : MxOp
  deriving DecidableEq, Repr

/-- A weight plane: bytes in the layout of R179, and its block scales (block, column). -/
structure Plane where
  bytes : Tab Byte := []
  scales : Tab Byte := []
  fmt : W32 := 0
  deriving DecidableEq, Repr

/-- A place of a workgroup that holds uncorrectable data (R192, R347): a word of the scratchpad, a row of an octet's tile, a
weight plane, a staging row. -/
inductive Spoilt where
  | word (n : Nat)
  | row (octet tile lane : Nat)
  | plane (shadow : Bool)
  | staging (octet lane : Nat)
  deriving DecidableEq, Repr

/-- The matrix state of a workgroup that holds the claim (R175 to R178). -/
structure Matrix where
  ga : Nat := 0
  g : Nat := 0
  active : Plane := {}
  shadow : Plane := {}
  /-- 0 empty, 1 loading, 2 loaded; the generation in the shadow. -/
  shadowState : Nat := 0
  shadowGen : Nat := 0
  /-- the format word of each generation assigned. -/
  fmts : Tab W32 := []
  /-- the greatest generation an issued `mflip` named (R178), and the last retired by a `tg` (R213). -/
  flipped : Nat := 0
  retired : Nat := 0
  deriving DecidableEq, Repr

/-- A staging row: the A format it was written in and its 64 elements' bytes (R188). -/
structure Staging where
  fmt : W32
  bytes : Tab Byte
  deriving DecidableEq, Repr

/-- The activation tables of a workgroup that holds the claim (R128): coefficients by bank × 768 + segment × 3 + n. -/
structure ActTab where
  coef : Tab W32 := []
  active : Nat := 0
  last : Option Nat := none
  deriving DecidableEq, Repr

/-- The state of an engine command (R199, R288). -/
inductive CmdState where
  | held | queued | running
  /-- halted on a missing page since a tick (R288). -/
  | halted (since : W64) (va : W64)
  /-- ended, waiting for room in its result queue (R291). -/
  | pushing
  deriving DecidableEq, Repr

/-- A payload write still to be made: in scratchpad or memory, the alignment it needs, and whether it goes through to its home
whatever the command's scope. -/
structure EngWrite where
  sp : Bool
  addr : W64
  data : List Byte
  unit : Nat
  home : Bool := false
  deriving DecidableEq, Repr

/-- Where a payload write of an element went: a request, or a sector of the write buffer; and the flags of the element, which
count if it is written (R286). -/
structure EngPut where
  through : Bool
  key : Nat
  flags : Nat := 0
  deriving DecidableEq, Repr

/-- An engine command (R194 to R201): the record at acceptance, what it has done so far. -/
structure Cmd where
  /-- 0 copy engine, 1 coordinate engine, 2 tile engine, 3 scan unit; the opcode. -/
  eng : Nat
  op : Nat
  /-- the core that issued it, as whose forked thread it acts (R325, R336). -/
  core : Nat := 0
  recOff : Nat
  body : List Byte
  succ : W32
  mode : Mode
  priv : Bool
  state : CmdState
  /-- its place in the order of issue, and in the order in which commands became queued. -/
  born : Nat
  order : Nat
  /-- `tg`: the last generation assigned when it was issued (R213). -/
  gen : Nat := 0
  /-- its checks at start are passed; its payload is over; the writes before its completion word are out. -/
  begun : Bool := false
  ended : Bool := false
  flushed : Bool := false
  /-- its element waited for room at a pre-emption (R291). -/
  saved : Bool := false
  /-- the next element, key, batch or pass. -/
  pos : Nat := 0
  count : Nat := 0
  flags : Nat := 0
  status : Nat := 0
  /-- the dimension table of a copy; survivors of a scan; the words of the map or list of a `tg` read so far. -/
  work : List Nat := []
  /-- the batch of the index list it works on: its number and entries (R287). -/
  batch : Option (Nat × List Nat) := none
  /-- what source elements held when an overlapping copy started (R204). -/
  olds : List (List Byte) := []
  /-- bytes of the row or step that have been read, in how many accesses; the plane the array holds for a `tg` (R363). -/
  part : List Byte := []
  got : Nat := 0
  plane : Option Nat := none
  /-- payload writes whose flags do not count yet. -/
  puts : List EngPut := []
  outq : List EngWrite := []
  /-- requests that must be answered before it goes on. -/
  deps : List Nat := []
  deriving DecidableEq, Repr

/-- Where a workgroup is in its life (R258, R351 to R354). -/
inductive WgStatus where
  | running
  /-- OP 3 has been written over its slot. -/
  | preempting
  /-- its context is saved. -/
  | parked
  /-- its last thread has ended. -/
  | ending
  deriving DecidableEq, Repr

/-- A `tail` execution (R95). -/
structure TailRec where
  hdr : W64
  args : W64
  deriving DecidableEq, Repr

/-- A context registered with a region table (R249). -/
structure Ctx where
  asid : Nat := 0
  root : Nat := 0
  key : Nat := 0
  deriving DecidableEq, Repr

/-- Threads that were released together and issue together (R231); `gathered` when it was their next group that held them. -/
structure RelSet where
  tids : List Nat
  gathered : Bool := false
  deriving DecidableEq, Repr

/-- A workgroup (R225, R226). -/
structure Workgroup where
  /-- the leaf block's address (R258). -/
  block : Nat := 0
  wg : Nat := 0
  ctx : Ctx := {}
  core : Nat := 0
  slot : Nat := 0
  spBase : Nat := 0
  regBase : Nat := 0
  accBase : Nat := 0
  cls : Nat := 2
  level : Nat := 0
  hdr : Hdr := {}
  hdrVa : W64 := 0
  /-- the privileged handler: FHND, its entry packet and code length (R342). -/
  fhnd : W64 := 0
  fhEntry : Nat := 0
  fhLen : Nat := 0
  args : W64 := 0
  argLen : Nat := 0
  /-- the argument block's words at bind (R82). -/
  argWords : Tab W64 := []
  threads : Tab Thread := []
  hwarps : Tab HWarp := []
  /-- accumulator elements by (octet × 4 + tile) × 512 + row × 64 + column (R45). -/
  acc : Tab (BitVec 48) := []  -- DESIGN CHOICE, log 6
  /-- staging rows by octet × 8 + octet lane (R188). -/
  staging : Tab Staging := []
  spad : Tab Byte := []
  /-- what of its storage is uncorrectable. -/
  spoilt : List Spoilt := []  -- DESIGN CHOICE, log 14
  spass : W32 := 0
  chans : Tab Chan := []
  defers : Tab Deferred := []
  matrix : Option Matrix := none
  mxq : List MxEntry := []
  act : Option ActTab := none
  cmds : Tab Cmd := []
  perf : Tab W64 := []
  nextFw : Nat := 0
  /-- release sets whose group has not issued (R231): threads that issue together. -/
  relSets : List RelSet := []
  /-- trapped threads that enter the handler together (R342). -/
  trapSets : Tab (List Nat) := []
  tails : List TailRec := []
  byTail : Bool := false
  status : WgStatus := .running
  /-- the region ends it at its next issue group (R256). -/
  kill : Bool := false
  /-- requests that must be answered before its end is counted (R94). -/
  endDeps : List Nat := []
  boundAt : W64 := 0
  boundSeq : Nat := 0
  /-- clocks with a ready thread and no slot (R228). -/
  starved : Nat := 0
  ctxAddr : Nat := 0
  deriving DecidableEq, Repr

/-! ### Issue -/

/-- A formed warp the Landing has granted an issue slot (R228, R231): its workgroup, threads in home-lane order, number,
whether it is a release set, and whether its group has gathered its threads already. -/
structure Grant where
  wg : Nat
  tids : List Nat
  fw : Nat
  released : Bool
  gathered : Bool
  deriving DecidableEq, Repr

/-- The issue group that is executing. -/
structure Cur where
  wg : Nat
  /-- threads in ascending home lane. -/
  lanes : List Nat
  pc : PC
  next : PC
  /-- the slot of the instruction now executing and its word. -/
  slot : Nat
  word : W32
  released : Bool
  /-- the threads were released at this group, which need not gather them again (R93, R110, R124, R160, R162). -/
  gathered : Bool  -- DEDUCED, log 56
  fw : Nat
  /-- registers before the group, when it holds several instructions (R22). -/
  snap : Option Workgroup
  /-- every thread of the formed warp, held and trapped ones included. -/
  all : List Nat
  /-- the number of this issue. -/
  stamp : Nat := 0
  /-- the conditions of issue have been checked for the whole group. -/
  checked : Bool := false
  deriving DecidableEq, Repr

/-! ### Memory -/

/-- R299: a sector of an L1. -/
structure Sector where
  /-- filled from the home die's own slice (local) or through the Porch (remote). -/
  remote : Bool
  valid : BitVec 64
  data : BitVec 512
  /-- core-weak bytes. -/
  weak : BitVec 64
  tick : W64
  deriving DecidableEq, Repr

/-- Who made a store of the write buffer: workgroup, thread, address, and its place in the order of issue (R139). -/
structure Owner where
  wg : Nat
  tid : Nat
  va : W64
  seq : Nat := 0
  deriving DecidableEq, Repr

/-- R300: an entry of the write buffer: the sector's L1 key, address, and the clock at which it entered. -/
structure WbEntry where
  key : Nat
  pa : Nat
  asid : Nat
  clk : Nat
  mask : BitVec 64
  huge : Bool
  /-- the stores it holds, for an error report. -/
  owners : List Owner
  deriving DecidableEq, Repr

/-- R307: a line of a Porch that is not sealed: its fill tick, and the sectors it holds, 0 to 3. -/
structure PorchLine where
  tick : W64
  sects : Tab (BitVec 512)
  deriving DecidableEq, Repr

/-- R320: a translation: ASID, first page number, 4 KiB pages covered, first frame number, W, X, PRV, D, A, and the home die
of device memory. -/
structure Tlb where
  asid : Nat
  vpn : Nat
  pages : Nat
  pfn : Nat
  w : Bool
  x : Bool
  prv : Bool
  d : Bool
  a : Bool := true
  home : Option Nat := none
  deriving DecidableEq, Repr

/-- R301, R304: the directory entry of a sector: cores of the home die that hold it as local, by number within the die; its
place in the order of fills; the last writer. -/
structure DirEntry where
  sharers : BitVec 64 := 0
  filled : Nat := 0
  writer : Option Nat := none
  /-- the host holds the line (R406). -/
  host : Bool := false
  deriving DecidableEq, Repr

/-- R296: the state of a 2 MiB region: unhomed, homed on a die in a frame of it, moving from a frame of one die to a frame of
the other. -/
inductive Home where
  | unhomed | die (d frame : Nat) | migrating (src dst : Nat) (cut : Bool) (old new : Nat)
  deriving DecidableEq, Repr

/-- R154: a sealed run of bytes on a die. -/
structure SealRun where
  /-- the `seal` execution it belongs to. -/
  id : Nat
  die : Nat
  pa : Nat
  len : Nat
  va : W64
  asid : Nat
  version : Nat
  total : Nat
  deriving DecidableEq, Repr

/-- Who sent a request. -/
inductive Requester where
  | thread (wg tid : Nat)
  | wb (core : Nat) (owners : List Owner)
  | engine (wg : Nat) (handle : Nat)
  | hearth
  | host
  | peer (node : Nat)
  deriving DecidableEq, Repr

/-- What a request asks of the home (R302, R306, R333). -/
inductive ReqKind where
  /-- a load that may share a multicast window; a read outside windows (acquire, `ldnc`). -/
  | read
  | readAlone
  /-- `ldv` of a version (R143). -/
  | readSealed (version : Nat)
  /-- a write of bytes under a mask. -/
  | write
  /-- an atomic: operation number, and the lanes that name the address, each a thread and its mode, with their operands one
  after another in the request's data (R145). -/
  | amo (opn : Nat) (lanes : List (Nat × Mode))
  /-- a reduction without reply (R147). -/
  | red (opn : Nat) (mode : Mode)
  /-- a window contribution and a finalisation (R148, R149). -/
  | redw
  | wfin (f32 : Bool) (e : Int) (mode : Mode)
  deriving DecidableEq, Repr

/-- How far a request is. -/
inductive ReqState where
  /-- waits until the requests `deps` are acknowledged, then is sent (R334, R396). -/
  | waiting (deps : List Nat)
  /-- on its way, at the home, waiting in window `w` there. -/
  | sent
  | arrived
  | windowed (w : Nat)
  /-- a promoting acquire whose probe is out (R138). -/
  | probing
  /-- applied; forwarded updates are out (R302). -/
  | applied
  /-- answered: the reply is on its way back, and is there. -/
  | replying
  | done
  deriving DecidableEq, Repr

/-- A memory request in flight. -/
structure Req where
  by_ : Requester
  kind : ReqKind
  core : Nat
  asid : Nat
  pa : Nat
  va : W64
  size : Nat
  /-- bytes to write, or atomic operands, later the values of the reply; of a read, the core's own core-weak bytes. -/
  data : List Byte
  /-- which of these bytes are meant (one flag a byte); empty: all of a write, none of a read. -/
  mask : List Bool := []
  /-- the sector as the home read it. -/
  sect : BitVec 512 := 0
  state : ReqState
  /-- an acquire of this scope (R138), and whether it promotes. -/
  acq : Option Nat := none
  prom : Bool := false
  /-- the error it ended with. -/
  err : Nat := 0
  /-- the tick at which its home served it, and its place among the home's answers and updates (R303). -/
  tick : W64 := 0
  stamp : Nat := 0
  /-- lanes of an atomic that alone were refused, their writes being to a sealed range (R145). -/
  refused : List Bool := []
  /-- flags that an atomic returns to each of its lanes. -/
  flags : List Flags := []
  /-- fills the L1 on return. -/
  fill : Bool := false
  /-- the page of a write is one of 1 GiB (R297). -/
  huge : Bool := false
  /-- of the deadline class (R306). -/
  urgent : Bool := false
  deriving DecidableEq, Repr

/-- R302: bytes forwarded to a sharer. -/
structure Upd where
  req : Nat
  core : Nat
  sector : Nat
  data : BitVec 512
  mask : BitVec 64
  deriving DecidableEq, Repr

/-- R306: an open multicast window. -/
structure Window where
  sector : Nat
  reqs : List Nat
  opened : W64
  deriving DecidableEq, Repr

/-! ### Links (R389 to R401) -/

/-- A hop of a packet: a column of the Hall of a die, entered by a row; or a link in a direction (0 away from die 0 or
from the device, 1 back). Links: 0 UCIe, 1 to 12 Xelas port 0 to 11, 13 CXL. -/
inductive Hop where
  | hall (die col row : Nat)
  | link (l dir : Nat)
  deriving DecidableEq, Repr

/-- What a packet carries. -/
inductive PktWhat where
  | req (id : Nat)
  | resp (id : Nat)
  /-- a multicast reply to several readers (R392). -/
  | multi (ids : List Nat)
  deriving DecidableEq, Repr

/-- A packet on its way (R389): its hops to come, class (0 urgent, 1 normal, 2 bulk), plane, bytes, and the units of the
present hop already sent. -/
structure Packet where
  what : PktWhat
  hops : List Hop
  cls : Nat
  plane : Nat
  bytes : Nat
  sent : Nat := 0
  deriving DecidableEq, Repr

/-- A column of one plane of a Hall (R391, R395): its open packet of each class, the rows from the least to the most
recently granted, and the counters N and B. -/
structure HallCol where
  opened : Tab Nat := []
  recent : List Nat := []
  n : Nat := 0
  b : Nat := 0
  deriving DecidableEq, Repr

/-- A flit (R397, R398): class, SEQ, and the packets whose bytes it carries with how many. -/
structure Flit where
  cls : Nat
  seq : Nat
  parts : List (Nat × Nat)
  deriving DecidableEq, Repr

/-- One direction of a link (R398 to R400): next SEQ, flits not acknowledged, flits on the way, the SEQ the receiver
expects, bytes received of each packet, and the counters N and B. -/
structure LinkDir where
  seq : Nat := 0
  unacked : List Flit := []
  wire : List Flit := []
  expect : Nat := 0
  got : Tab Nat := []
  n : Nat := 0
  b : Nat := 0
  deriving DecidableEq, Repr

/-- R400, R401. -/
inductive LinkStatus where
  | up | retraining (since : W64) | down
  deriving DecidableEq, Repr

structure Link where
  status : LinkStatus := .up
  /-- retrains in a row that failed. -/
  fails : Nat := 0
  /-- flits and replays counted towards the threshold (R400). -/
  flits : Nat := 0
  replays : Nat := 0
  out : LinkDir := {}
  back : LinkDir := {}
  deriving DecidableEq, Repr

/-! ### Cores and dies -/

/-- R258: a bind record of a core's slot table. -/
structure BindRec where
  block : Nat := 0
  ctxAddr : Nat := 0
  wg : Nat := 0
  spBase : Nat := 0
  regBase : Nat := 0
  accBase : Nat := 0
  asid : Nat := 0
  /-- 0 empty, 1 bind, 2 resume, 3 pre-empt. -/
  op : Nat := 0
  cls : Nat := 0
  lvl : Nat := 0
  /-- the workgroup's id in the model, and whether the dispatch unit has obeyed the record. -/
  uid : Option Nat := none
  obeyed : Bool := false
  /-- its place in the order in which the Hearth wrote the records. -/
  seq : Nat := 0
  deriving DecidableEq, Repr

/-- A core. -/
structure Core where
  clk : Nat := 0
  /-- the acquire tick (R138). -/
  acq : W64 := 0  -- DESIGN CHOICE, log 8
  /-- L1 sectors by ASID × 2^46 + sector number; sealed sectors by version × 2^46 + sector number (R299, R311). -/
  l1 : Tab Sector := []
  l1Sealed : Tab (BitVec 512) := []
  wb : List WbEntry := []
  tlb : List Tlb := []
  slots : Tab BindRec := []
  /-- use counts of the handle slots (R195). -/
  seqs : Tab Nat := []  -- DESIGN CHOICE, log 9
  /-- scratchpad bytes ended workgroups left: context and byte by offset in the core's scratchpad (R270). -/
  left : Tab (Nat × Byte) := []
  /-- the bind number last served of each class and level, by class × 16 + level (R228). -/
  rr : Tab Nat := []
  deriving DecidableEq, Repr

/-- R348: an entry of the error log, its four words. -/
structure LogEntry where
  w0 : W64 := 0
  w1 : W64 := 0
  w2 : W64 := 0
  w3 : W64 := 0
  deriving DecidableEq, Repr

/-- R315: a migration under way. -/
structure Migration where
  region : Nat
  src : Nat
  dst : Nat
  /-- requests held by the cut-over. -/
  held : List Nat
  cut : Bool
  deriving DecidableEq, Repr

/-- A die. -/
structure Die where
  /-- Porch lines by line number (address div 256), and sealed sectors by version × 2^46 + sector number (R307, R311). -/
  porch : Tab PorchLine := []
  porchSealed : Tab (BitVec 512) := []
  tlb : List Tlb := []
  log : Tab LogEntry := []  -- DESIGN CHOICE, log 11
  elcnt : W32 := 0
  elix : W32 := 0
  /-- requests from the own and from the other die, by region (R313). -/
  counts : Tab (Nat × Nat) := []
  /-- evaluations made, and the evaluation of each region's last migration. -/
  evals : Nat := 0
  migrated : Tab Nat := []
  migration : Option Migration := none
  /-- Hall columns by column × 2 + plane, of the request network; of the response network by 128 more. -/
  hall : Tab HallCol := []
  deriving DecidableEq, Repr

/-! ### Regions and the Hearth -/

/-- R249: a registered region table. -/
structure RTable where
  base : Nat
  len : Nat
  ctx : Ctx
  deregistering : Bool := false
  deriving DecidableEq, Repr

/-- The fields of a block after inheritance (R245, R246). -/
structure Resolved where
  cls : Nat := 2
  level : Nat := 0
  fdp : Nat := 0
  fhnd : W64 := 0
  maxCores : Nat := 0
  maxThr : Nat := 0
  maxSpad : Nat := 0
  kernel : W64 := 0
  argLen : Nat := 0
  args : W64 := 0
  gx : Nat := 1
  gy : Nat := 1
  gz : Nat := 1
  aff : List (Nat × Nat) := []
  period : Nat := 0
  dbud : Nat := 0
  deriving DecidableEq, Repr

/-- The Hearth's record of a block in state 1, 2 or 3. -/
structure Region where
  table : Nat
  /-- the parent block in whose run it counts (R253). -/
  parentRun : Option Nat := none
  leaf : Bool := true
  /-- 1 armed, 2 waiting, 3 running. -/
  state : Nat := 1
  res : Resolved := {}
  hdr : Hdr := {}
  fhEntry : Nat := 0
  fhLen : Nat := 0
  reltk : W64 := 0
  /-- workgroups bound so far, and ended. -/
  bound : Nat := 0
  done : Nat := 0
  total : Nat := 1
  /-- the status it is ending with (R256). -/
  ending : Option Nat := none
  /-- blocks of its run not yet in state 4 or 5. -/
  kids : List Nat := []
  /-- since when its next workgroup fits nowhere (R262). -/
  waiting : Option W64 := none
  /-- the cores awaited after a pre-emption (R262), and those kept with them for a whole launch (R263). -/
  target : List Nat := []
  runtk : W64 := 0
  npre : W64 := 0
  /-- remote accesses of its workgroups on die 0 and on die 1 (R264). -/
  far0 : Nat := 0
  far1 : Nat := 0
  /-- threads held at `gbar` are released together (R162). -/
  gbarTick : W64 := 0
  deriving DecidableEq, Repr

/-! ### The outside -/

/-- What the device says to the outside: a reply of the mailbox, of a host read or write, a raised MSI-X vector, an answer
to a peer, a back-invalidate snoop of a line, a peer's packet sent on to a node. -/
inductive Out where
  | mailbox (cmd code : Nat) (payload : List Byte)
  | hostRead (tag : Nat) (ok : Bool) (data : List Byte)
  | hostWrite (ok : Bool)
  | msix (vector : Nat)
  | peer (node : Nat) (ok : Bool) (data : List Byte)
  | snoop (line : Nat)
  | forward (node hop : Nat) (write : Bool) (addr size : Nat) (data : List Byte)
  deriving DecidableEq, Repr

/-- R350, R413: an entry of the mailbox event queue. -/
structure Event where
  addr : W64
  asid : Nat
  core : Nat
  tick : W64
  deriving DecidableEq, Repr

/-- R410: a Hearth image and what identifies it. -/
structure Image where
  bytes : List Byte := []
  version : Nat := 1
  deriving DecidableEq, Repr

/-- The machine. -/
structure State where
  /-- the model's own: the formed warps granted, the group issuing, the steps to take next, the free-value counter. -/
  granted : List Grant := []  -- DESIGN CHOICE, log 1
  cur : Option Cur := none  -- DESIGN CHOICE, log 1
  agenda : List Instr := []  -- DESIGN CHOICE, log 2
  fresh : Nat := 0  -- DESIGN CHOICE, log 3
  /-- the order in which steps are taken that the spec leaves unordered; when it names none, the usual one (log 44). -/
  schedule : List Nat := []  -- DESIGN CHOICE, log 44
  flowing : Bool := false  -- DESIGN CHOICE, log 44
  /-- %hb (R5). -/
  hb : W64 := 0
  /-- core clocks passed at the last tick: the clock that a core has reached at least. -/
  clk0 : Nat := 0  -- DESIGN CHOICE, log 5
  cores : Tab Core := []
  dies : Tab Die := []
  wgs : Tab Workgroup := []
  binds : Nat := 0  -- DESIGN CHOICE, logs 4 and 90
  /-- memory by fabric physical address; a byte not listed is 0 (R296, R297). -/
  mem : Tab Byte := []  -- DESIGN CHOICE, log 12
  /-- regions by local address div 2 MiB, unhomed where none is listed (R296). -/
  homes : Tab Home := []
  dir : Tab DirEntry := []
  seals : List SealRun := []
  /-- sectors of memory that hold uncorrectable data (R347). -/
  bad : List Nat := []  -- DESIGN CHOICE, log 14
  /-- L1 copies (core, key) and Porch copies (die, sector) that hold uncorrectable data, and sectors of memory with an error
  that their check data corrects (R347). -/
  badL1 : List (Nat × Nat) := []  -- DESIGN CHOICE, log 14
  badPorch : List (Nat × Nat) := []  -- DESIGN CHOICE, log 14
  soft : List Nat := []  -- DESIGN CHOICE, log 14
  reqs : Tab Req := []
  /-- the next number of a request, an update, a `seal` or a matrix operation. -/
  nextReq : Nat := 0
  upds : Tab Upd := []
  windows : Tab Window := []
  pkts : Tab Packet := []
  nextPkt : Nat := 0  -- DESIGN CHOICE, log 4
  links : Tab Link := []
  routes : Tab W32 := []
  /-- places of `fsc`: (tick, core, home warp, position), in order (R335). -/
  fscOrder : List (W64 × Nat × Nat × Nat) := []
  tables : Tab RTable := []
  regions : Tab Region := []
  /-- blocks whose arming the watch bit has signalled (R250). -/
  signals : List Nat := []
  events : List Event := []
  background : Option Nat := none
  out : List Out := []
  /-- lines a back-invalidate snoop is out for (R406). -/
  snoops : List Nat := []
  /-- DEVSTAT (R412). -/
  phase : Nat := 2
  hsb : Bool := false
  grade : Bool := false  -- DESIGN CHOICE, log 105
  umod : BitVec 8 := 0xFF
  lwid : BitVec 4 := 3
  lspd : BitVec 4 := 3
  ths : Bool := false
  node : Nat := 0
  uld : Bool := false
  usz : Nat := 0x17400
  /-- module state (R408, R413). -/
  stopped : Bool := false
  /-- clocks of a tick that throttling takes away. -/
  clockScale : Nat := 0  -- DESIGN CHOICE, log 10
  /-- power states P1 to P4 of the units that are not in P0, and the device clock at which a wake ends (R265). -/
  power : Tab Nat := []  -- DESIGN CHOICE, log 10
  waking : Tab Nat := []
  powerLimit : Nat := 450
  floor : Nat := 0  -- DESIGN CHOICE, log 10
  replayLimit : Nat := 0  -- DESIGN CHOICE, log 10
  /-- ports whose re-enable the mailbox has accepted (R401). -/
  enabling : List Nat := []
  image : Image := {}
  staged : Option Image := none
  transferred : List Byte := []
  versionFuse : Nat := 1
  certs : List (List Byte) := [[]]
  stagedCert : List Byte := []
  deriving DecidableEq, Repr

/-- Why a step stops. -/
inductive Fault where
  /-- R408: the module has stopped at its shutdown temperature, or failed its training (R409); only a reset goes on.
  Raised by `step`. Safe: nothing runs where the hardware runs nothing. -/
  | stopped
  deriving DecidableEq, Repr

/-- Why an instruction has no meaning here. -/
inductive Refusal where
  /-- the instruction's arm of `exec` has no meaning yet. Safe: the model says nothing about it. -/
  | notModelled (mnemonic : String)
  deriving DecidableEq, Repr

/-- The links right after reset: every Xelas port down, UCIe and CXL trained (R409). -/
def resetLinks : Tab Link := (List.range 12).map fun p => (p + 1, { status := .down })

/-- The machine right after reset: step 6 of R409 done, nothing registered, nothing running. The
grade is CW-940A. (DESIGN CHOICE, logs 41, 105.) -/
def State.reset : State := { links := resetLinks }

end Sys2Proof.Machine
end

