-- ==== Sys2Proof/WellFormed.lean ====
section
/-! DEFINITION. Which operands an instruction accepts: the file each field names (R51 and the encoding tables of the
instruction pages), the prefix fields it uses (R16), and the check `Instr.wf` of everything that the bits of the
instruction alone make illegal (R14, R16, R40, R46, R51). What depends on the thread's header or on the channel table
(R14, R46, R170) is checked when the instruction executes. -/

namespace Sys2Proof

/-- The qualifier forms of R42. -/
inductive Qual where
  | ld | st | fence
  deriving DecidableEq, Repr

/-- What an operand field names (R12, R51). -/
inductive FK where
  /-- the field must hold 0. -/
  | zero
  /-- any seven bits: an immediate, an offset or a number. -/
  | any
  /-- a vector operand of `w` registers; a literal or a channel where the flags say so. -/
  | vec (w : Nat) (lit chan : Bool)
  /-- a scalar register; a literal where the flag says so. -/
  | sca (lit : Bool)
  /-- a predicate. -/
  | pred
  /-- a mask register. -/
  | mask
  /-- an accumulator tile. -/
  | acc
  /-- the first register of `mdrv` (R188). -/
  | drainDst
  /-- the register of a scale record's offset, which `mst` reads only where its format word asks for it (R181). -/
  | recOff
  /-- a special register (R49), any or one that may be written. -/
  | spec
  | specRw
  /-- a privileged register (R220). -/
  | priv
  /-- the successor field of format E (R10). -/
  | succ
  /-- a qualifier (R42). -/
  | qual (q : Qual)
  /-- the selector of `amo` and `amos` (R144): add.f32 allowed; scratchpad form. -/
  | amo (f32 core : Bool)
  /-- the selector of `red` (R144): add.f32 allowed. -/
  | red (f32 : Bool)
  | redN8
  /-- the selector of `bar` (R159). -/
  | bar
  /-- the drain control of `mdr` and `mdrv` (R174). -/
  | drain
  deriving DecidableEq, Repr

/-- What an instruction does with its field D. -/
inductive DRole where
  | dst | src | both | none
  deriving DecidableEq, Repr

/-- The operands and prefix fields of an instruction. -/
structure Sig where
  d : FK
  a : FK
  b : FK
  dRole : DRole
  /-- the fourth operand; `.zero` where there is none. -/
  f : FK := .zero
  fReq : Bool := false
  /-- F is written too (`vadc`, `vsbc`). -/
  fDst : Bool := false
  /-- a prefix may stand before the instruction (R40). -/
  pfxOk : Bool := true
  rnd : Bool := false
  z : Bool := false
  bs : Bool := false
  /-- of D, which is read whole, only the first half is written (`cas`, R145). -/
  half : Bool := false
  deriving DecidableEq, Repr

/-- A vector operand that accepts channels. -/
def V (w : Nat) : FK := .vec w false true
/-- A vector operand that accepts channels and a literal. -/
def L (w : Nat) : FK := .vec w true true
/-- A vector register and nothing else. -/
def R (w : Nat) : FK := .vec w false false

/-- Whether a field kind is a vector operand that BS can turn into a scalar register (R98). -/
def FK.bsOk : FK → Bool
  | .vec _ _ chan => chan
  | _ => false

/-- V instructions (R98, R99). -/
def vecSig (d a b : FK) : Sig := { d, a, b, dRole := .dst, z := true, bs := b.bsOk }
/-- Cross-lane operations (R109): F names a mask and is required. -/
def xlSig (d a b : FK) : Sig := { d, a, b, dRole := .dst, f := .mask, fReq := true, z := true, bs := b.bsOk }
/-- F instructions (R113, R115); `rnd` is the mark of R116. -/
def fltSig (rnd : Bool) (d a b : FK) : Sig := { d, a, b, dRole := .dst, z := true, bs := b.bsOk, rnd }
/-- Scalar instructions (R78): only PRED and NEG. -/
def scaSig (d a b : FK) : Sig := { d, a, b, dRole := .dst }
/-- Scalar stores. -/
def scaSrc (d a b : FK) : Sig := { d, a, b, dRole := .src }
/-- Instructions with PRED and NEG only and no result unless the row says so. -/
def ctlSig (d a b : FK) : Sig := { d, a, b, dRole := .none }
/-- Memory instructions that write a vector register (R135). -/
def ldSig (d a b : FK) : Sig := { d, a, b, dRole := .dst, z := true }
/-- Memory instructions that write no vector register (R135). -/
def stSig (d a b : FK) : Sig := { d, a, b, dRole := .src }
/-- Format E (R10, R193): no prefix. -/
def engSig : Sig := { d := R 1, a := R 1, b := .succ, dRole := .dst, pfxOk := false }
/-- Selector forms (R40, R215): no prefix. -/
def selSig (d a : FK) : Sig := { d, a, b := .any, dRole := .none, pfxOk := false }

/-- The operation number of an `amo`, `amos` or `red` selector (R144). -/
def selOpn (b : BitVec 7) : Nat := bitsNat b 3 0
/-- The scope of a qualifier or selector: 0 core, 1 die, 2 dev, 3 sys. -/
def selScope (b : BitVec 7) : Nat := bitsNat b 5 4

/-- `amo` and `amos`: D doubles for cas (R145), and RND stands on add.f32 only (R135). -/
def amoSig (sel : BitVec 7) (w aw : Nat) (k : FK) : Sig :=
  { d := R (if selOpn sel = 10 then 2 * w else w), a := R aw, b := k, dRole := .both, z := true,
    rnd := selOpn sel == 1, half := selOpn sel == 10 }
/-- `red` (R147). -/
def redSig (sel : BitVec 7) (w : Nat) (k : FK) : Sig :=
  { d := R w, a := R 2, b := k, dRole := .src, rnd := selOpn sel == 1 }

/-- `bar` writes D only with a payload (R159). -/
def barRole (sel : BitVec 7) : DRole := if bitAt sel 4 then .dst else .none
/-- `bar` rounds only as `bar.add.f32` (R158). -/
def barRounds (sel : BitVec 7) : Bool := bitAt sel 4 && bitsNat sel 2 0 == 1

/-- Registers of special register `n` (R50); `%faultm` of a 64-lane warp is checked at execution. -/
def specWidth (n : BitVec 7) : Nat := if n = 11 ∨ n = 12 ∨ n = 19 then 2 else 1
/-- Registers of privileged register `n` (R220). -/
def privWidth (n : BitVec 7) : Nat := if n = 1 ∨ (4 ≤ n.toNat ∧ n.toNat ≤ 7) then 2 else 1

/-! The operands of every opcode of format A, I, M or E, by the rows of R39; none for an unassigned opcode. -/

/-- Row 0x00_. -/
def sigRow0x00 (col : Nat) (_x : Args) : Option Sig :=
  match col with
  | 1 | 2 | 3 | 4 | 5 | 6 | 7 | 8 | 9 | 10 | 11 | 12 | 13 | 14 | 15 => some (scaSig (.sca false) (.sca false) (.sca true))
  | _ => none

/-- Row 0x01_. B of `ssel` takes a literal (R78). (DEDUCED, log 108.) -/
def sigRow0x01 (col : Nat) (x : Args) : Option Sig :=
  match col with
  | 0 | 1 | 2 | 3 => some (scaSig (.sca false) (.sca false) (.sca true))
  | 4 => some (scaSig (.sca false) .zero (.sca true))
  | 5 => some ({ scaSig (.sca false) (.sca false) (.sca true) with f := .pred, fReq := true })
  | 6 => some ({ scaSig (R (specWidth x.a)) .spec .zero with dRole := .dst })
  | 7 => some ({ scaSig .specRw (R (specWidth x.d)) .zero with dRole := .none })
  | 8 => some (scaSig (.sca false) (.sca false) .any)
  | 9 => some (scaSig (.sca false) (R 1) .zero)
  | 10 | 11 | 12 | 13 | 14 | 15 => some (scaSig (.sca false) (.sca false) .any)
  | _ => none

/-- Row 0x02_. -/
def sigRow0x02 (col : Nat) (_x : Args) : Option Sig :=
  match col with
  | 0 => some (scaSig (.sca false) (.sca false) .any)
  | 1 => some (scaSig (.sca false) .zero .any)
  | 2 | 3 | 4 | 5 | 6 | 7 => some (scaSig .pred (.sca true) (.sca true))
  | 8 | 9 | 10 | 11 => some (scaSig .pred (.sca false) .any)
  | _ => none

/-- Row 0x03_. -/
def sigRow0x03 (col : Nat) (_x : Args) : Option Sig :=
  match col with
  | 0 | 1 | 2 | 3 | 4 | 5 | 6 => some (scaSig (.sca false) (.sca false) .any)
  | 7 | 8 | 9 | 10 => some (scaSrc (.sca false) (.sca false) .any)
  | _ => none

/-- Row 0x04_. -/
def sigRow0x04 (col : Nat) (_x : Args) : Option Sig :=
  match col with
  | 1 => some (ctlSig .zero (.sca false) .zero)
  | 2 => some (ctlSig .zero (R 1) .zero)
  | 3 => some ({ ctlSig (R 1) .zero (.sca true) with dRole := .dst })
  | 4 => some (ctlSig .zero (R 1) .zero)
  | 5 => some ({ ctlSig .mask .zero (.sca true) with dRole := .dst })
  | 6 | 7 => some ({ ctlSig .mask .zero .zero with dRole := .dst })
  | 8 => some (ctlSig .zero .zero .zero)
  | 9 => some (ctlSig .zero (.sca false) (.sca false))
  | 10 => some (ctlSig .zero (.sca false) .zero)
  | 11 => some ({ ctlSig .pred .mask .zero with dRole := .dst })
  | 12 => some (ctlSig .zero .zero .zero)
  | _ => none

/-- Row 0x06_. -/
def sigRow0x06 (col : Nat) (_x : Args) : Option Sig :=
  match col with
  | 0 => some (vecSig (V 1) (V 1) (L 1))
  | 1 => some (vecSig (V 2) (V 2) (L 2))
  | 2 | 3 | 4 => some (vecSig (V 1) (V 1) (L 1))
  | 5 => some (vecSig (V 2) (V 2) (L 2))
  | 6 | 7 | 8 => some (vecSig (V 1) (V 1) (L 1))
  | 9 => some (vecSig (V 2) (V 2) (L 2))
  | 10 | 11 => some (vecSig (V 1) (V 1) (L 1))
  | 12 => some ({ vecSig (V 1) (V 1) (L 1) with f := V 1, fReq := true })
  | 13 => some ({ vecSig (V 2) (V 2) (L 2) with f := V 2, fReq := true })
  | 14 | 15 => some ({ vecSig (V 1) (V 1) (L 1) with f := .pred, fReq := true, fDst := true })
  | _ => none

/-- Row 0x07_. -/
def sigRow0x07 (col : Nat) (_x : Args) : Option Sig :=
  match col with
  | 0 | 1 => some (vecSig (V 1) (V 1) (L 1))
  | 2 | 3 => some (vecSig (V 2) (V 2) (L 2))
  | 4 | 5 => some (vecSig (V 1) (V 1) (L 1))
  | 6 | 7 => some (vecSig (V 2) (V 2) (L 2))
  | 8 => some (vecSig (V 1) .zero (L 1))
  | 9 => some (vecSig (V 2) .zero (L 2))
  | 10 => some (vecSig (V 1) .zero (L 1))
  | 11 => some (vecSig (V 2) .zero (L 2))
  | 12 | 13 | 14 | 15 => some (vecSig (V 1) (V 1) (L 1))
  | _ => none

/-- Row 0x08_. -/
def sigRow0x08 (col : Nat) (_x : Args) : Option Sig :=
  match col with
  | 0 | 1 | 2 | 3 => some (vecSig (V 2) (V 2) (L 2))
  | 4 | 5 | 6 | 7 => some (vecSig (V 1) (V 1) (L 1))
  | 8 | 9 | 10 | 11 => some (vecSig (V 2) (V 2) (L 2))
  | 12 | 13 | 14 | 15 => some (vecSig (V 1) (V 1) (L 1))
  | _ => none

/-- Row 0x09_. (DEDUCED, log 17.) -/
def sigRow0x09 (col : Nat) (_x : Args) : Option Sig :=
  match col with
  | 0 | 1 | 2 | 3 => some (vecSig (V 2) (V 2) (L 1))
  | 4 => some (vecSig (V 1) .zero (L 1))
  | 5 => some (vecSig (V 1) .zero (L 2))
  | 6 => some (vecSig (V 1) .zero (L 1))
  | 7 => some (vecSig (V 1) .zero (L 2))
  | 8 => some (vecSig (V 1) .zero (L 1))
  | 9 => some (vecSig (V 2) .zero (L 2))
  | 10 | 11 => some (vecSig (V 1) (V 1) (L 1))
  | 12 => some ({ vecSig (R 1) (V 1) (L 1) with dRole := .both })
  | 13 => some (vecSig (V 2) (V 2) (L 1))
  | 14 => some (vecSig (V 1) .zero (L 1))
  | 15 => some (vecSig (V 2) .zero (L 2))
  | _ => none

/-- Row 0x0A_. -/
def sigRow0x0A (col : Nat) (_x : Args) : Option Sig :=
  match col with
  | 0 | 1 | 2 | 3 | 4 | 5 | 6 | 7 => some (vecSig (V 1) (V 1) .any)
  | 8 => some (vecSig (V 1) .zero .any)
  | 9 => some ({ vecSig (V 1) (V 1) (L 1) with f := .pred, fReq := true })
  | 10 => some ({ vecSig (V 2) (V 2) (L 2) with f := .pred, fReq := true })
  | 11 | 12 | 13 | 14 => some (vecSig (V 1) .zero (L 1))
  | 15 => some (vecSig (V 2) .zero (L 1))
  | _ => none

/-- Row 0x0B_. -/
def sigRow0x0B (col : Nat) (_x : Args) : Option Sig :=
  match col with
  | 0 => some (vecSig (V 2) .zero (L 1))
  | 1 | 2 | 3 | 4 => some (vecSig (V 1) .zero (L 1))
  | 5 | 6 => some (vecSig (V 1) .zero (L 2))
  | 7 | 8 => some (vecSig (V 1) .zero (L 1))
  | _ => none

/-- Row 0x0C_. -/
def sigRow0x0C (col : Nat) (_x : Args) : Option Sig :=
  match col with
  | 0 | 1 | 2 | 3 | 4 | 5 => some (vecSig .pred (L 1) (L 1))
  | 6 | 7 | 8 | 9 | 10 | 11 => some (vecSig .pred (L 2) (L 2))
  | 13 | 14 | 15 => some (vecSig .pred (V 1) .any)
  | _ => none

/-- Row 0x0D_. -/
def sigRow0x0D (_col : Nat) (_x : Args) : Option Sig := some (vecSig .pred .pred .pred)

/-- Row 0x0E_. -/
def sigRow0x0E (col : Nat) (_x : Args) : Option Sig :=
  match col with
  | 0 | 1 | 2 | 3 => some (xlSig (V 1) (V 1) (L 1))
  | 4 | 5 => some (xlSig .pred .pred .zero)
  | 6 => some ({ xlSig .mask .pred .zero with z := false })
  | 7 => some (xlSig (V 1) (V 1) .zero)
  | 8 => some (xlSig (V 1) (V 1) (L 1))
  | 9 | 10 => some (xlSig (V 2) (V 2) (L 1))
  | 11 => some (xlSig (V 1) (V 2) .zero)
  | _ => none

/-- Row 0x0F_. -/
def sigRow0x0F (col : Nat) (_x : Args) : Option Sig :=
  match col with
  | 0 | 1 | 2 | 3 | 4 | 5 | 6 | 7 => some (xlSig (V 1) (V 1) .zero)
  | 8 => some (xlSig (V 2) (V 2) .zero)
  | 9 | 10 | 11 | 12 | 13 => some (xlSig (V 1) (V 1) .zero)
  | 14 => some (xlSig (V 2) (V 2) .zero)
  | _ => none

/-- Row 0x10_. -/
def sigRow0x10 (col : Nat) (_x : Args) : Option Sig :=
  match col with
  | 0 => some ({ fltSig true (V 1) (V 1) (L 1) with f := V 1, fReq := true })
  | 1 | 2 | 3 => some (fltSig true (V 1) (V 1) (L 1))
  | 4 | 5 | 6 | 7 => some (fltSig false (V 1) (V 1) (L 1))
  | 8 | 9 => some (fltSig false (V 1) .zero (L 1))
  | 10 => some (fltSig false (V 1) (V 1) (L 1))
  | 11 => some (fltSig false (V 1) .zero (L 1))
  | 12 => some (fltSig true (V 1) .zero (L 1))
  | 13 => some (fltSig true (V 1) (V 1) (L 1))
  | 14 => some (fltSig false (V 1) .zero (L 1))
  | 15 => some ({ fltSig true (V 1) (V 1) (L 1) with f := V 1, fReq := true })
  | _ => none

/-- Row 0x11_. -/
def sigRow0x11 (col : Nat) (_x : Args) : Option Sig :=
  match col with
  | 0 => some ({ fltSig true (V 1) (V 1) (L 1) with f := V 1, fReq := true })
  | 1 | 2 | 3 => some (fltSig true (V 1) (V 1) (L 1))
  | 4 | 5 | 6 | 7 => some (fltSig false (V 1) (V 1) (L 1))
  | 8 | 9 => some (fltSig false (V 1) .zero (L 1))
  | 10 => some (fltSig false (V 1) (V 1) (L 1))
  | 11 => some (fltSig false (V 1) .zero (L 1))
  | 12 => some (fltSig true (V 1) .zero (L 1))
  | 13 => some (fltSig true (V 1) (V 1) (L 1))
  | 14 => some (fltSig false (V 1) .zero (L 1))
  | 15 => some ({ fltSig true (V 1) (V 1) (L 1) with f := V 1, fReq := true })
  | _ => none

/-- Row 0x12_. (DEDUCED, log 17.) -/
def sigRow0x12 (col : Nat) (_x : Args) : Option Sig :=
  match col with
  | 0 => some ({ fltSig true (V 1) (V 1) (L 1) with f := V 1, fReq := true })
  | 1 | 2 | 3 => some (fltSig true (V 1) (V 1) (L 1))
  | 4 | 5 | 6 | 7 => some (fltSig false (V 1) (V 1) (L 1))
  | 8 | 9 => some (fltSig false (V 1) .zero (L 1))
  | 10 => some (fltSig false (V 1) (V 1) (L 1))
  | 11 => some (fltSig false (V 1) .zero (L 1))
  | 12 => some (fltSig true (V 1) .zero (L 1))
  | 13 => some (fltSig true (V 1) (V 1) (L 1))
  | 14 => some (fltSig false (V 1) .zero (L 1))
  | 15 => some ({ fltSig true (R 1) (V 1) (L 1) with f := V 1, fReq := true, dRole := .both })
  | _ => none

/-- Row 0x13_. A of `fcvt` to and from a q8 format takes a literal (R116). (DEDUCED, log 108.) -/
def sigRow0x13 (col : Nat) (_x : Args) : Option Sig :=
  match col with
  | 0 | 1 | 2 | 3 | 4 | 5 => some (fltSig false .pred (L 1) (L 1))
  | 6 | 7 => some (fltSig false (V 1) .zero (L 1))
  | 8 | 9 => some (fltSig true (V 1) (V 1) (L 1))
  | 10 => some (fltSig false (V 1) (L 1) (L 1))
  | 11 => some (fltSig true (V 1) (L 1) (L 1))
  | 12 | 13 | 14 | 15 => some (fltSig true (V 1) .zero (L 1))
  | _ => none

/-- Row 0x14_. -/
def sigRow0x14 (col : Nat) (_x : Args) : Option Sig :=
  match col with
  | 0 | 1 => some (fltSig true (V 2) .zero (L 1))
  | 2 | 3 => some (fltSig true (V 1) .zero (L 2))
  | 4 => some (fltSig true (V 2) (V 4) (L 1))
  | 5 => some (fltSig true (V 4) (V 2) (L 1))
  | 6 => some (fltSig true (V 1) .zero (L 1))
  | 7 | 8 | 9 | 10 | 11 | 12 | 13 => some (fltSig false (V 1) .zero (L 1))
  | 14 => some (fltSig true (V 1) .zero (L 1))
  | 15 => some (ctlSig .zero (.sca false) .zero)
  | _ => none

/-- Row 0x15_. -/
def sigRow0x15 (col : Nat) (_x : Args) : Option Sig :=
  match col with
  | 0 => some (ctlSig .zero .zero .zero)
  | _ => none

/-- Row 0x18_. -/
def sigRow0x18 (col : Nat) (_x : Args) : Option Sig :=
  match col with
  | 0 | 1 | 2 | 3 | 4 => some (ldSig (R 1) (R 2) .any)
  | 5 => some (ldSig (R 2) (R 2) .any)
  | 6 => some (ldSig (R 4) (R 2) .any)
  | 7 => some (ldSig (R 1) (.sca false) .any)
  | 8 => some (ldSig (R 2) (.sca false) .any)
  | 9 => some (ldSig (R 4) (.sca false) .any)
  | 10 => some (ldSig (R 1) (R 2) (.qual .ld))
  | 11 => some (ldSig (R 2) (R 2) (.qual .ld))
  | 12 | 13 | 14 => some (stSig (R 1) (R 2) .any)
  | 15 => some (stSig (R 2) (R 2) .any)
  | _ => none

/-- Row 0x19_. -/
def sigRow0x19 (col : Nat) (_x : Args) : Option Sig :=
  match col with
  | 0 => some (stSig (R 4) (R 2) .any)
  | 1 => some (stSig (R 1) (.sca false) .any)
  | 2 => some (stSig (R 2) (.sca false) .any)
  | 3 => some (stSig (R 4) (.sca false) .any)
  | 4 => some (stSig (R 1) (R 2) (.qual .st))
  | 5 => some (stSig (R 2) (R 2) (.qual .st))
  | 6 | 7 | 8 | 9 | 10 => some (ldSig (R 1) (R 1) .any)
  | 11 => some (ldSig (R 2) (R 1) .any)
  | 12 => some (ldSig (R 4) (R 1) .any)
  | 13 | 14 | 15 => some (stSig (R 1) (R 1) .any)
  | _ => none

/-- Row 0x1A_. (DEDUCED, log 65.) -/
def sigRow0x1A (col : Nat) (x : Args) : Option Sig :=
  match col with
  | 0 => some (stSig (R 2) (R 1) .any)
  | 1 => some (stSig (R 4) (R 1) .any)
  | 2 => some (ldSig (R 1) (R 2) .any)
  | 3 => some (ldSig (R 2) (R 2) .any)
  | 4 => some (ldSig (R 4) (R 2) .any)
  | 5 => some (ldSig (R 1) (R 2) (.sca false))
  | 6 => some (ldSig (R 2) (R 2) (.sca false))
  | 7 => some (ldSig (R 4) (R 2) (.sca false))
  | 8 => some (stSig .zero (R 2) .any)
  | 9 => some (amoSig x.b 1 2 (.amo true false))
  | 10 => some (amoSig x.b 2 2 (.amo false false))
  | 11 => some ({ amoSig x.b 1 1 (.amo true true) with rnd := false })
  | 12 => some ({ amoSig x.b 2 1 (.amo false true) with rnd := false })
  | 13 => some (redSig x.b 1 .redN8)
  | 14 => some (redSig x.b 1 (.red true))
  | 15 => some (redSig x.b 2 (.red false))
  | _ => none

/-- Row 0x1B_. -/
def sigRow0x1B (col : Nat) (_x : Args) : Option Sig :=
  match col with
  | 0 | 1 => some (stSig (.sca false) (R 2) (R 1))
  | 2 => some ({ ldSig (R 1) (R 2) (.sca false) with rnd := true })
  | 3 => some ({ ldSig (R 2) (R 2) (.sca false) with rnd := true })
  | 4 => some ({ stSig .pred .zero (.qual .fence) with dRole := .dst })
  | 5 => some (stSig .zero .zero .zero)
  | 6 => some (stSig (R 1) (R 2) (.qual .ld))
  | 7 => some (stSig (R 2) (R 2) (.qual .ld))
  | 8 | 9 => some (stSig (.sca false) (.sca false) (.sca false))
  | _ => none

/-- Row 0x1C_. -/
def sigRow0x1C (col : Nat) (x : Args) : Option Sig :=
  match col with
  | 0 => some ({ ctlSig (.sca false) (.sca false) .bar with dRole := barRole x.b, rnd := barRounds x.b })
  | 1 => some (ctlSig .zero .zero .zero)
  | 2 => some (ctlSig .zero (.sca false) (.sca false))
  | 3 => some ({ ctlSig (.sca false) (.sca false) (.sca false) with dRole := .dst })
  | 4 => some (ctlSig .zero (.sca false) (.sca false))
  | 5 | 6 => some ({ ctlSig (.sca false) (.sca false) (.sca false) with dRole := .dst })
  | 7 | 8 => some ({ ctlSig (.sca false) (.sca false) .zero with dRole := .dst })
  | _ => none

/-- Row 0x1D_. -/
def sigRow0x1D (col : Nat) (_x : Args) : Option Sig :=
  match col with
  | 0 => some ({ ctlSig (.sca false) (R 1) (R 1) with dRole := .dst, f := .recOff })
  | 1 => some (ctlSig .zero (.sca false) .zero)
  | 2 => some ({ ctlSig .acc (R 1) (.sca false) with dRole := .dst, f := R 1, fReq := true })
  | 3 => some ({ ctlSig .acc (R 1) (.sca false) with dRole := .dst, f := R 2, fReq := true })
  | 4 => some ({ ctlSig .acc .zero .zero with dRole := .dst })
  | 5 => some ({ ctlSig .acc (R 1) .drain with dRole := .src, f := R 1, fReq := true, rnd := true })
  | 6 => some ({ ctlSig .drainDst .acc .drain with dRole := .dst, f := R 1, fReq := true, rnd := true, z := true })
  | 7 => some ({ ctlSig .acc .zero .zero with dRole := .src, f := R 1, fReq := true, rnd := true })
  | 8 => some ({ ctlSig .pred (R 1) .zero with dRole := .dst })
  | 9 => some ({ ctlSig (.sca false) (.sca false) .zero with dRole := .dst })
  | _ => none

/-- Row 0x1E_. -/
def sigRow0x1E (col : Nat) (_x : Args) : Option Sig :=
  match col with
  | 0 | 1 | 2 | 3 | 4 | 5 | 6 | 7 | 8 | 9 | 10 | 11 | 12 => some (engSig)
  | 13 | 14 => some (ctlSig .zero (R 1) .zero)
  | 15 => some ({ ctlSig (R 1) (R 1) .zero with dRole := .dst })
  | _ => none

/-- Row 0x1F_. -/
def sigRow0x1F (col : Nat) (x : Args) : Option Sig :=
  match col with
  | 8 | 9 => some (ctlSig .zero .zero .any)
  | 10 => some (selSig .zero .zero)
  | 11 => if x.b = 0 then some ({ selSig .mask .zero with dRole := .dst }) else if x.b = 1 then some ({ selSig (R 2) (.sca false) with dRole := .dst }) else none
  | 12 => if x.b = 0 then some ({ selSig (R (privWidth x.a)) .priv with dRole := .dst }) else if x.b = 1 then some (selSig .priv (R 1)) else none
  | 13 => some (ctlSig .zero (.sca false) (.sca false))
  | _ => none

/-- The operands of the instruction of opcode `op`, whose fields are `x`; none for `nop`, `br` and unassigned opcodes. -/
def sigOf (op : Nat) (x : Args) : Option Sig :=
  match op / 16 with
  | 0 => sigRow0x00 (op % 16) x
  | 1 => sigRow0x01 (op % 16) x
  | 2 => sigRow0x02 (op % 16) x
  | 3 => sigRow0x03 (op % 16) x
  | 4 => sigRow0x04 (op % 16) x
  | 6 => sigRow0x06 (op % 16) x
  | 7 => sigRow0x07 (op % 16) x
  | 8 => sigRow0x08 (op % 16) x
  | 9 => sigRow0x09 (op % 16) x
  | 10 => sigRow0x0A (op % 16) x
  | 11 => sigRow0x0B (op % 16) x
  | 12 => sigRow0x0C (op % 16) x
  | 13 => sigRow0x0D (op % 16) x
  | 14 => sigRow0x0E (op % 16) x
  | 15 => sigRow0x0F (op % 16) x
  | 16 => sigRow0x10 (op % 16) x
  | 17 => sigRow0x11 (op % 16) x
  | 18 => sigRow0x12 (op % 16) x
  | 19 => sigRow0x13 (op % 16) x
  | 20 => sigRow0x14 (op % 16) x
  | 21 => sigRow0x15 (op % 16) x
  | 24 => sigRow0x18 (op % 16) x
  | 25 => sigRow0x19 (op % 16) x
  | 26 => sigRow0x1A (op % 16) x
  | 27 => sigRow0x1B (op % 16) x
  | 28 => sigRow0x1C (op % 16) x
  | 29 => sigRow0x1D (op % 16) x
  | 30 => sigRow0x1E (op % 16) x
  | 31 => sigRow0x1F (op % 16) x
  | _ => none


/-- The seven-bit pattern of the literal port: q31, pop (R13). -/
def litField : BitVec 7 := 0x5F

/-- A class-1 field that names one of q0 to q30 (R12); as a destination bit 5 must be 0. -/
def chanField (fld : BitVec 7) (dest : Bool) : Bool :=
  bitAt fld 6 && bitsNat fld 4 0 != 31 && !(dest && bitAt fld 5)

/-- A register number is aligned to its operand width (R46). -/
def alignedReg (w : Nat) (fld : BitVec 7) : Bool := !bitAt fld 6 && fld.toNat % w == 0

/-- The qualifiers allowed by R42. -/
def Qual.ok (q : Qual) (b : BitVec 7) : Bool :=
  let sc := bitsNat b 1 0
  let ord := bitsNat b 3 2
  let prom := bitAt b 4
  bitsNat b 6 5 == 0 &&
  match q with
  | .ld => (ord == 0 && !prom) || (ord == 1 && (!prom || sc == 1 || sc == 2))
  | .st => (ord == 0 || ord == 2) && !prom
  | .fence => (ord == 1 || ord == 2 || ord == 3) && !prom

/-- What a field may hold, as R12, R14, R42, R46, R51, R144, R159 and R174 say; `dest` says the field is written, and
`bs` that the prefix reads it as a scalar register (R98). (DEDUCED, log 16.) -/
def FK.ok (k : FK) (fld : BitVec 7) (dest bs : Bool) : Bool :=
  match k with
  | .zero => fld == 0
  | .any => true
  | .vec w lit chan =>
    if bs then !bitAt fld 6
    else alignedReg w fld || (chan && chanField fld dest) || (lit && !dest && fld == litField)
  | .sca lit => !bitAt fld 6 || (lit && fld == litField)
  | .pred => decide (fld.toNat ≤ 47)
  | .mask => decide (fld.toNat ≤ 11)
  | .acc => decide (fld.toNat ≤ 3)
  | .drainDst => alignedReg 2 fld
  | .recOff => alignedReg 1 fld
  | .spec => decide (fld.toNat ≤ 19)
  | .specRw => fld == 13 || fld == 14 || fld == 16 || fld == 19
  | .priv => decide (fld.toNat ≤ 7)
  | .succ => fld == 0x40 || !bitAt fld 6
  | .qual q => q.ok fld
  | .amo f32 core => decide (selOpn fld ≤ 10) && (f32 || selOpn fld != 1) && (!core || selScope fld == 0)
  | .red f32 => decide (selOpn fld ≤ 8) && (f32 || selOpn fld != 1)
  | .redN8 => decide (4 ≤ selOpn fld) && decide (selOpn fld ≤ 8)
  | .bar => bitsNat fld 6 5 == 0 && (bitAt fld 4 || fld == 0)
  | .drain => bitsNat fld 1 0 != 3 && bitsNat fld 6 5 == 0

/-- The prefix fields an instruction uses (R16). (DEDUCED, log 16.) -/
def Sig.pfxWf (g : Sig) : Option Pfx → Bool
  | none => !g.fReq
  | some p =>
    g.pfxOk && p.rnd != 7 && (g.rnd || p.rnd == 0) && (g.z || !p.z) && (g.bs || !p.bs) &&
    decide (p.pred.toNat ≤ 47) && g.f.ok p.f g.fDst false

/-- The literal words stand exactly where the fields claim them (R13). -/
def Sig.litsWf (g : Sig) (x : Args) : Bool :=
  let bs := (x.ctl.pfx.map (·.bs)).getD false
  let claimsA := match g.a with | .vec _ true _ | .sca true => x.a == litField | _ => false
  let claimsB := match g.b with | .vec _ true _ | .sca true => !bs && x.b == litField | _ => false
  x.ctl.la.isSome == claimsA && x.ctl.lb.isSome == claimsB && x.ctl.lf.isNone

/-- The words of an instruction: its prefix, itself and its literals. -/
def Ctl.size (c : Ctl) : Nat :=
  1 + c.pfx.toList.length + c.la.toList.length + c.lb.toList.length + c.lf.toList.length

/-- Whether a field is written as a destination. -/
def DRole.isDst : DRole → Bool
  | .dst | .both => true
  | .src | .none => false

/-- The fields, the prefix and the literals are legal (R12 to R16, R46, R51). -/
def Sig.wf (g : Sig) (x : Args) : Bool :=
  let bs := (x.ctl.pfx.map (·.bs)).getD false
  g.d.ok x.d g.dRole.isDst false && g.a.ok x.a false false && g.b.ok x.b false bs &&
  g.pfxWf x.ctl.pfx && g.litsWf x && decide (x.ctl.size ≤ 3)

/-- The rules that join two fields of one instruction: `bar` without a payload (R159), the D of `fence` (R42), CG of
`mdr` (R174), and the read-only register that `wrpr` may not name (R220). -/
def joinWf (op : Nat) (x : Args) : Bool :=
  if op = 0x1C0 then bitAt x.b 4 || (x.d == 0 && x.a == 0)
  else if op = 0x1B4 then x.d == 0 || bitsNat x.b 1 0 == 3
  else if op = 0x1D5 then bitsNat x.b 4 2 == 0
  else if op = 0x1FC ∧ x.b = 1 then x.d == 0 || x.d == 2
  else true

/-- The instruction of opcode `op` with fields `x` is legal by its bits. -/
def wfArgs (op : Nat) (x : Args) : Bool :=
  match sigOf op x with
  | some g => g.wf x && joinWf op x
  | none => false

/-- The opcode of an instruction word (R39); 0 for `nop` and for a step of the device. -/
def Instr.op : Instr → Nat
  | .nop => 0
  | .sadd _ => 0x1
  | .ssub _ => 0x2
  | .smul _ => 0x3
  | .smulhS64 _ => 0x4
  | .smulhN64 _ => 0x5
  | .sdivS64 _ => 0x6
  | .sdivN64 _ => 0x7
  | .sremS64 _ => 0x8
  | .sremN64 _ => 0x9
  | .sand _ => 0xA
  | .sor _ => 0xB
  | .sxor _ => 0xC
  | .sshl _ => 0xD
  | .sshr _ => 0xE
  | .ssra _ => 0xF
  | .sminS64 _ => 0x10
  | .sminN64 _ => 0x11
  | .smaxS64 _ => 0x12
  | .smaxN64 _ => 0x13
  | .smov _ => 0x14
  | .ssel _ => 0x15
  | .rdsr _ => 0x16
  | .wrsr _ => 0x17
  | .sldk _ => 0x18
  | .smovV _ => 0x19
  | .saddI _ => 0x1A
  | .sandI _ => 0x1B
  | .sorI _ => 0x1C
  | .sxorI _ => 0x1D
  | .sshlI _ => 0x1E
  | .sshrI _ => 0x1F
  | .ssraI _ => 0x20
  | .sli _ => 0x21
  | .scmpEq _ => 0x22
  | .scmpNe _ => 0x23
  | .scmpLtS64 _ => 0x24
  | .scmpLeS64 _ => 0x25
  | .scmpLtN64 _ => 0x26
  | .scmpLeN64 _ => 0x27
  | .scmpEqI _ => 0x28
  | .scmpNeI _ => 0x29
  | .scmpLtS64I _ => 0x2A
  | .scmpLtN64I _ => 0x2B
  | .sldN8 _ => 0x30
  | .sldS8 _ => 0x31
  | .sldN16 _ => 0x32
  | .sldS16 _ => 0x33
  | .sldN32 _ => 0x34
  | .sldS32 _ => 0x35
  | .sldB64 _ => 0x36
  | .sstN8 _ => 0x37
  | .sstN16 _ => 0x38
  | .sstN32 _ => 0x39
  | .sstB64 _ => 0x3A
  | .br _ => 0x40
  | .bra _ => 0x41
  | .brx _ => 0x42
  | .call _ => 0x43
  | .ret _ => 0x44
  | .meet _ => 0x45
  | .jn _ => 0x46
  | .lv _ => 0x47
  | .exit _ => 0x48
  | .tail _ => 0x49
  | .spawn _ => 0x4A
  | .elect _ => 0x4B
  | .yield _ => 0x4C
  | .vaddS32 _ => 0x60
  | .vaddS64 _ => 0x61
  | .vaddSatS32 _ => 0x62
  | .vaddSatN32 _ => 0x63
  | .vsubS32 _ => 0x64
  | .vsubS64 _ => 0x65
  | .vsubSatS32 _ => 0x66
  | .vsubSatN32 _ => 0x67
  | .vmulS32 _ => 0x68
  | .vmulS64 _ => 0x69
  | .vmulhS32 _ => 0x6A
  | .vmulhN32 _ => 0x6B
  | .vmadS32 _ => 0x6C
  | .vmadS64 _ => 0x6D
  | .vadcN32 _ => 0x6E
  | .vsbcN32 _ => 0x6F
  | .vdivS32 _ => 0x70
  | .vdivN32 _ => 0x71
  | .vdivS64 _ => 0x72
  | .vdivN64 _ => 0x73
  | .vremS32 _ => 0x74
  | .vremN32 _ => 0x75
  | .vremS64 _ => 0x76
  | .vremN64 _ => 0x77
  | .vabsS32 _ => 0x78
  | .vabsS64 _ => 0x79
  | .vnegS32 _ => 0x7A
  | .vnegS64 _ => 0x7B
  | .vminS32 _ => 0x7C
  | .vminN32 _ => 0x7D
  | .vmaxS32 _ => 0x7E
  | .vmaxN32 _ => 0x7F
  | .vminS64 _ => 0x80
  | .vminN64 _ => 0x81
  | .vmaxS64 _ => 0x82
  | .vmaxN64 _ => 0x83
  | .vandB32 _ => 0x84
  | .vorB32 _ => 0x85
  | .vxorB32 _ => 0x86
  | .vandnB32 _ => 0x87
  | .vandB64 _ => 0x88
  | .vorB64 _ => 0x89
  | .vxorB64 _ => 0x8A
  | .vandnB64 _ => 0x8B
  | .vshlB32 _ => 0x8C
  | .vshrB32 _ => 0x8D
  | .vsraB32 _ => 0x8E
  | .vrotB32 _ => 0x8F
  | .vshlB64 _ => 0x90
  | .vshrB64 _ => 0x91
  | .vsraB64 _ => 0x92
  | .vrotB64 _ => 0x93
  | .vclzB32 _ => 0x94
  | .vclzB64 _ => 0x95
  | .vpopcB32 _ => 0x96
  | .vpopcB64 _ => 0x97
  | .vbrevB32 _ => 0x98
  | .vbrevB64 _ => 0x99
  | .vbfeS32 _ => 0x9A
  | .vbfeN32 _ => 0x9B
  | .vbfiB32 _ => 0x9C
  | .vleaB64 _ => 0x9D
  | .vmovB32 _ => 0x9E
  | .vmovB64 _ => 0x9F
  | .vaddS32I _ => 0xA0
  | .vandB32I _ => 0xA1
  | .vorB32I _ => 0xA2
  | .vxorB32I _ => 0xA3
  | .vshlB32I _ => 0xA4
  | .vshrB32I _ => 0xA5
  | .vsraB32I _ => 0xA6
  | .vrotB32I _ => 0xA7
  | .vliB32 _ => 0xA8
  | .vselB32 _ => 0xA9
  | .vselB64 _ => 0xAA
  | .vcvtS32S8 _ => 0xAB
  | .vcvtS32S16 _ => 0xAC
  | .vcvtN32N8 _ => 0xAD
  | .vcvtN32N16 _ => 0xAE
  | .vcvtS64S32 _ => 0xAF
  | .vcvtN64N32 _ => 0xB0
  | .vcvtS8S32 _ => 0xB1
  | .vcvtS16S32 _ => 0xB2
  | .vcvtN8N32 _ => 0xB3
  | .vcvtN16N32 _ => 0xB4
  | .vcvtS32S64 _ => 0xB5
  | .vcvtN32N64 _ => 0xB6
  | .vcvtS32N32 _ => 0xB7
  | .vcvtN32S32 _ => 0xB8
  | .vcmpEqB32 _ => 0xC0
  | .vcmpNeB32 _ => 0xC1
  | .vcmpLtS32 _ => 0xC2
  | .vcmpLeS32 _ => 0xC3
  | .vcmpLtN32 _ => 0xC4
  | .vcmpLeN32 _ => 0xC5
  | .vcmpEqB64 _ => 0xC6
  | .vcmpNeB64 _ => 0xC7
  | .vcmpLtS64 _ => 0xC8
  | .vcmpLeS64 _ => 0xC9
  | .vcmpLtN64 _ => 0xCA
  | .vcmpLeN64 _ => 0xCB
  | .vcmpEqB32I _ => 0xCD
  | .vcmpLtS32I _ => 0xCE
  | .vcmpLtN32I _ => 0xCF
  | .plop t _ => 0xD0 + t.toNat
  | .xshfB32 _ => 0xE0
  | .xshuB32 _ => 0xE1
  | .xshdB32 _ => 0xE2
  | .xbflB32 _ => 0xE3
  | .xvoteAny _ => 0xE4
  | .xvoteAll _ => 0xE5
  | .xvoteBal _ => 0xE6
  | .xmatchB32 _ => 0xE7
  | .xbcastB32 _ => 0xE8
  | .xshfB64 _ => 0xE9
  | .xbcastB64 _ => 0xEA
  | .xmatchB64 _ => 0xEB
  | .xredAddS32 _ => 0xF0
  | .xredMinS32 _ => 0xF1
  | .xredMaxS32 _ => 0xF2
  | .xredMinN32 _ => 0xF3
  | .xredMaxN32 _ => 0xF4
  | .xredAndB32 _ => 0xF5
  | .xredOrB32 _ => 0xF6
  | .xredXorB32 _ => 0xF7
  | .xredAddS64 _ => 0xF8
  | .xscanAddS32 _ => 0xF9
  | .xscanAddxS32 _ => 0xFA
  | .xscanMinS32 _ => 0xFB
  | .xscanMaxS32 _ => 0xFC
  | .xscanOrB32 _ => 0xFD
  | .xscanAddxS64 _ => 0xFE
  | .ffmaF32 _ => 0x100
  | .faddF32 _ => 0x101
  | .fsubF32 _ => 0x102
  | .fmulF32 _ => 0x103
  | .fminF32 _ => 0x104
  | .fmaxF32 _ => 0x105
  | .fminnF32 _ => 0x106
  | .fmaxnF32 _ => 0x107
  | .fabsF32 _ => 0x108
  | .fnegF32 _ => 0x109
  | .fcpsF32 _ => 0x10A
  | .fclassF32 _ => 0x10B
  | .frndF32 _ => 0x10C
  | .fsclF32 _ => 0x10D
  | .fgetxF32 _ => 0x10E
  | .fdot2F32H2 _ => 0x10F
  | .ffmaH2 _ => 0x110
  | .faddH2 _ => 0x111
  | .fsubH2 _ => 0x112
  | .fmulH2 _ => 0x113
  | .fminH2 _ => 0x114
  | .fmaxH2 _ => 0x115
  | .fminnH2 _ => 0x116
  | .fmaxnH2 _ => 0x117
  | .fabsH2 _ => 0x118
  | .fnegH2 _ => 0x119
  | .fcpsH2 _ => 0x11A
  | .fclassH2 _ => 0x11B
  | .frndH2 _ => 0x11C
  | .fsclH2 _ => 0x11D
  | .fgetxH2 _ => 0x11E
  | .fdot2F32Bh2 _ => 0x11F
  | .ffmaBh2 _ => 0x120
  | .faddBh2 _ => 0x121
  | .fsubBh2 _ => 0x122
  | .fmulBh2 _ => 0x123
  | .fminBh2 _ => 0x124
  | .fmaxBh2 _ => 0x125
  | .fminnBh2 _ => 0x126
  | .fmaxnBh2 _ => 0x127
  | .fabsBh2 _ => 0x128
  | .fnegBh2 _ => 0x129
  | .fcpsBh2 _ => 0x12A
  | .fclassBh2 _ => 0x12B
  | .frndBh2 _ => 0x12C
  | .fsclBh2 _ => 0x12D
  | .fgetxBh2 _ => 0x12E
  | .fdot4F32Q8 _ => 0x12F
  | .fcmpEqF32 _ => 0x130
  | .fcmpNeF32 _ => 0x131
  | .fcmpLtF32 _ => 0x132
  | .fcmpLeF32 _ => 0x133
  | .fcmpUnF32 _ => 0x134
  | .fcmpOrdF32 _ => 0x135
  | .fcvtF32F16 _ => 0x136
  | .fcvtF32Bf16 _ => 0x137
  | .fcvtH2F32 _ => 0x138
  | .fcvtBh2F32 _ => 0x139
  | .fcvtF32Q8 _ => 0x13A
  | .fcvtQ8F32 _ => 0x13B
  | .fcvtiS32F32 _ => 0x13C
  | .fcvtiN32F32 _ => 0x13D
  | .fcvtfF32S32 _ => 0x13E
  | .fcvtfF32N32 _ => 0x13F
  | .fcvtiS64F32 _ => 0x140
  | .fcvtiN64F32 _ => 0x141
  | .fcvtfF32S64 _ => 0x142
  | .fcvtfF32N64 _ => 0x143
  | .fqntQ8F32 _ => 0x144
  | .fdqntF32Q8 _ => 0x145
  | .fsqrtF32 _ => 0x146
  | .frcpF32 _ => 0x147
  | .frsqF32 _ => 0x148
  | .fex2F32 _ => 0x149
  | .flg2F32 _ => 0x14A
  | .fsinF32 _ => 0x14B
  | .fcosF32 _ => 0x14C
  | .ftnhF32 _ => 0x14D
  | .ftabF32 _ => 0x14E
  | .ldtab _ => 0x14F
  | .swtab _ => 0x150
  | .ldN8 _ => 0x180
  | .ldS8 _ => 0x181
  | .ldN16 _ => 0x182
  | .ldS16 _ => 0x183
  | .ldB32 _ => 0x184
  | .ldB64 _ => 0x185
  | .ldB128 _ => 0x186
  | .ldB32S _ => 0x187
  | .ldB64S _ => 0x188
  | .ldB128S _ => 0x189
  | .ldB32Q _ => 0x18A
  | .ldB64Q _ => 0x18B
  | .stN8 _ => 0x18C
  | .stN16 _ => 0x18D
  | .stB32 _ => 0x18E
  | .stB64 _ => 0x18F
  | .stB128 _ => 0x190
  | .stB32S _ => 0x191
  | .stB64S _ => 0x192
  | .stB128S _ => 0x193
  | .stB32Q _ => 0x194
  | .stB64Q _ => 0x195
  | .ldsN8 _ => 0x196
  | .ldsS8 _ => 0x197
  | .ldsN16 _ => 0x198
  | .ldsS16 _ => 0x199
  | .ldsB32 _ => 0x19A
  | .ldsB64 _ => 0x19B
  | .ldsB128 _ => 0x19C
  | .stsN8 _ => 0x19D
  | .stsN16 _ => 0x19E
  | .stsB32 _ => 0x19F
  | .stsB64 _ => 0x1A0
  | .stsB128 _ => 0x1A1
  | .ldncB32 _ => 0x1A2
  | .ldncB64 _ => 0x1A3
  | .ldncB128 _ => 0x1A4
  | .ldvB32 _ => 0x1A5
  | .ldvB64 _ => 0x1A6
  | .ldvB128 _ => 0x1A7
  | .pf _ => 0x1A8
  | .amoB32 _ => 0x1A9
  | .amoB64 _ => 0x1AA
  | .amosB32 _ => 0x1AB
  | .amosB64 _ => 0x1AC
  | .redN8 _ => 0x1AD
  | .redB32 _ => 0x1AE
  | .redB64 _ => 0x1AF
  | .redwF32 _ => 0x1B0
  | .redwS32 _ => 0x1B1
  | .wfinF32 _ => 0x1B2
  | .wfinS64 _ => 0x1B3
  | .fence _ => 0x1B4
  | .fsc _ => 0x1B5
  | .waddrB32 _ => 0x1B6
  | .waddrB64 _ => 0x1B7
  | .seal _ => 0x1B8
  | .unseal _ => 0x1B9
  | .bar _ => 0x1C0
  | .gbar _ => 0x1C1
  | .mbini _ => 0x1C2
  | .mbarv _ => 0x1C3
  | .mbwt _ => 0x1C4
  | .mbtry _ => 0x1C5
  | .chbind _ => 0x1C6
  | .chfree _ => 0x1C7
  | .chstat _ => 0x1C8
  | .mst _ => 0x1D0
  | .mflip _ => 0x1D1
  | .mma _ => 0x1D2
  | .mmas _ => 0x1D3
  | .mzero _ => 0x1D4
  | .mdr _ => 0x1D5
  | .mdrv _ => 0x1D6
  | .mbyp _ => 0x1D7
  | .mvote _ => 0x1D8
  | .mstat _ => 0x1D9
  | .cpy _ => 0x1E0
  | .cpyg _ => 0x1E1
  | .cpys _ => 0x1E2
  | .cpyf _ => 0x1E3
  | .ceIns _ => 0x1E4
  | .ceQry _ => 0x1E5
  | .ceAcc _ => 0x1E6
  | .ceMap _ => 0x1E7
  | .ceClr _ => 0x1E8
  | .ceSeal _ => 0x1E9
  | .tg _ => 0x1EA
  | .scnz _ => 0x1EB
  | .sctk _ => 0x1EC
  | .erel _ => 0x1ED
  | .ecan _ => 0x1EE
  | .estat _ => 0x1EF
  | .trap _ => 0x1F8
  | .brk _ => 0x1F9
  | .sret _ => 0x1FA
  | .rply _ => 0x1FA
  | .park _ => 0x1FA
  | .rst _ => 0x1FA
  | .flane _ => 0x1FB
  | .perf _ => 0x1FB
  | .rdpr _ => 0x1FC
  | .wrpr _ => 0x1FC
  | .tlbi _ => 0x1FD
  | .issueClock .. => 0
  | .fetchCodeLine .. => 0
  | .resultReturn .. => 0
  | .meetingRelease .. => 0
  | .electRelease .. => 0
  | .crossLaneRelease .. => 0
  | .fqntRelease .. => 0
  | .barRelease .. => 0
  | .gbarRelease .. => 0
  | .mbwtRelease .. => 0
  | .waddrPoll .. => 0
  | .yieldResume .. => 0
  | .heartbeatTick .. => 0
  | .writeThroughTimeout .. => 0
  | .homeWriteApply .. => 0
  | .sharerUpdate .. => 0
  | .writeAck .. => 0
  | .homeRead .. => 0
  | .multicastWindowEnd .. => 0
  | .directoryDrop .. => 0
  | .promotionProbe .. => 0
  | .porchLineExpire .. => 0
  | .reductionUnitApply .. => 0
  | .pageWalk .. => 0
  | .placementEvaluate .. => 0
  | .migrationCutOver .. => 0
  | .migrationDone .. => 0
  | .engineCommandStart .. => 0
  | .engineCommandComplete .. => 0
  | .engineQueuePush .. => 0
  | .engineFaultResume .. => 0
  | .engineFaultTimeout .. => 0
  | .coordKeyOp .. => 0
  | .tgStep .. => 0
  | .planeLoadDone .. => 0
  | .flipTakeEffect .. => 0
  | .matrixPass .. => 0
  | .handlerEntry .. => 0
  | .bind .. => 0
  | .resume .. => 0
  | .preempt .. => 0
  | .preemptEntry .. => 0
  | .preemptHandlerTimeout .. => 0
  | .contextSave .. => 0
  | .workgroupEnd .. => 0
  | .tailStart .. => 0
  | .stateWordWrite .. => 0
  | .hearthReadBlock .. => 0
  | .regionEligible .. => 0
  | .regionComplete .. => 0
  | .hearthBind .. => 0
  | .highClassPreemptWait .. => 0
  | .powerStateSet .. => 0
  | .wakeComplete .. => 0
  | .hallGrant .. => 0
  | .linkFlitSend .. => 0
  | .flitReceive .. => 0
  | .replayRequest .. => 0
  | .linkRetrainStart .. => 0
  | .linkRetrainEnd .. => 0
  | .linkDown .. => 0
  | .peerPacketReceive .. => 0
  | .hostMemRead .. => 0
  | .hostMemWrite .. => 0
  | .backInvalidateResponse .. => 0
  | .hostSnoop .. => 0
  | .reset .. => 0
  | .thermalThrottle .. => 0
  | .thermalShutdown .. => 0
  | .devstatWrite .. => 0
  | .registerTable .. => 0
  | .deregisterTable .. => 0
  | .deregistrationComplete .. => 0
  | .writeRouteEntry .. => 0
  | .xelasPortReenable .. => 0
  | .portReenableComplete .. => 0
  | .xelasPortDeclareDown .. => 0
  | .deadlineDemandFloor .. => 0
  | .powerLimit .. => 0
  | .attestation .. => 0
  | .eventQueueEntry .. => 0
  | .replayThreshold .. => 0
  | .nodeNumber .. => 0
  | .certificateChain .. => 0
  | .transferFw .. => 0
  | .activateFw .. => 0
  | .matrixOperationComplete .. => 0

/-- The fields of an instruction word of format A, I, M or E; none for `nop`, `br` and the device's steps. -/
def Instr.args? : Instr → Option Args
  | .sadd x => some x
  | .ssub x => some x
  | .smul x => some x
  | .smulhS64 x => some x
  | .smulhN64 x => some x
  | .sdivS64 x => some x
  | .sdivN64 x => some x
  | .sremS64 x => some x
  | .sremN64 x => some x
  | .sand x => some x
  | .sor x => some x
  | .sxor x => some x
  | .sshl x => some x
  | .sshr x => some x
  | .ssra x => some x
  | .sminS64 x => some x
  | .sminN64 x => some x
  | .smaxS64 x => some x
  | .smaxN64 x => some x
  | .smov x => some x
  | .ssel x => some x
  | .rdsr x => some x
  | .wrsr x => some x
  | .sldk x => some x
  | .smovV x => some x
  | .saddI x => some x
  | .sandI x => some x
  | .sorI x => some x
  | .sxorI x => some x
  | .sshlI x => some x
  | .sshrI x => some x
  | .ssraI x => some x
  | .sli x => some x
  | .scmpEq x => some x
  | .scmpNe x => some x
  | .scmpLtS64 x => some x
  | .scmpLeS64 x => some x
  | .scmpLtN64 x => some x
  | .scmpLeN64 x => some x
  | .scmpEqI x => some x
  | .scmpNeI x => some x
  | .scmpLtS64I x => some x
  | .scmpLtN64I x => some x
  | .sldN8 x => some x
  | .sldS8 x => some x
  | .sldN16 x => some x
  | .sldS16 x => some x
  | .sldN32 x => some x
  | .sldS32 x => some x
  | .sldB64 x => some x
  | .sstN8 x => some x
  | .sstN16 x => some x
  | .sstN32 x => some x
  | .sstB64 x => some x
  | .bra x => some x
  | .brx x => some x
  | .call x => some x
  | .ret x => some x
  | .meet x => some x
  | .jn x => some x
  | .lv x => some x
  | .exit x => some x
  | .tail x => some x
  | .spawn x => some x
  | .elect x => some x
  | .yield x => some x
  | .vaddS32 x => some x
  | .vaddS64 x => some x
  | .vaddSatS32 x => some x
  | .vaddSatN32 x => some x
  | .vsubS32 x => some x
  | .vsubS64 x => some x
  | .vsubSatS32 x => some x
  | .vsubSatN32 x => some x
  | .vmulS32 x => some x
  | .vmulS64 x => some x
  | .vmulhS32 x => some x
  | .vmulhN32 x => some x
  | .vmadS32 x => some x
  | .vmadS64 x => some x
  | .vadcN32 x => some x
  | .vsbcN32 x => some x
  | .vdivS32 x => some x
  | .vdivN32 x => some x
  | .vdivS64 x => some x
  | .vdivN64 x => some x
  | .vremS32 x => some x
  | .vremN32 x => some x
  | .vremS64 x => some x
  | .vremN64 x => some x
  | .vabsS32 x => some x
  | .vabsS64 x => some x
  | .vnegS32 x => some x
  | .vnegS64 x => some x
  | .vminS32 x => some x
  | .vminN32 x => some x
  | .vmaxS32 x => some x
  | .vmaxN32 x => some x
  | .vminS64 x => some x
  | .vminN64 x => some x
  | .vmaxS64 x => some x
  | .vmaxN64 x => some x
  | .vandB32 x => some x
  | .vorB32 x => some x
  | .vxorB32 x => some x
  | .vandnB32 x => some x
  | .vandB64 x => some x
  | .vorB64 x => some x
  | .vxorB64 x => some x
  | .vandnB64 x => some x
  | .vshlB32 x => some x
  | .vshrB32 x => some x
  | .vsraB32 x => some x
  | .vrotB32 x => some x
  | .vshlB64 x => some x
  | .vshrB64 x => some x
  | .vsraB64 x => some x
  | .vrotB64 x => some x
  | .vclzB32 x => some x
  | .vclzB64 x => some x
  | .vpopcB32 x => some x
  | .vpopcB64 x => some x
  | .vbrevB32 x => some x
  | .vbrevB64 x => some x
  | .vbfeS32 x => some x
  | .vbfeN32 x => some x
  | .vbfiB32 x => some x
  | .vleaB64 x => some x
  | .vmovB32 x => some x
  | .vmovB64 x => some x
  | .vaddS32I x => some x
  | .vandB32I x => some x
  | .vorB32I x => some x
  | .vxorB32I x => some x
  | .vshlB32I x => some x
  | .vshrB32I x => some x
  | .vsraB32I x => some x
  | .vrotB32I x => some x
  | .vliB32 x => some x
  | .vselB32 x => some x
  | .vselB64 x => some x
  | .vcvtS32S8 x => some x
  | .vcvtS32S16 x => some x
  | .vcvtN32N8 x => some x
  | .vcvtN32N16 x => some x
  | .vcvtS64S32 x => some x
  | .vcvtN64N32 x => some x
  | .vcvtS8S32 x => some x
  | .vcvtS16S32 x => some x
  | .vcvtN8N32 x => some x
  | .vcvtN16N32 x => some x
  | .vcvtS32S64 x => some x
  | .vcvtN32N64 x => some x
  | .vcvtS32N32 x => some x
  | .vcvtN32S32 x => some x
  | .vcmpEqB32 x => some x
  | .vcmpNeB32 x => some x
  | .vcmpLtS32 x => some x
  | .vcmpLeS32 x => some x
  | .vcmpLtN32 x => some x
  | .vcmpLeN32 x => some x
  | .vcmpEqB64 x => some x
  | .vcmpNeB64 x => some x
  | .vcmpLtS64 x => some x
  | .vcmpLeS64 x => some x
  | .vcmpLtN64 x => some x
  | .vcmpLeN64 x => some x
  | .vcmpEqB32I x => some x
  | .vcmpLtS32I x => some x
  | .vcmpLtN32I x => some x
  | .plop _ x => some x
  | .xshfB32 x => some x
  | .xshuB32 x => some x
  | .xshdB32 x => some x
  | .xbflB32 x => some x
  | .xvoteAny x => some x
  | .xvoteAll x => some x
  | .xvoteBal x => some x
  | .xmatchB32 x => some x
  | .xbcastB32 x => some x
  | .xshfB64 x => some x
  | .xbcastB64 x => some x
  | .xmatchB64 x => some x
  | .xredAddS32 x => some x
  | .xredMinS32 x => some x
  | .xredMaxS32 x => some x
  | .xredMinN32 x => some x
  | .xredMaxN32 x => some x
  | .xredAndB32 x => some x
  | .xredOrB32 x => some x
  | .xredXorB32 x => some x
  | .xredAddS64 x => some x
  | .xscanAddS32 x => some x
  | .xscanAddxS32 x => some x
  | .xscanMinS32 x => some x
  | .xscanMaxS32 x => some x
  | .xscanOrB32 x => some x
  | .xscanAddxS64 x => some x
  | .ffmaF32 x => some x
  | .faddF32 x => some x
  | .fsubF32 x => some x
  | .fmulF32 x => some x
  | .fminF32 x => some x
  | .fmaxF32 x => some x
  | .fminnF32 x => some x
  | .fmaxnF32 x => some x
  | .fabsF32 x => some x
  | .fnegF32 x => some x
  | .fcpsF32 x => some x
  | .fclassF32 x => some x
  | .frndF32 x => some x
  | .fsclF32 x => some x
  | .fgetxF32 x => some x
  | .fdot2F32H2 x => some x
  | .ffmaH2 x => some x
  | .faddH2 x => some x
  | .fsubH2 x => some x
  | .fmulH2 x => some x
  | .fminH2 x => some x
  | .fmaxH2 x => some x
  | .fminnH2 x => some x
  | .fmaxnH2 x => some x
  | .fabsH2 x => some x
  | .fnegH2 x => some x
  | .fcpsH2 x => some x
  | .fclassH2 x => some x
  | .frndH2 x => some x
  | .fsclH2 x => some x
  | .fgetxH2 x => some x
  | .fdot2F32Bh2 x => some x
  | .ffmaBh2 x => some x
  | .faddBh2 x => some x
  | .fsubBh2 x => some x
  | .fmulBh2 x => some x
  | .fminBh2 x => some x
  | .fmaxBh2 x => some x
  | .fminnBh2 x => some x
  | .fmaxnBh2 x => some x
  | .fabsBh2 x => some x
  | .fnegBh2 x => some x
  | .fcpsBh2 x => some x
  | .fclassBh2 x => some x
  | .frndBh2 x => some x
  | .fsclBh2 x => some x
  | .fgetxBh2 x => some x
  | .fdot4F32Q8 x => some x
  | .fcmpEqF32 x => some x
  | .fcmpNeF32 x => some x
  | .fcmpLtF32 x => some x
  | .fcmpLeF32 x => some x
  | .fcmpUnF32 x => some x
  | .fcmpOrdF32 x => some x
  | .fcvtF32F16 x => some x
  | .fcvtF32Bf16 x => some x
  | .fcvtH2F32 x => some x
  | .fcvtBh2F32 x => some x
  | .fcvtF32Q8 x => some x
  | .fcvtQ8F32 x => some x
  | .fcvtiS32F32 x => some x
  | .fcvtiN32F32 x => some x
  | .fcvtfF32S32 x => some x
  | .fcvtfF32N32 x => some x
  | .fcvtiS64F32 x => some x
  | .fcvtiN64F32 x => some x
  | .fcvtfF32S64 x => some x
  | .fcvtfF32N64 x => some x
  | .fqntQ8F32 x => some x
  | .fdqntF32Q8 x => some x
  | .fsqrtF32 x => some x
  | .frcpF32 x => some x
  | .frsqF32 x => some x
  | .fex2F32 x => some x
  | .flg2F32 x => some x
  | .fsinF32 x => some x
  | .fcosF32 x => some x
  | .ftnhF32 x => some x
  | .ftabF32 x => some x
  | .ldtab x => some x
  | .swtab x => some x
  | .ldN8 x => some x
  | .ldS8 x => some x
  | .ldN16 x => some x
  | .ldS16 x => some x
  | .ldB32 x => some x
  | .ldB64 x => some x
  | .ldB128 x => some x
  | .ldB32S x => some x
  | .ldB64S x => some x
  | .ldB128S x => some x
  | .ldB32Q x => some x
  | .ldB64Q x => some x
  | .stN8 x => some x
  | .stN16 x => some x
  | .stB32 x => some x
  | .stB64 x => some x
  | .stB128 x => some x
  | .stB32S x => some x
  | .stB64S x => some x
  | .stB128S x => some x
  | .stB32Q x => some x
  | .stB64Q x => some x
  | .ldsN8 x => some x
  | .ldsS8 x => some x
  | .ldsN16 x => some x
  | .ldsS16 x => some x
  | .ldsB32 x => some x
  | .ldsB64 x => some x
  | .ldsB128 x => some x
  | .stsN8 x => some x
  | .stsN16 x => some x
  | .stsB32 x => some x
  | .stsB64 x => some x
  | .stsB128 x => some x
  | .ldncB32 x => some x
  | .ldncB64 x => some x
  | .ldncB128 x => some x
  | .ldvB32 x => some x
  | .ldvB64 x => some x
  | .ldvB128 x => some x
  | .pf x => some x
  | .amoB32 x => some x
  | .amoB64 x => some x
  | .amosB32 x => some x
  | .amosB64 x => some x
  | .redN8 x => some x
  | .redB32 x => some x
  | .redB64 x => some x
  | .redwF32 x => some x
  | .redwS32 x => some x
  | .wfinF32 x => some x
  | .wfinS64 x => some x
  | .fence x => some x
  | .fsc x => some x
  | .waddrB32 x => some x
  | .waddrB64 x => some x
  | .seal x => some x
  | .unseal x => some x
  | .bar x => some x
  | .gbar x => some x
  | .mbini x => some x
  | .mbarv x => some x
  | .mbwt x => some x
  | .mbtry x => some x
  | .chbind x => some x
  | .chfree x => some x
  | .chstat x => some x
  | .mst x => some x
  | .mflip x => some x
  | .mma x => some x
  | .mmas x => some x
  | .mzero x => some x
  | .mdr x => some x
  | .mdrv x => some x
  | .mbyp x => some x
  | .mvote x => some x
  | .mstat x => some x
  | .cpy x => some x
  | .cpyg x => some x
  | .cpys x => some x
  | .cpyf x => some x
  | .ceIns x => some x
  | .ceQry x => some x
  | .ceAcc x => some x
  | .ceMap x => some x
  | .ceClr x => some x
  | .ceSeal x => some x
  | .tg x => some x
  | .scnz x => some x
  | .sctk x => some x
  | .erel x => some x
  | .ecan x => some x
  | .estat x => some x
  | .trap x => some x
  | .brk x => some x
  | .sret x => some x
  | .rply x => some x
  | .park x => some x
  | .rst x => some x
  | .flane x => some x
  | .perf x => some x
  | .rdpr x => some x
  | .wrpr x => some x
  | .tlbi x => some x
  | .nop .. => none
  | .br .. => none
  | .issueClock .. => none
  | .fetchCodeLine .. => none
  | .resultReturn .. => none
  | .meetingRelease .. => none
  | .electRelease .. => none
  | .crossLaneRelease .. => none
  | .fqntRelease .. => none
  | .barRelease .. => none
  | .gbarRelease .. => none
  | .mbwtRelease .. => none
  | .waddrPoll .. => none
  | .yieldResume .. => none
  | .heartbeatTick .. => none
  | .writeThroughTimeout .. => none
  | .homeWriteApply .. => none
  | .sharerUpdate .. => none
  | .writeAck .. => none
  | .homeRead .. => none
  | .multicastWindowEnd .. => none
  | .directoryDrop .. => none
  | .promotionProbe .. => none
  | .porchLineExpire .. => none
  | .reductionUnitApply .. => none
  | .pageWalk .. => none
  | .placementEvaluate .. => none
  | .migrationCutOver .. => none
  | .migrationDone .. => none
  | .engineCommandStart .. => none
  | .engineCommandComplete .. => none
  | .engineQueuePush .. => none
  | .engineFaultResume .. => none
  | .engineFaultTimeout .. => none
  | .coordKeyOp .. => none
  | .tgStep .. => none
  | .planeLoadDone .. => none
  | .flipTakeEffect .. => none
  | .matrixPass .. => none
  | .handlerEntry .. => none
  | .bind .. => none
  | .resume .. => none
  | .preempt .. => none
  | .preemptEntry .. => none
  | .preemptHandlerTimeout .. => none
  | .contextSave .. => none
  | .workgroupEnd .. => none
  | .tailStart .. => none
  | .stateWordWrite .. => none
  | .hearthReadBlock .. => none
  | .regionEligible .. => none
  | .regionComplete .. => none
  | .hearthBind .. => none
  | .highClassPreemptWait .. => none
  | .powerStateSet .. => none
  | .wakeComplete .. => none
  | .hallGrant .. => none
  | .linkFlitSend .. => none
  | .flitReceive .. => none
  | .replayRequest .. => none
  | .linkRetrainStart .. => none
  | .linkRetrainEnd .. => none
  | .linkDown .. => none
  | .peerPacketReceive .. => none
  | .hostMemRead .. => none
  | .hostMemWrite .. => none
  | .backInvalidateResponse .. => none
  | .hostSnoop .. => none
  | .reset .. => none
  | .thermalThrottle .. => none
  | .thermalShutdown .. => none
  | .devstatWrite .. => none
  | .registerTable .. => none
  | .deregisterTable .. => none
  | .deregistrationComplete .. => none
  | .writeRouteEntry .. => none
  | .xelasPortReenable .. => none
  | .portReenableComplete .. => none
  | .xelasPortDeclareDown .. => none
  | .deadlineDemandFloor .. => none
  | .powerLimit .. => none
  | .attestation .. => none
  | .eventQueueEntry .. => none
  | .replayThreshold .. => none
  | .nodeNumber .. => none
  | .certificateChain .. => none
  | .transferFw .. => none
  | .activateFw .. => none
  | .matrixOperationComplete .. => none

/-- Instructions that share an opcode are told apart by their last field (R44, R217, R219, R220). -/
def Instr.selects (i : Instr) : Bool :=
  match i with
  | .sret x | .flane x | .rdpr x => x.b == 0
  | .rply x | .perf x | .wrpr x => x.b == 1
  | .park x => x.b == 2
  | .rst x => x.b == 3
  | _ => true

/-- The instruction's bits are legal: nothing here depends on a register, a header or the channel table. -/
def Instr.wf (i : Instr) : Bool :=
  match i with
  | .br x => decide (x.pred.toNat ≤ 47)
  | _ =>
    match i.args? with
    | some x => wfArgs i.op x && i.selects
    | none => true

end Sys2Proof
end

