-- ==== Sys2Proof/Machine/Ops.lean ====
section
/-! DEFINITION. The named operations on the state: reading and writing registers, the lanes of an issue group, taking a
trap and returning from one, ending a thread, and the error log. -/

namespace Sys2Proof.Machine

/-- What an instruction answers. -/
abbrev Res := Host.Outcome State Fault Refusal

/-- The best of a list under `better`, the first of equals. -/
def bestOf {α : Type} (better : α → α → Bool) : List α → Option α
  | [] => none
  | a :: rest => some (rest.foldl (fun b x => if better x b then x else b) a)

/-! ### Reaching the parts of the state -/

def State.wgOf (s : State) (w : Nat) : Workgroup := Tab.get {} s.wgs w
def State.modWg (s : State) (w : Nat) (f : Workgroup → Workgroup) : State := { s with wgs := Tab.modify s.wgs w f }
def State.coreOf (s : State) (c : Nat) : Core := Tab.get {} s.cores c
def State.modCore (s : State) (c : Nat) (f : Core → Core) : State :=
  { s with cores := Tab.put s.cores c (f (s.coreOf c)) }
def State.dieAt (s : State) (d : Nat) : Die := Tab.get {} s.dies d
def State.modDie (s : State) (d : Nat) (f : Die → Die) : State := { s with dies := Tab.put s.dies d (f (s.dieAt d)) }

/-- The die and the cluster of a device-wide core number (R3). -/
def dieOfCore (c : Nat) : Nat := c / 64
def clusterOfCore (c : Nat) : Nat := c % 64 / 4

def noThread : Thread := { tid := 0, pc := ⟨0, 0⟩ }
def Workgroup.thread (g : Workgroup) (tid : Nat) : Thread := Tab.get noThread g.threads tid
def Workgroup.modThread (g : Workgroup) (tid : Nat) (f : Thread → Thread) : Workgroup :=
  { g with threads := Tab.modify g.threads tid f }
def Workgroup.hw (g : Workgroup) (h : Nat) : HWarp := Tab.get {} g.hwarps h
def Workgroup.modHw (g : Workgroup) (h : Nat) (f : HWarp → HWarp) : Workgroup :=
  { g with hwarps := Tab.put g.hwarps h (f (g.hw h)) }

/-- Home warp, home lane and octet of a thread (R225); the octet is numbered over the workgroup. -/
def Workgroup.home (g : Workgroup) (tid : Nat) : Nat := tid / g.hdr.width
def Workgroup.laneOf (g : Workgroup) (tid : Nat) : Nat := tid % g.hdr.width
def octetOf (tid : Nat) : Nat := tid / 8

/-- A free choice: a number nothing is known of, and the counter moved on. (DESIGN CHOICE, log 3.) -/
def State.draw (s : State) : Nat × State := (Config.choice s.fresh, { s with fresh := s.fresh + 1 })

/-! ### Roles (R27) -/

/-- The role of home warp `h`. -/
def roleAt : List Role → Nat → Option Role
  | [], _ => none
  | r :: rs, h => if h < r.warps then some r else roleAt rs (h - r.warps)

def Hdr.roleKind (x : Hdr) (h : Nat) : Nat := ((roleAt x.roles h).map (·.kind)).getD 0
/-- Vector registers of a thread of home warp `h`. -/
def Hdr.budget (x : Hdr) (h : Nat) : Nat := ((roleAt x.roles h).map (·.vregs)).getD x.vregs
/-- Accumulator tiles of an octet of home warp `h`. -/
def Hdr.tilesAt (x : Hdr) (h : Nat) : Nat :=
  if x.roles = [] then x.tiles else if x.roleKind h = 2 ∨ x.roleKind h = 3 then x.tiles else 0

/-! ### Registers (R45, R46) -/

def Thread.readV (t : Thread) (n : Nat) : W32 := Tab.get 0 t.v n
def Thread.writeV (t : Thread) (n : Nat) (x : W32) : Thread :=
  { t with v := Tab.set 0 t.v n x, spoilt := t.spoilt.filter (· != .v n) }

/-- `w` consecutive registers, the low word in the first. -/
def Thread.readVec (t : Thread) (n w : Nat) : W128 :=
  match w with
  | 1 => (t.readV n).setWidth 128
  | 2 => (t.readV (n + 1) ++ t.readV n).setWidth 128
  | _ => t.readV (n + 3) ++ t.readV (n + 2) ++ t.readV (n + 1) ++ t.readV n

def Thread.writeVec (t : Thread) (n w : Nat) (x : W128) : Thread :=
  (List.range w).foldl (fun t i => t.writeV (n + i) (x.extractLsb' (32 * i) 32)) t

/-- A pair as one 64-bit value. -/
def Thread.readPair (t : Thread) (n : Nat) : W64 := t.readV (n + 1) ++ t.readV n

/-- p0 reads 1. -/
def Thread.readP (t : Thread) (n : Nat) : Bool := n == 0 || t.p.getLsbD n
/-- Writes to p0 are discarded. -/
def Thread.writeP (t : Thread) (n : Nat) (b : Bool) : Thread :=
  if n = 0 then t
  else
    { t with
      p := if b then t.p ||| BitVec.twoPow 48 n else t.p &&& ~~~(BitVec.twoPow 48 n), spoilt := t.spoilt.filter (· != .p n) }

def HWarp.readS (h : HWarp) (n : Nat) : W64 := Tab.get 0 h.s n
def HWarp.writeS (h : HWarp) (n : Nat) (x : W64) : HWarp :=
  { h with s := Tab.set 0 h.s n x, spoilt := h.spoilt.filter (· != n) }
def HWarp.readK (h : HWarp) (n : Nat) : W64 := Tab.get 0 h.k n
def HWarp.writeK (h : HWarp) (n : Nat) (x : W64) : HWarp := { h with k := Tab.set 0 h.k n x }
/-- Bit `i` of a mask. -/
def HWarp.bitK (h : HWarp) (n i : Nat) : Bool := (h.readK n).getLsbD i
def setBit (x : W64) (i : Nat) (b : Bool) : W64 :=
  if b then x ||| BitVec.twoPow 64 i else x &&& ~~~(BitVec.twoPow 64 i)
def HWarp.setK (h : HWarp) (n i : Nat) (b : Bool) : HWarp := h.writeK n (setBit (h.readK n) i b)

/-- A value on its way arrives in its register. -/
def Workgroup.arrive (g : Workgroup) (tid : Nat) (w : Write) : Workgroup :=
  match w.dest with
  | .v n => g.modThread tid (·.writeV n (w.val.setWidth 32))
  | .p n => g.modThread tid (·.writeP n (w.val.getLsbD 0))
  | .s n => g.modHw (g.home tid) (·.writeS n w.val)

/-! ### The lanes of the issuing group -/

/-- A lane of the issuing formed warp: its thread and home warp as they were before the group (R22), and whether the
instruction's prefix makes it active (R98). -/
structure Lane where
  tid : Nat
  lane : Nat
  hw : Nat
  t : Thread
  h : HWarp
  act : Bool
  deriving DecidableEq, Repr

/-- The registers the group's sources are read from. -/
def Cur.source (c : Cur) (s : State) : Workgroup := c.snap.getD (s.wgOf c.wg)

/-- R98: active where the predicate XOR NEG is 1; without a prefix, everywhere. -/
def predOn (pfx : Option Pfx) (t : Thread) : Bool :=
  match pfx with
  | none => true
  | some p => t.readP p.pred.toNat != p.neg

def laneAt (g : Workgroup) (pfx : Option Pfx) (tid : Nat) : Lane :=
  let t := g.thread tid
  { tid, lane := g.laneOf tid, hw := g.home tid, t, h := g.hw (g.home tid), act := predOn pfx t }

/-- The lanes of the group, in ascending home lane. -/
def lanesOf (s : State) (c : Cur) (pfx : Option Pfx) : List Lane := c.lanes.map (laneAt (c.source s) pfx)

/-- An instruction acts on the group that is issuing; with none it changes nothing. -/
def onGroup (s : State) (f : Cur → State) : Res :=
  match s.cur with
  | none => .next s
  | some c => .next (f c)

/-- The home warps of some lanes, each once, ascending. -/
def homesOf (ls : List Lane) : List Nat := (List.range 128).filter fun h => ls.any fun l => l.hw == h

/-! ### Taking a trap (R340 to R342) -/

/-- A trap cause: its code and `tval`. -/
abbrev Cause := Nat × W64

/-- The trap of a lane at the instruction whose first word is in `slot` of packet `pkt`: `%tcause`, `tpos` and `tval` are
written; a second trap of the group waits for the end of the first (R341). -/
def Thread.trap (pkt slot : Nat) (k : Cause) (t : Thread) : Thread :=
  match t.trapSlot with
  | none => { t with
      trapSlot := some slot, tcause := BitVec.ofNat 8 k.1, tval := k.2, memTrap := false, wholeTrap := false,
      tpos := (0 : BitVec 3) ++ BitVec.ofNat 2 slot ++ BitVec.ofNat 27 pkt }
  | some _ => { t with again := t.again ++ [⟨pkt, slot⟩] }

def Workgroup.trapLane (g : Workgroup) (c : Cur) (tid : Nat) (k : Cause) : Workgroup :=
  g.modThread tid (Thread.trap c.pc.pkt c.slot k)

/-- The illegal-encoding trap; `tval` is the instruction word. -/
def illegal (c : Cur) : Cause := (0x01, c.word.setWidth 64)
/-- The settle-hazard trap. -/
def hazard (c : Cur) : Cause := (0x02, c.word.setWidth 64)

/-- The handler is entered: privileged, at slot 0 of its entry packet (R342). -/
def Thread.enter (entry : Nat) (t : Thread) : Thread :=
  { t with priv := true, depthIn := t.depth, pc := ⟨entry, 0⟩, hold := .ready, trapSlot := none, alone := [] }

/-- The end of a handler (R217): `%tcause` reads 0 and the thread is no longer privileged; it executes `todo` one by one,
each alone, and then goes on at `after`. (DEDUCED, log 45.) -/
def Thread.leave (todo : List PC) (after : PC) (t : Thread) : Thread :=
  { t with
    priv := false, tcause := 0, hold := .ready, wholeTrap := false, again := [], alone := todo
    pc := todo.headD after, cont := if todo = [] then none else some after
    contSettle := todo != [] && t.contSettle }

/-- An execution shared by several threads (R341) is refused whole when an active thread of it meets a cause: that thread
takes its own code, every other active thread the code of the first that met one. -/
def sharedCause (cause : Lane → Option Cause) (ls : List Lane) (l : Lane) : Option Cause :=
  match ls.findSome? cause with
  | none => none
  | some first => some ((cause l).getD first)

/-- The threads ended by `exit` (R94): the thread's bits in the twelve masks and in `%faultm` are cleared. -/
def Workgroup.endThread (g : Workgroup) (tid : Nat) (byTail : Bool) : Workgroup :=
  let i := g.laneOf tid
  let g := g.modThread tid fun t =>
    { t with ended := true, tailed := byTail, hold := .ready, priv := false, trapSlot := none, again := [], alone := [] }
  g.modHw (g.home tid) fun h =>
    { (List.range 12).foldl (fun h n => h.setK n i false) h with faultm := setBit h.faultm i false }

/-- Threads leave the release sets they were waiting in. -/
def Workgroup.unset (g : Workgroup) (ts : List Nat) : Workgroup :=
  { g with relSets := (g.relSets.map fun r => { r with tids := r.tids.filter fun t => !ts.contains t }).filter fun r =>
      !r.tids.isEmpty }

/-- Threads stand before their group under a hold, which the instruction in the current slot asks for. -/
def Workgroup.holdAt (g : Workgroup) (c : Cur) (hs : List (Nat × Hold)) : Workgroup :=
  hs.foldl (fun g x => g.modThread x.1 fun t => { t with pc := c.pc, hold := x.2, heldSlot := c.slot }) g

/-- Lanes that do not issue now: their PC returns to the group under a hold, and they leave the group and the release set
they were in. -/
def State.holdLanes (s : State) (c : Cur) (hs : List (Nat × Hold)) : State :=
  let s := s.modWg c.wg fun g => (g.holdAt c hs).unset (hs.map (·.1))
  { s with cur := s.cur.map fun c => { c with lanes := c.lanes.filter fun t => !(hs.any fun x => x.1 = t) } }

/-- No lane of the group issues now: some under a hold, the others ready before it; a release set stays one, in its place.
(DEDUCED, log 64.) -/
def State.holdGroup (s : State) (c : Cur) (hs : List (Nat × Hold)) : State :=
  let s := s.modWg c.wg fun g =>
    (c.lanes.foldl (fun g t => g.modThread t fun t => { t with pc := c.pc }) g).holdAt c hs
  { s with cur := s.cur.map fun c => { c with lanes := [] } }

/-- How many of the waits before the instruction in a slot are over, and one more of them. -/
def Thread.passed (t : Thread) (slot : Nat) : Nat := t.stage / 4 ^ slot % 4
def Thread.pass (t : Thread) (n : Nat := 1) : Thread := { t with hold := .ready, stage := t.stage + n * 4 ^ t.heldSlot }

/-- The trap a thread owes for the writes that failed: that of the one it issued first (R139, R340). -/
def Thread.owed (t : Thread) : Option Cause := t.failed.head?.map fun f => (f.code, f.va)
/-- A write that failed, in its place in the order of issue. -/
def Thread.fail (t : Thread) (f : FailedWrite) : Thread :=
  { t with failed := (t.failed.filter fun e => e.seq ≤ f.seq) ++ f :: t.failed.filter fun e => f.seq < e.seq }

/-- Memory of a work counter (R219). -/
def Workgroup.count (g : Workgroup) (n k : Nat) : Workgroup :=
  { g with perf := Tab.set 0 g.perf n (Tab.get 0 g.perf n + BitVec.ofNat 64 k) }

/-! ### Meetings (R87, R89) -/

/-- The meeting register: ADDR, MASK, VALID (R87). -/
def meetWord (addr mask : Nat) : W32 := BitVec.ofNat 32 (addr % 2 ^ 27 + mask % 16 * 2 ^ 27 + 2 ^ 31)
def meetAddr (m : W32) : Nat := bitsNat m 26 0
def meetMask (m : W32) : Nat := bitsNat m 30 27
def meetValid (m : W32) : Bool := bitAt m 31

/-- The PC is at the meeting address; a handler's own meetings are those pushed in it. (DEDUCED, log 39.) -/
def Thread.atMeeting (t : Thread) : Bool :=
  meetValid t.meet && t.pc == ⟨meetAddr t.meet, 0⟩ && t.alone.isEmpty && (!t.priv || decide (t.depthIn < t.depth))

/-! ### The error log (R348) -/

/-- The words of an entry. -/
def logEntry (addr : Nat) (unit kind cls code asid : Nat) (core : Option Nat) (synd tick : W64) : LogEntry :=
  { w0 := BitVec.ofNat 64 (addr % 2 ^ 52),
    w1 := BitVec.ofNat 64 (unit % 4096 + kind * 2 ^ 12 + cls * 2 ^ 16 + code % 256 * 2 ^ 24 + asid * 2 ^ 32 +
      (match core with | some c => c * 2 ^ 48 + 2 ^ 55 | none => 0)),
    w2 := synd, w3 := tick }

/-- The entry of log count c goes to entry c mod 256; one of class 2 or above raises MSI-X vector 2 (R407). -/
def State.log (s : State) (die : Nat) (e : LogEntry) : State :=
  let s := if 2 ≤ bitsNat e.w1 23 16 then { s with out := s.out ++ [.msix 2] } else s
  s.modDie die fun d => { d with log := Tab.put d.log (d.elcnt.toNat % 256) e, elcnt := d.elcnt + 1 }

/-! ### Fault domains (R346) -/

/-- A region is to end with a status; the first status stays. -/
def State.endRegion (s : State) (b status : Nat) : State :=
  { s with regions := Tab.modify s.regions b fun r => { r with ending := some (r.ending.getD status) } }

/-- An escalation to the parent: it applies its own FDP with STATUS 8, once. `fuel` bounds the levels; there are no more than
regions. (DEDUCED, log 72.) -/
def State.escalate (s : State) (b : Nat) : Nat → State
  | 0 => s
  | fuel + 1 =>
    match (Tab.find s.regions b).bind (·.parentRun) with
    | none => s
    | some p =>
      match Tab.find s.regions p with
      | none => s
      | some r =>
        if r.res.fdp = 0 ∨ r.ending.isSome then s
        else
          let s := r.kids.foldl (fun s k =>
            if (Tab.find s.regions k).any (·.state = 3) then s.endRegion k 8 else s) (s.endRegion p 8)
          if r.res.fdp = 2 then s.escalate p fuel else s

/-- R346 on one workgroup: its region ends, or only the faulting threads do (FDP 0). (DEDUCED, log 72.) -/
def State.applyFdp (s : State) (w tid : Nat) : State :=
  let g := s.wgOf w
  match Tab.find s.regions g.block with
  | none => s.modWg w (·.endThread tid false)
  | some r =>
    if r.res.fdp = 0 then s.modWg w (·.endThread tid false)
    else
      let s := s.endRegion g.block 7
      if r.res.fdp = 2 then s.escalate g.block s.regions.length else s

/-- R345, R346: an unhandled fault is logged with class 9 and decided by the region's FDP. -/
def State.unhandled (s : State) (w tid : Nat) : State :=
  let g := s.wgOf w
  let t := g.thread tid
  let synd : W64 := (0 : BitVec 24) ++ t.tpos ++ t.tcause
  let s := s.log (dieOfCore g.core) (logEntry t.tval.toNat (g.core % 64) 3 9 t.tcause.toNat g.ctx.asid (some g.core)
    synd s.hb)
  (s.modWg w fun g => g.modThread tid fun t => { t with trapSlot := none, hold := .ready }).applyFdp w tid

/-- Whether a trap of the thread has a handler: the region has one and the thread is not already in it (R344). -/
def handled (g : Workgroup) (t : Thread) : Bool := g.fhnd != 0 && !t.priv

/-- R342: the threads enter the handler together, as a release set; a thread without a handler is unhandled. -/
def State.enterHandlers (s : State) (w : Nat) (ts : List Nat) : State :=
  let g := s.wgOf w
  let ins := ts.filter fun t => handled g (g.thread t)
  let outs := ts.filter fun t => !handled g (g.thread t)
  let s := s.modWg w fun g =>
    let g := ins.foldl (fun g t => g.modThread t (Thread.enter g.fhEntry)) g
    if ins = [] then g else { g with relSets := g.relSets ++ [⟨ins, false⟩] }
  outs.foldl (fun s t => s.unhandled w t) s

end Sys2Proof.Machine
end

