-- ==== Sys2Proof/Machine/Power.lean ====
section
/-! DEFINITION. Power states (R265). A unit has a number: core c has units 8c to 8c + 6, which are the core itself, its
vector datapath, copy engine, coordinate engine, tile engine, scan unit and matrix array; quarter q of the Porch of die d
is 1024 + 4d + q; Xelas port p is 1032 + p. A unit that is not listed is in P0. -/

namespace Sys2Proof.Machine

/-- Unit number of a core for the power states (R265). (DEDUCED, log 88.) -/
def coreUnit (core : Nat) : Nat := core * 8
def datapathUnit (core : Nat) : Nat := core * 8 + 1
/-- Unit numbers of engines for the power states (R265). (DEDUCED, log 88.) -/
def engineUnit (core eng : Nat) : Nat := core * 8 + 2 + eng
def arrayUnit (core : Nat) : Nat := core * 8 + 6
def porchUnit (die quarter : Nat) : Nat := 1024 + die * 4 + quarter
def portUnit (port : Nat) : Nat := 1032 + port
def isUnit (u : Nat) : Bool := decide (u < 1024 ∧ u % 8 < 7) || decide (1024 ≤ u ∧ u < 1044)
def isCoreUnit (u : Nat) : Bool := decide (u < 1024 ∧ u % 8 = 0)
def isArrayUnit (u : Nat) : Bool := decide (u < 1024 ∧ u % 8 = 6)

def State.powerOf (s : State) (u : Nat) : Nat := Tab.get 0 s.power u
def State.awake (s : State) (u : Nat) : Bool := s.powerOf u == 0
/-- A wake of the unit is under way. -/
def State.isWaking (s : State) (u : Nat) : Bool := (Tab.find s.waking u).isSome

/-- Wake latencies in clocks. (DEDUCED, log 88.) -/
def wakeLatency (p : Nat) : Nat := if p ≤ 1 then 6 else if p = 2 then 2765 else if p = 3 then 20736 else 80640

/-- The device's clock. -/
def State.clock (s : State) : Nat := s.hb.toNat * 64

/-- At most four array wakes begin in a microsecond on a die: when one that is asked for now begins. -/
def State.wakeStart (s : State) (u : Nat) : Nat :=
  if !isArrayUnit u ∨ s.powerOf u ≠ 2 then s.clock
  else
    let starts := s.waking.filterMap fun p =>
      if isArrayUnit p.1 ∧ p.1 / 512 = u / 512 ∧ s.powerOf p.1 = 2 then some (p.2 - 2765) else none
    let fourth := (starts.mergeSort fun a b => decide (b ≤ a)).getD 3 0
    if starts.length < 4 then s.clock else max s.clock (fourth + 2304)

/-- A unit that sleeps begins to wake. (DEDUCED, log 88.) -/
def State.wakeUnit (s : State) (u : Nat) : State :=
  if s.awake u ∨ s.isWaking u then s
  else { s with waking := Tab.put s.waking u (s.wakeStart u + wakeLatency (s.powerOf u)) }

/-- The wake of a unit is over. -/
def State.wakeOver (s : State) (u : Nat) : Bool := (Tab.find s.waking u).any fun t => decide (t ≤ s.clock)

/-- R265: A unit finishes waking after its wake latency. -/
def execWakeComplete (u : Nat) (s : State) : Res :=
  if s.wakeOver u then .next { s with power := Tab.erase s.power u, waking := Tab.erase s.waking u } else .next s

end Sys2Proof.Machine
end

