-- ==== Sys2Proof/Machine/Flags.lean ====
section
/-! DEFINITION. The sticky flags and the rounding mode of a lane (R63, R75, R76). -/

namespace Sys2Proof.Machine

/-- Flags raised in a lane are added to `%fflags`. -/
def Thread.raise (t : Thread) (f : Flags) : Thread := { t with fflags := t.fflags ||| f }

/-- The mode of a lane: the prefix RND, else `%rm` (R15, R63). -/
def modeOf (pfx : Option Pfx) (t : Thread) : Mode :=
  match pfx with
  | none => Mode.ofCode t.rm
  | some p => if p.rnd = 0 then Mode.ofCode t.rm else Mode.ofCode p.rnd

/-- R76: the flags of a thread whose pending set is empty are complete. -/
def Thread.flagsSettled (t : Thread) : Bool := t.pend.isEmpty

end Sys2Proof.Machine
end

