-- ==== Sys2Proof/Machine/Operands.lean ====
section
/-! DEFINITION. Operand forms: what each field of an instruction reads and writes, literals (R67, R68, R114), channels
(R170), the settle hazard (R25), the checks that depend on the thread (R14), and the scratchpad port (R271 to R273). -/

namespace Sys2Proof.Machine

/-! ### Bytes -/

/-- A little-endian number (R54). -/
def natOfBytes : List Byte → Nat
  | [] => 0
  | b :: bs => b.toNat + 256 * natOfBytes bs

/-- `n` as `k` bytes, little-endian. -/
def bytesOfNat (n k : Nat) : List Byte := (List.range k).map fun i => BitVec.ofNat 8 (n >>> (8 * i))

/-! ### The scratchpad (R140, R270 to R273) -/

def Workgroup.spadBytes (g : Workgroup) (off k : Nat) : List Byte := (List.range k).map fun i => Tab.get 0 g.spad (off + i)
def Workgroup.spadRead (g : Workgroup) (off k : Nat) : Nat := natOfBytes (g.spadBytes off k)
/-- Words of it that are uncorrectable and that the write covers whole are good again (R347). -/
def Workgroup.spadWrite (g : Workgroup) (off : Nat) (bs : List Byte) : Workgroup :=
  { g with
    spad := (bs.zipIdx).foldl (fun m p => Tab.set 0 m (off + p.2) p.1) g.spad
    spoilt := g.spoilt.filter fun b => match b with
      | .word n => !decide (off ≤ 4 * n ∧ 4 * n + 4 ≤ off + bs.length)
      | _ => true }
/-- A byte of an access lies in a word of the scratchpad that is uncorrectable, which a write does not cover whole (R347).
(DESIGN CHOICE, log 14.) -/
def Workgroup.spadBad (g : Workgroup) (off k : Nat) (write : Bool) : Bool :=
  g.spoilt.any fun b => match b with
    | .word n => decide (off < 4 * n + 4 ∧ 4 * n < off + k) && !(write && decide (off ≤ 4 * n ∧ 4 * n + 4 ≤ off + k))
    | _ => false
/-- An access lies within the allocation. -/
def Workgroup.inSpad (g : Workgroup) (off k : Nat) : Bool := decide (off + k ≤ g.hdr.spad)

def fold5 (y : Nat) : Nat := (y % 32) ^^^ (y / 32 % 32) ^^^ (y / 1024 % 8)
/-- The bank of word `w` under key κ. -/
def bankOf (w key : Nat) : Nat :=
  (w % 32) ^^^ (if key = 0 then 0 else fold5 ((w / 32 % 8192) * ((key * 2 + 1) % 8192) % 8192))

/-- R272: passes of one execution: lanes with the words each names, in groups of `size` lanes; equal words of a group
share an access unless `merge` is false. -/
def passesOf (key size : Nat) (merge : Bool) (accs : List (Nat × List Nat)) : Nat :=
  ((List.range (64 / size)).map fun j =>
    let grp := accs.filter fun a => a.1 / size = j
    let per (b : Nat) : Nat :=
      if merge then ((grp.flatMap (·.2)).dedup.filter fun w => bankOf w key = b).length
      else (grp.filter fun a => a.2.any fun w => bankOf w key = b).length
    ((List.range 32).map per).foldl max 0).sum

/-- The words of an access of `k` bytes at `off`. -/
def wordsAt (off k : Nat) : List Nat := ((List.range k).map fun i => (off + i) / 4).dedup

/-- R272: an `lds`, `sts`, `amos` (not merged) or channel access of `k` bytes adds its passes to `%spass`. -/
def Workgroup.addPasses (g : Workgroup) (k : Nat) (offs : List (Nat × Nat)) (merge : Bool := true) : Workgroup :=
  let size := if k = 16 then 8 else if k = 8 then 16 else 32
  { g with spass := g.spass + BitVec.ofNat 32 (passesOf g.ctx.key size merge (offs.map fun p => (p.1, wordsAt p.2 k))) }

/-! ### Fields -/

inductive Fld where
  | d | a | b | f
  deriving DecidableEq, Repr

end Sys2Proof.Machine

namespace Sys2Proof

/-- The seven bits of a field. -/
def Args.fld (x : Args) : Machine.Fld → BitVec 7
  | .d => x.d
  | .a => x.a
  | .b => x.b
  | .f => (x.ctl.pfx.map (·.f)).getD 0
/-- The literal word of a field. -/
def Args.lit (x : Args) : Machine.Fld → Option W32
  | .d => none
  | .a => x.ctl.la
  | .b => x.ctl.lb
  | .f => x.ctl.lf
/-- BS and Z of the prefix. -/
def Args.bs (x : Args) : Bool := (x.ctl.pfx.map (·.bs)).getD false
def Args.z (x : Args) : Bool := (x.ctl.pfx.map (·.z)).getD false
/-- What a field names. -/
def Sig.kind (g : Sig) : Machine.Fld → FK
  | .d => g.d
  | .a => g.a
  | .b => g.b
  | .f => g.f

end Sys2Proof

namespace Sys2Proof.Machine

/-- Operand B is a broadcast scalar register (R98). -/
def isBs (x : Args) (k : Fld) : Bool := k == .b && x.bs

/-- The channel a field names, and whether it peeks (R12). -/
def fieldChan (sg : Sig) (x : Args) (k : Fld) : Option (Nat × Bool) :=
  let w := x.fld k
  match sg.kind k with
  | .vec _ _ true => if isBs x k || !bitAt w 6 || bitsNat w 4 0 == 31 then none else some (bitsNat w 4 0, bitAt w 5)
  | _ => none

/-! ### Literals -/

inductive LitKind where
  | int | f32 | h2 | bh2
  deriving DecidableEq, Repr

/-- How the literal of a field is read (R67, R68, R114). -/
def litKind (op : Nat) (k : Fld) : LitKind :=
  if op < 0x100 then .int
  else if op ≤ 0x10E then if op = 0x10D then .int else .f32
  else if op = 0x10F then .h2
  else if op ≤ 0x11E then if op = 0x11D then .int else .h2
  else if op = 0x11F then .bh2
  else if op ≤ 0x12E then if op = 0x12D then .int else .bh2
  else if op = 0x12F then .int
  else if op ≤ 0x135 then .f32
  else if op ≤ 0x137 then .int
  else if op ≤ 0x139 then .f32
  else if op = 0x13B then if k = .a then .f32 else .int
  else if op = 0x13C ∨ op = 0x13D ∨ op = 0x140 ∨ op = 0x141 then .f32
  else if 0x146 ≤ op ∧ op ≤ 0x14E then .f32
  else .int

/-- An FP32 literal in a type: RNE, a NaN becomes canonical, no flag. -/
def litFloat (f : FloatFmt) (w : W32) : Nat :=
  match fp32.decode w.toNat with
  | .nan _ => f.nanBits
  | v => (convert f .rne v).1

def litValue (op : Nat) (k : Fld) (w : W32) : W128 :=
  match litKind op k with
  | .int => w.signExtend 128
  | .f32 => BitVec.ofNat 128 (litFloat fp32 w)
  | .h2 => BitVec.ofNat 128 (litFloat fp16 w * 65537)
  | .bh2 => BitVec.ofNat 128 (litFloat bf16 w * 65537)

/-! ### Reading and writing -/

/-- The value of a field that names no channel. -/
def readField (op : Nat) (sg : Sig) (x : Args) (l : Lane) (k : Fld) : W128 :=
  let n := (x.fld k).toNat
  match x.lit k with
  | some w => litValue op k w
  | none =>
    match sg.kind k with
    | .vec w _ _ => if isBs x k then (l.h.readS n).setWidth 128 else l.t.readVec n w
    | .sca _ => (l.h.readS n).setWidth 128
    | .pred => (BitVec.ofBool (l.t.readP n)).setWidth 128
    | .any => (x.fld k).signExtend 128
    | _ => 0

/-- The operands of an instruction in a workgroup: `%faultm` of a 64-lane home warp takes a pair (R50). -/
def Workgroup.sig (g : Workgroup) (op : Nat) (x : Args) : Option Sig :=
  (sigOf op x).map fun sg =>
    if g.hdr.width = 64 ∧ op = 0x016 ∧ x.a = 16 then { sg with d := R 2 }
    else if g.hdr.width = 64 ∧ op = 0x017 ∧ x.d = 16 then { sg with a := R 2 }
    else sg

/-- The registers a field names; those of the fourth operand only where a prefix carries it. (DEDUCED, log 18.) -/
def fieldRegs (sg : Sig) (x : Args) (k : Fld) : List Dest :=
  let n := (x.fld k).toNat
  if (x.lit k).isSome || (fieldChan sg x k).isSome || (k == .f && x.ctl.pfx.isNone) then []
  else
    match sg.kind k with
    | .vec w _ _ => if isBs x k then [.s n] else (List.range w).map fun i => .v (n + i)
    | .drainDst => [.v n, .v (n + 1)]
    | .sca _ => [.s n]
    | .pred => if n = 0 then [] else [.p n]
    | .succ => if x.fld k = 0x40 then [] else [.v n]
    | _ => []

def Sig.writes (sg : Sig) : Bool := sg.dRole == .dst || sg.dRole == .both
def Sig.readsD (sg : Sig) : Bool := sg.dRole == .src || sg.dRole == .both

/-- The width of a vector destination: all of D, or its first half (R145). -/
def Sig.dWidth (sg : Sig) (w : Nat) : Nat := if sg.half then w / 2 else w

/-- The destinations of an instruction. -/
def destRegs (sg : Sig) (x : Args) : List Dest :=
  let rs := fieldRegs sg x .d
  (if Sig.writes sg then rs.take (Sig.dWidth sg rs.length) else []) ++ (if sg.fDst then fieldRegs sg x .f else [])
/-- Its sources. -/
def srcRegs (sg : Sig) (x : Args) : List Dest :=
  fieldRegs sg x .a ++ fieldRegs sg x .b ++ fieldRegs sg x .f ++ (if Sig.readsD sg then fieldRegs sg x .d else [])

/-- The registers of a thread whose results have not returned (R24). -/
def Thread.pending (t : Thread) : List Dest := t.pend.flatMap (·.dests)

/-- The mask predicate of an instruction is pending in a thread. -/
def predPending (x : Args) (t : Thread) : Bool := t.pending.contains (.p ((x.ctl.pfx.map (·.pred.toNat)).getD 0))

/-- R25: a source, a destination or the mask predicate is pending in the lane; an inactive lane is concerned only by the
predicate, and by a destination it would zero. (DEDUCED, logs 24, 25.) -/
def hazardAt (sg : Sig) (x : Args) (l : Lane) : Bool :=
  match l.t.pending with
  | [] => false
  | ps =>
    let hit (rs : List Dest) : Bool := rs.any fun r => ps.contains r
    predPending x l.t ||
    (if l.act then hit (srcRegs sg x) || hit (destRegs sg x)
     else x.z && Sig.writes sg && hit (fieldRegs sg x .d))

/-- The stored value of a register of a lane is uncorrectable (R340). (DESIGN CHOICE, log 14.) -/
def Lane.spoilt (l : Lane) (r : Dest) : Bool :=
  match r with
  | .s n => l.h.spoilt.contains n
  | r => l.t.spoilt.contains r

/-- A source of an active lane, or its mask predicate, is such a register. -/
def spoiltAt (sg : Sig) (x : Args) (l : Lane) : Bool :=
  l.spoilt (.p ((x.ctl.pfx.map (·.pred.toNat)).getD 0)) || (l.act && (srcRegs sg x).any l.spoilt)

/-! ### Checks that depend on the thread (R14, R46) -/

/-- Registers of a field are below the thread's budget less D, and tiles below those of its octet. -/
def rangeOk (g : Workgroup) (sg : Sig) (x : Args) (l : Lane) (k : Fld) : Bool :=
  let lim := g.hdr.budget l.hw - g.hdr.depth
  match sg.kind k with
  | .vec w _ _ =>
    if isBs x k || (x.lit k).isSome || (fieldChan sg x k).isSome then true else decide ((x.fld k).toNat + w ≤ lim)
  | .drainDst | .recOff => decide ((x.fld k).toNat < lim)
  | .succ => x.fld k == 0x40 || decide ((x.fld k).toNat < lim)
  | .acc => decide ((x.fld k).toNat < g.hdr.tilesAt l.hw)
  | _ => true

/-- The channel of a field is bound (R14). -/
def boundOk (g : Workgroup) (sg : Sig) (x : Args) (k : Fld) : Bool :=
  match fieldChan sg x k with
  | none => true
  | some (q, _) => (Tab.find g.chans q).isSome

/-- What the bits of the instruction and the thread's header make illegal (R341). -/
def staticBad (g : Workgroup) (op : Nat) (sg : Sig) (x : Args) (l : Lane) : Bool :=
  !(wfArgs op x && sg.wf x && [Fld.d, .a, .b].all (rangeOk g sg x l) && (x.ctl.pfx.isNone || rangeOk g sg x l .f) &&
    [Fld.d, .a, .b, .f].all (boundOk g sg x))

/-! ### Channels (R168 to R170) -/

def Chan.depth (q : Chan) : Nat := 2 ^ q.ldep
def Chan.bytes (q : Chan) : Nat := 4 * 2 ^ q.esz
/-- Elements present. -/
def Chan.present (q : Chan) : Nat := q.tail - q.head
def Chan.addr (q : Chan) (i : Nat) : Nat := q.base + (i % q.depth) * q.bytes
/-- Element `i` has been appended and its value is there. -/
def Chan.has (q : Chan) (i : Nat) : Bool := decide (i < q.tail) && !(q.unready.contains i)

/-- The width of a vector field in registers. -/
def FK.width : FK → Nat
  | .vec w _ _ => w
  | _ => 1

/-- R170: an operand of another width than the elements, more active lanes than the depth, or a push to an engine's
result queue. (DEDUCED, log 23.) -/
def chanBad (g : Workgroup) (sg : Sig) (x : Args) (n : Nat) (k : Fld) : Bool :=
  match fieldChan sg x k with
  | none => false
  | some (q, _) =>
    match Tab.find g.chans q with
    | none => false
    | some ch => FK.width (sg.kind k) * 4 != ch.bytes || decide (ch.depth < n) || (k == .d && ch.kind == 2)

/-- The channel operands of an instruction, in the order they are taken (R22). -/
def popsOf (sg : Sig) (x : Args) : List (Fld × Nat × Bool) :=
  [Fld.a, .b, .f].filterMap fun k => (fieldChan sg x k).map fun q => (k, q)

/-- Pops of channel `q` in a list of channel operands. -/
def popCount (ops : List (Fld × Nat × Bool)) (q : Nat) : Nat :=
  (ops.filter fun o => o.2.1 = q && !o.2.2).length

/-- The index of the element a field receives in the lane of rank `r` of `n`. -/
def elemIndex (ops : List (Fld × Nat × Bool)) (ch : Chan) (k : Fld) (q n r : Nat) : Nat :=
  ch.head + n * popCount (ops.takeWhile fun o => o.1 != k) q + r

/-- The value of element `i` of a channel, if it is there. -/
def Workgroup.elem (g : Workgroup) (q i : Nat) : Option W128 :=
  match Tab.find g.chans q with
  | some ch => if ch.has i then some (BitVec.ofNat 128 (g.spadRead (ch.addr i) ch.bytes)) else none
  | none => none

/-- The source of a field: its value, or an element that is not there yet. Elements are read as they were before the group,
whose pushes follow all of its pops (R22). -/
def fieldSrc (src g : Workgroup) (op : Nat) (sg : Sig) (x : Args) (l : Lane) (n r : Nat) (k : Fld) : Src :=
  match fieldChan sg x k with
  | none => .val (readField op sg x l k)
  | some (q, _) =>
    let i := elemIndex (popsOf sg x) (Tab.get ⟨0, 0, 0, 0, 0, 0, 0, []⟩ g.chans q) k q n r
    match (src.elem q i).orElse fun _ => g.elem q i with
    | some v => .val v
    | none => .elem q i

def Src.value : Src → W128
  | .val v => v
  | .elem _ _ => 0
def Src.ready : Src → Bool
  | .val _ => true
  | .elem _ _ => false
/-- Element `i` of channel `q` has arrived. -/
def Src.resolve (q i : Nat) (v : W128) (y : Src) : Src := if y = .elem q i then .val v else y

/-- An element of a channel receives its value: in the storage, unless a later element has taken its place there, and
wherever it is awaited. -/
def Workgroup.fill (g : Workgroup) (q i : Nat) (v : W128) : Workgroup :=
  match Tab.find g.chans q with
  | none => g
  | some ch =>
    let g := if i + ch.depth < ch.tail then g else g.spadWrite (ch.addr i) (bytesOfNat v.toNat ch.bytes)
    { g with
      chans := Tab.modify g.chans q fun ch => { ch with unready := ch.unready.filter fun j => j != i },
      defers := Tab.map (fun _ d => { d with lanes := d.lanes.map fun l =>
        { l with a := l.a.resolve q i v, b := l.b.resolve q i v, f := l.f.resolve q i v } }) g.defers }

/-- `n` elements claimed by each pop of the instruction, and `m` appended by a push to its D. -/
def Workgroup.claim (g : Workgroup) (sg : Sig) (x : Args) (n m : Nat) : Workgroup :=
  let g := { g with chans := (popsOf sg x).foldl (fun m o =>
    if o.2.2 then m else Tab.modify m o.2.1 fun ch => { ch with head := ch.head + n }) g.chans }
  match fieldChan sg x .d with
  | some (q, _) =>
    if Sig.writes sg then { g with chans := Tab.modify g.chans q fun ch => { ch with tail := ch.tail + m } } else g
  | none => g

/-! ### Results -/

/-- The words of a value in `w` registers from `n` on. -/
def wordWrites (n w : Nat) (v : W128) : List Write :=
  (List.range w).map fun i => ⟨.v (n + i), (v.extractLsb' (32 * i) 32).setWidth 64⟩

/-- The register writes of a result: field D, and the carry in F (R101). -/
def regWrites (sg : Sig) (x : Args) (v : W128) (carry : Bool) : List Write :=
  (match sg.d with
   | .vec w _ _ => if (fieldChan sg x .d).isSome then [] else wordWrites x.d.toNat (Sig.dWidth sg w) v
   | .pred => [⟨.p x.d.toNat, (BitVec.ofBool (v.getLsbD 0)).setWidth 64⟩]
   | _ => []) ++
  (if sg.fDst then [⟨.p (x.fld .f).toNat, (BitVec.ofBool carry).setWidth 64⟩] else [])

/-- What Z = 1 writes in an inactive lane: 0 to the destination in field D; a carry predicate stays as it is (R98, R101). -/
def zeroWrites (sg : Sig) (x : Args) : List Write := regWrites { sg with fDst := false } x 0 false

def Workgroup.arriveAll (g : Workgroup) (tid : Nat) (ws : List Write) : Workgroup := ws.foldl (fun g w => g.arrive tid w) g

/-- A variable-latency instruction enters the pending set (R24). -/
def Workgroup.pendAdd (g : Workgroup) (c : Cur) (tid : Nat) (dests : List Dest) (src : PendSrc)
    (bank : Option Nat := none) : Workgroup :=
  g.modThread tid fun t =>
    { t with pend := t.pend ++ [{ pkt := c.pc.pkt, slot := c.slot, stamp := c.stamp, dests, src, bank }] }

/-- The special functions and `ftab` (R24). -/
def isSpecial (op : Nat) : Bool := decide (0x146 ≤ op ∧ op ≤ 0x14E)

/-- A result is written: at once, or through the pending set. -/
def Workgroup.result (g : Workgroup) (c : Cur) (sg : Sig) (x : Args) (tid : Nat) (late : Bool) (o : LaneOut)
    (bank : Option Nat := none) : Workgroup :=
  let ws := regWrites sg x o.v o.carry
  if late then g.pendAdd c tid (destRegs sg x) (.ready ws o.flags) bank
  else (g.arriveAll tid ws).modThread tid (·.raise o.flags)

end Sys2Proof.Machine
end

