-- ==== Sys2Proof/Machine/Mem.lean ====
section
/-! DEFINITION. Memory below the instructions: homes (R296 to R298), translation (R317 to R320), the L1 and its write
buffer (R299, R300), the Porch (R307, R308), and requests on their way to a home (R389, R390, R393, R403). -/

namespace Sys2Proof.Machine

/-! ### Addresses and homes -/

def nodeOf (pa : Nat) : Nat := pa / 2 ^ 44
def localOf (pa : Nat) : Nat := pa % 2 ^ 44
def sectorOf (pa : Nat) : Nat := pa / 64
def regionOf (pa : Nat) : Nat := localOf pa / 2 ^ 21

/-- Bytes of device memory (R296). -/
def State.usable (s : State) : Nat := s.usz * 2 ^ 21
/-- PORTS of a node's route entry (R403). -/
def State.ports (s : State) (n : Nat) : Nat := bitsNat (Tab.get 0 s.routes n) 11 0
/-- An address of this device, of the host, or of a peer. -/
def State.isOwn (s : State) (pa : Nat) : Bool := nodeOf pa == s.node
def isHost (pa : Nat) : Bool := nodeOf pa == 255

/-- R296: the address exists: below the usable size, of the host, or of a member of the peer group. -/
def State.paOk (s : State) (pa : Nat) : Bool :=
  if s.isOwn pa then decide (localOf pa < s.usable)
  else isHost pa || (decide (nodeOf pa < 64) && s.ports (nodeOf pa) != 0)

/-- R297: the die that answers for an address of this device; an unhomed region is answered by the requester's die. -/
def State.dieFor (s : State) (pa : Nat) (die : Nat) : Nat :=
  match Tab.find s.homes (regionOf pa) with
  | some (.die d _) => d
  | some (.migrating src ..) => src
  | _ => die

/-- The die-local frame address of an address of this device; that of an unhomed region, which has no frame, is its local
address (R298). (DEDUCED, log 31.) -/
def State.frameAddr (s : State) (pa : Nat) : Nat :=
  match Tab.find s.homes (regionOf pa) with
  | some (.die _ f) | some (.migrating _ _ _ f _) => f * 2 ^ 21 + localOf pa % 2 ^ 21
  | _ => localOf pa

/-- R313: a request counts at the home of its region, for its own die or for the other. -/
def State.countAt (s : State) (die pa : Nat) : State :=
  match if s.isOwn pa then Tab.find s.homes (regionOf pa) else none with
  | some (.die h _) =>
    s.modDie h fun d =>
      let (l, m) := Tab.get (0, 0) d.counts (regionOf pa)
      let c := if die = h then (min (l + 1) 65535, m) else (l, min (m + 1) 65535)
      { d with counts := Tab.put d.counts (regionOf pa) c }
  | _ => s

/-- The canonical form of memory: addresses rise, and no byte listed is 0. -/
def Memory.wf (m : Tab Byte) : Bool := Tab.wf 0 m

/-- The bytes that memory holds from an address on. (DESIGN CHOICE, log 12.) -/
def State.bytesAt (s : State) (pa k : Nat) : List Byte := (List.range k).map fun i => Tab.get 0 s.mem (pa + i)
def State.natAt (s : State) (pa k : Nat) : Nat := natOfBytes (s.bytesAt pa k)

/-- A sector as one value, byte i in bits [8i+7:8i]. -/
def sectorData (bs : List Byte) : BitVec 512 := BitVec.ofNat 512 (natOfBytes bs)
def dataByte (d : BitVec 512) (i : Nat) : Byte := d.extractLsb' (8 * i) 8
/-- Bit 8i to 8i + 7 for every byte i of a mask. -/
def byteMask (m : BitVec 64) : BitVec 512 :=
  BitVec.ofNat 512 ((List.range 64).foldl (fun acc i => if m.getLsbD i then acc + 255 * 2 ^ (8 * i) else acc) 0)
/-- The bytes under a mask taken from `new`. -/
def mergeData (old new : BitVec 512) (m : BitVec 64) : BitVec 512 :=
  (old &&& ~~~(byteMask m)) ||| (new &&& byteMask m)
/-- The mask of `k` bytes from `i` on. -/
def spanMask (i k : Nat) : BitVec 64 := BitVec.ofNat 64 ((2 ^ k - 1) * 2 ^ i)

/-! ### The L1 and the Porch -/

def l1Key (asid sector : Nat) : Nat := asid * 2 ^ 46 + sector
def noSector : Sector := ⟨false, 0, 0, 0, 0⟩

/-- Bytes written into the copies of a sector the L1 of a core holds, except its core-weak bytes; of `locals` only, those that
a home of its own die keeps current. -/
def Core.patch (c : Core) (sector : Nat) (data : BitVec 512) (m : BitVec 64) (locals : Bool := false) : Core :=
  { c with l1 := Tab.map (fun k x =>
      if k % 2 ^ 46 = sector ∧ !(locals && x.remote) then { x with data := mergeData x.data data (m &&& ~~~x.weak) } else x) c.l1 }

/-- Bytes written into the copy of a Porch. -/
def Die.patch (d : Die) (sector : Nat) (data : BitVec 512) (m : BitVec 64) : Die :=
  { d with porch := Tab.modify d.porch (sector / 4) fun x =>
      { x with sects := Tab.modify x.sects (sector % 4) fun y => mergeData y data m } }

/-- Fills of a sector that were served before and are still on their way will not be kept. (DEDUCED, log 57.) -/
def State.cancelFills (s : State) (sector : Nat) (who : Nat → Bool) : State :=
  { s with reqs := Tab.map (fun _ r =>
      if r.state = .replying ∧ sectorOf r.pa = sector ∧ who r.core then { r with fill := false } else r) s.reqs }

/-- Older updates still out to some cores no longer carry the bytes. -/
def State.maskUpds (s : State) (sector : Nat) (m : BitVec 64) (who : Nat → Bool) : State :=
  { s with upds := Tab.map (fun _ u =>
      if u.sector = sector ∧ who u.core then { u with mask := u.mask &&& ~~~m } else u) s.upds }

/-- Memory bytes written at once by a unit whose write is atomic at the home (page walker, Hearth): memory, and the copies
that are kept current with it; fills and updates on their way do not undo it. Copies of another die's lines stay as they are
(R308). (DEDUCED, log 86.) -/
def State.applyNow (s : State) (pa : Nat) (bs : List Byte) : State :=
  let sec := sectorOf pa
  let d := sectorData (List.replicate (pa % 64) 0 ++ bs)
  let m := spanMask (pa % 64) bs.length
  let near (c : Nat) : Bool := !s.isOwn pa || s.dieFor pa (dieOfCore c) == dieOfCore c
  let s := (s.maskUpds sec m fun _ => true).cancelFills sec near
  { s with
    mem := (bs.zipIdx).foldl (fun t p => Tab.set 0 t (pa + p.2) p.1) s.mem
    cores := Tab.map (fun _ c => c.patch sec d m true) s.cores
    dies := Tab.map (fun _ x => if isHost pa then x.patch sec d m else x) s.dies }

/-! ### Translation -/

/-- An access to be translated. -/
structure Want where
  write : Bool
  fetch : Bool
  priv : Bool
  deriving DecidableEq, Repr

def Tlb.covers (e : Tlb) (asid vpn : Nat) : Bool := e.asid == asid && decide (e.vpn ≤ vpn ∧ vpn < e.vpn + e.pages)
def Tlb.pa (e : Tlb) (va : Nat) : Nat := (e.pfn + (va / 4096 - e.vpn)) * 4096 + va % 4096
/-- R319: the permissions of a leaf. -/
def Tlb.allows (e : Tlb) (w : Want) : Bool := (!w.write || e.w) && (!w.fetch || e.x) && (!e.prv || w.priv)

/-- A page table lies in the device's own memory or the host's (R317). -/
def State.isTable (s : State) (pa : Nat) : Bool := (s.isOwn pa && decide (localOf pa < s.usable)) || isHost pa

/-- The home die the home map names for device memory. -/
def State.homeDie (s : State) (pa : Nat) : Option Nat :=
  match if s.isOwn pa then Tab.find s.homes (regionOf pa) else none with
  | some (.die d _) => some d
  | some (.migrating src ..) => some src
  | _ => none

/-- A level of the walk at table `t`: the entries used so far, and the translation or the fault (R317 to R319). -/
def State.walkFrom (s : State) (asid va : Nat) : Nat → Nat → List Nat → Except (Nat × Nat) (Tlb × List Nat)
  | 0, _, _ => .error (0x10, 0)
  | l + 1, t, seen =>
    let ea := t + 8 * (va / 2 ^ (12 + 9 * l) % 512)
    if !s.isTable t then .error (0x11, ea)
    else if s.bad.contains (sectorOf ea) then .error (0x13, ea)
    else
      let e := BitVec.ofNat 64 (s.natAt ea 8)
      let pa := bitsNat e 51 12 * 4096
      let seen := ea :: seen
      if !bitAt e 0 then .error (0x10, 0)
      else if bitsNat e 11 9 ≠ 0 ∨ (l = 3 ∧ bitAt e 4) then .error (0x11, ea)
      else if l = 0 ∨ bitAt e 4 then
        let ct := l = 0 ∧ bitAt e 5
        let size := 2 ^ (12 + 9 * l)
        let aligned := pa % size = 0 ∧ (ct → pa / 4096 % 16 = va / 4096 % 16)
        let named := (nodeOf pa < 64 ∨ isHost pa) ∧ (s.isOwn pa → localOf pa < s.usable)
        if !decide (aligned ∧ named) then .error (0x11, ea)
        else
          let pages := if ct then 16 else 2 ^ (9 * l)
          .ok ({ asid, vpn := va / 4096 / pages * pages, pages, pfn := pa / 4096 / pages * pages,
                 w := bitAt e 1, x := bitAt e 2, prv := bitAt e 3, d := bitAt e 8, home := s.homeDie pa }, seen)
      else if !s.isTable pa then .error (0x11, ea)
      else s.walkFrom asid va l pa seen

/-- Sets A in the entries used, and D in the leaf for a write, in memory (R318). (DEDUCED, log 86.) -/
def State.setAD (s : State) (entries : List Nat) (write : Bool) : State :=
  match entries with
  | [] => s
  | leaf :: rest =>
    let put (s : State) (ea bits : Nat) : State :=
      let old := s.natAt ea 8
      s.applyNow ea (bytesOfNat (old ||| bits) 8)
    rest.foldl (fun s ea => put s ea 0x80) (put s leaf (if write then 0x180 else 0x80))

/-- The set of an L2 TLB an entry stands in: 2,048 sets of 8 ways. (DESIGN CHOICE, log 30.) -/
def Tlb.set (e : Tlb) : Nat := e.vpn / max e.pages 1 % 2048

/-- A translation is installed in the L1 TLB of the core and in its set of the L2 TLB of the die; the oldest entry beyond
192 or 8 is replaced (R320). (DESIGN CHOICE, log 30.) -/
def State.install (s : State) (core : Nat) (e : Tlb) : State :=
  let others (l : List Tlb) : List Tlb := l.filter fun x => !(x.asid == e.asid && x.vpn == e.vpn && x.pages == e.pages)
  (s.modCore core fun c => { c with tlb := (e :: others c.tlb).take 192 }).modDie (dieOfCore core) fun d =>
    let rest := others d.tlb
    { d with tlb := e :: (rest.filter fun x => x.set == e.set).take 7 ++ rest.filter fun x => x.set != e.set }

/-- The log of a fault a walk or a check found (R319, R347). -/
def State.logFault (s : State) (core asid addr kind cls code : Nat) : State :=
  s.log (dieOfCore core) (logEntry addr (core % 64) kind cls code asid (some core) 0 s.hb)

/-- The log of uncorrectable data that the memory of a die found (R347, R402). Which device of the die holds the sector, and
the check syndrome, are left open. (DESIGN CHOICE, log 46.) -/
def State.logData (s : State) (die pa asid : Nat) (core : Option Nat) : State :=
  let (unit, s) := s.draw
  let (synd, s) := s.draw
  s.log die (logEntry pa unit 0 2 0x13 asid core (BitVec.ofNat 64 synd) s.hb)

/-- An error of a sector of memory that its check data corrects adds an entry of class 1 and nothing else (R347, R402).
(DESIGN CHOICE, logs 14, 46.) -/
def State.scrub (s : State) (die pa asid : Nat) (core : Option Nat) : State :=
  if s.soft.contains (sectorOf pa) then
    let (unit, s) := s.draw
    let (synd, s) := s.draw
    { s with soft := s.soft.filter fun x => x != sectorOf pa }.log die
      (logEntry pa unit 0 1 0 asid core (BitVec.ofNat 64 synd) s.hb)
  else s

/-- Uncorrectable data that an access of a core found. (DESIGN CHOICE, logs 14, 46.) -/
def State.logBad (s : State) (core asid pa : Nat) : State := s.logData (s.dieFor pa (dieOfCore core)) pa asid (some core)

/-- The same for uncorrectable data in a core's own storage: no physical address applies. (DESIGN CHOICE, logs 14, 46.) -/
def State.logCore (s : State) (core asid code : Nat) : State :=
  let (synd, s) := s.draw
  s.log (dieOfCore core) (logEntry 0 (core % 64) 3 2 code asid (some core) (BitVec.ofNat 64 synd) s.hb)

/-- A page walk (R318, R319): its reads count at their homes (R313). (DEDUCED, log 96.) -/
def State.walk (s : State) (core asid root va : Nat) (w : Want) : Except Nat Nat × State :=
  match s.walkFrom asid va 4 root [] with
  | .error (code, ea) =>
    let s := s.countAt (dieOfCore core) ea
    (.error code, if code = 0x10 then s else if code = 0x13 then s.logBad core asid ea
      else s.logFault core asid ea 10 5 code)
  | .ok (e, used) =>
    let s := used.foldl (fun s ea =>
      (s.countAt (dieOfCore core) ea).scrub (s.dieFor ea (dieOfCore core)) ea asid (some core)) s
    if !e.allows w then (.error 0x11, s.logFault core asid (e.pa va) 10 3 0x11)
    else (.ok (e.pa va), (s.setAD used w.write).install core { e with d := e.d || w.write })

/-- The physical address of a virtual one for a thread of a core (R319, R320): L1 TLB, L2 TLB, walk. A first write
through an entry whose D is clear walks. (DEDUCED, log 96.) -/
def State.translate (s : State) (core asid root : Nat) (w : Want) (va : W64) : Except Nat Nat × State :=
  let v := va.toNat
  if 2 ^ 48 ≤ v then (.error 0x11, s)
  else
    let use (e : Tlb) (s : State) : Except Nat Nat × State :=
      if !e.allows w then (.error 0x11, s.logFault core asid (e.pa v) 3 3 0x11) else (.ok (e.pa v), s)
    let good (e : Tlb) : Bool := e.covers asid (v / 4096) && (e.d || !(w.write && e.allows w))
    match (s.coreOf core).tlb.find? good with
    | some e => use e s
    | none =>
      match (s.dieAt (dieOfCore core)).tlb.find? good with
      | some e => use e (s.install core e)
      | none => s.walk core asid root v w

/-- R296 after translation: an address that does not exist is a protection violation, logged. -/
def State.locate (s : State) (core asid root : Nat) (w : Want) (va : W64) : Except Nat Nat × State :=
  match s.translate core asid root w va with
  | (.error e, s) => (.error e, s)
  | (.ok pa, s) => if s.paOk pa then (.ok pa, s) else (.error 0x11, s.logFault core asid pa 3 3 0x11)

/-- R341, R134: the causes of an address: alignment, its form. -/
def addrCause (va : W64) (align : Nat) : Option Cause :=
  if va.toNat % align ≠ 0 then some (0x15, va) else if 2 ^ 48 ≤ va.toNat then some (0x11, va) else none

/-- The context of a workgroup's accesses. -/
def Workgroup.want (_g : Workgroup) (t : Thread) (write : Bool) : Want := { write, fetch := false, priv := t.priv }

/-- The address of a thread's access, with what stops it (R319, R347). -/
def State.reach (s : State) (g : Workgroup) (t : Thread) (write : Bool) (va : W64) : Except Cause Nat × State :=
  match s.locate g.core g.ctx.asid g.ctx.root (g.want t write) va with
  | (.error e, s) => (.error (e, va), s)
  | (.ok pa, s) => (.ok pa, s)

/-- Uncorrectable data at an address. (DESIGN CHOICE, log 14.) -/
def State.isBad (s : State) (pa : Nat) : Bool := s.bad.contains (sectorOf pa)

/-- The page of an address of a core is one of 1 GiB (R297). -/
def State.isHuge (s : State) (core asid : Nat) (va : W64) : Bool :=
  (s.coreOf core).tlb.any fun e => e.covers asid (va.toNat / 4096) && e.pages == 2 ^ 18

/-! ### Blocks of a region table (R245, R249, R253) -/

/-- The physical address of a page of a context, looked up without effect. -/
def State.lookup (s : State) (ctx : Ctx) (va : Nat) : Option Nat :=
  match s.walkFrom ctx.asid va 4 ctx.root [] with
  | .ok (e, _) => some (e.pa va)
  | .error _ => none

/-- A block of the table at a virtual address. (DEDUCED, log 38.) -/
def RTable.holds (t : RTable) (va : Nat) : Bool := va % 256 == 0 && decide (t.base ≤ va ∧ va < t.base + t.len)

/-- The parent block of a block in memory. -/
def State.parentOf (s : State) (t : RTable) (pa : Nat) : Option Nat :=
  let va := s.natAt (pa + 8) 8
  if va ≠ 0 ∧ t.holds va then s.lookup t.ctx va else none

/-- A block has been armed: the Hearth is signalled, and the block counts in its parent's run if the parent is running. -/
def State.arm (s : State) (t : RTable) (pa : Nat) : State :=
  let up := (s.parentOf t pa).bind fun p => if (Tab.find s.regions p).any (·.state == 3) then some p else none
  let s := match up with
    | some p => { s with regions := Tab.modify s.regions p fun r =>
        { r with kids := if r.kids.contains pa then r.kids else r.kids ++ [pa] } }
    | none => s
  if s.signals.contains pa then s else { s with signals := s.signals ++ [pa] }

/-! ### Paths (R390, R403) -/

/-- R298: the slice of a line. -/
def State.sliceOf (s : State) (pa : Nat) : Nat :=
  let f := s.frameAddr pa
  (f / 256 % 32) ^^^ (f / 8192 % 32) ^^^ (f / 262144 % 32)
/-- The quarter of the Porch that holds a line. (DEDUCED, log 31.) -/
def quarterOf (pa : Nat) : Nat := pa / 256 % 4

/-- R403: the port to a node: the i-th set port of PORTS, then the next that is up, cyclically; for the deadline class one
in P0 or P1 first. -/
def State.portTo (s : State) (pa : Nat) (deadline : Bool) : Option Nat :=
  let m := s.ports (nodeOf pa)
  let ps := (List.range 12).filter fun i => m.testBit i
  let i := pa / 256 % 256 % (max ps.length 1)
  let ups := (ps.drop i ++ ps.take i).filter fun p => ((Tab.find s.links (p + 1)).getD {}).status != .down
  if deadline then (ups.find? fun p => decide (s.powerOf (portUnit p) ≤ 1)).orElse fun _ => ups.head? else ups.head?

/-- A link is not declared down. -/
def State.linkUp (s : State) (l : Nat) : Bool := ((Tab.find s.links l).getD {}).status != .down

/-- The hops of a request from `row` of die `d`, at or beyond its home; none when a link it needs is down. -/
def State.pathFrom (s : State) (d row pa : Nat) (deadline : Bool := false) : Option (List Hop) :=
  let q := quarterOf pa
  let from_ (h col : Nat) (out : List Hop) : Option (List Hop) :=
    if h = d then some (.hall d col row :: out)
    else if s.linkUp 0 then
      some ([.hall d (32 + q) row, .link 0 (if d = 0 then 0 else 1), .hall h col (16 + q)] ++ out)
    else none
  if s.isOwn pa then from_ (s.dieFor pa d) (s.sliceOf pa) []
  else if isHost pa then if s.linkUp 13 then from_ 0 39 [.link 13 0] else none
  else (s.portTo pa deadline).bind fun p => from_ (p / 6) (36 + p % 6 / 2) [.link (p + 1) 0]

/-- The way back: the response network of each Hall, entered by the row its request left by (its columns are numbered
from 64), and each link in the other direction. -/
def backPath : List Hop → List Hop
  | [] => []
  | .hall d col row :: rest => backPath rest ++ [.hall d (64 + row) col]
  | .link l dir :: rest => backPath rest ++ [.link l (1 - dir)]

/-- The row of a requester's unit and its die (R390). -/
def reqRow (r : Req) : Nat × Nat :=
  match r.by_ with
  | .hearth => (0, 23)
  | .host => (0, 23)
  | .peer _ => (0, 20)
  | _ => (dieOfCore r.core, clusterOfCore r.core)

/-- R393: the class of a request. -/
def reqClass (deadline : Bool) (r : Req) : Nat :=
  if deadline || r.acq.isSome || r.urgent then 0
  else
    match r.kind with
    | .amo .. | .red .. | .redw | .wfin .. => 0
    | _ => match r.by_ with | .engine .. => 2 | _ => 1

/-- Bytes of a request packet (R389): header and data it carries. -/
def reqBytes (r : Req) : Nat :=
  16 + (match r.kind with | .read | .readAlone | .readSealed _ => 0 | _ => r.data.length)

/-- A workgroup of the deadline class (R266). -/
def State.deadline (s : State) (r : Req) : Bool :=
  match r.by_ with
  | .thread w _ => (s.wgOf w).cls == 0
  | .engine w _ => (s.wgOf w).cls == 0
  | _ => false

/-- A request leaves; without a port that is up it is answered at once with code 0x14 (R403). -/
def State.sendReq (s : State) (id : Nat) : State :=
  match Tab.find s.reqs id with
  | none => s
  | some r =>
    let (d, row) := reqRow r
    match s.pathFrom d row r.pa (s.deadline r) with
    | none =>
      let s := s.log d (logEntry r.pa 0 7 6 0x14 r.asid (if r.core < 128 then some r.core else none) 0 s.hb)
      { s with reqs := Tab.put s.reqs id { r with state := .done, err := 0x14 } }
    | some hops =>
      { s with
        reqs := Tab.put s.reqs id { r with state := .sent }
        pkts := Tab.put s.pkts s.nextPkt
          { what := .req id, hops, cls := reqClass (s.deadline r) r, plane := r.pa / 64 % 2, bytes := reqBytes r }
        nextPkt := s.nextPkt + 1 }

/-- The requests `deps` have all been answered. -/
def State.answered (s : State) (deps : List Nat) : Bool := deps.all fun d => (Tab.find s.reqs d).isNone

/-- A write, atomic or reduction. -/
def ReqKind.isWrite : ReqKind → Bool
  | .read | .readAlone | .readSealed _ => false
  | _ => true

/-- R396: a request that changes memory waits for those the core has out to the same sector; its reads there among them,
which must not miss older values (R329), but for acquires, which nothing later overtakes. A read waits for the writes of the
core to the sector, whose bytes its L1 may no longer hold. (DEDUCED, log 36.) -/
def State.sameSector (s : State) (r : Req) : List Nat :=
  (s.reqs.filter fun p => p.2.core = r.core && sectorOf p.2.pa = sectorOf r.pa &&
    (if r.kind.isWrite then p.2.acq.isNone || p.2.kind.isWrite else p.2.kind == .write)).map Prod.fst

/-- A new request: it leaves at once, or waits until `deps` are answered. (DESIGN CHOICE, log 4.) -/
def State.newReq (s : State) (r : Req) (deps : List Nat) : Nat × State :=
  let id := s.nextReq
  let deps := (deps ++ s.sameSector r).dedup
  let s := { s with reqs := Tab.put s.reqs id { r with state := .waiting deps }, nextReq := id + 1 }
  (id, if deps = [] then s.sendReq id else s)

/-! ### Settling, and what follows it (R25, R89, R342) -/

/-- A pass that waits for a generation whose flip has not been issued. -/
def Workgroup.passWaits (g : Workgroup) : MxOp → Bool
  | .pass _ _ gen _ _ => decide (((g.matrix.map (·.flipped)).getD 0) < gen)
  | _ => false

/-- The thread has a matrix operation that a waiting point waits for. -/
def Workgroup.mxBusy (g : Workgroup) (tid : Nat) : Bool :=
  g.mxq.any fun e => e.tids.contains tid && !g.passWaits e.op

/-- Stores of a thread that are in the write buffer, or on their way from it (R139, R300). -/
def State.storesOut (s : State) (w : Nat) (tid : Nat) : Bool :=
  let mine (o : Owner) : Bool := o.wg == w && o.tid == tid
  ((s.coreOf (s.wgOf w).core).wb.any fun e => e.owners.any mine) ||
  s.reqs.any fun p => match p.2.by_ with
    | .wb _ owners => owners.any mine
    | _ => false

/-- An implicit settle of a thread is over: nothing is pending, its matrix operations have completed and its writes are
acknowledged (R25, R139, R185). (DEDUCED, log 35.) -/
def State.idle (s : State) (w : Nat) (t : Thread) : Bool :=
  t.pend.isEmpty && !(s.wgOf w).mxBusy t.tid && t.writes.isEmpty && !s.storesOut w t.tid

/-- A trap of the whole group before a thread: by its fetch, by its form, or owed there for a write that failed; of a thread
that executes one instruction alone, of that. (DEDUCED, log 48.) -/
def Thread.trapWhole (k : Cause) (t : Thread) : Thread :=
  { Thread.trap t.pc.pkt t.pc.slot k { t with trapSlot := none } with
    wholeTrap := t.alone.isEmpty, stage := 0, again := t.again ++ t.alone.drop 1, alone := [] }

/-- A trap for uncorrectable data in a register is logged (R347). (DESIGN CHOICE, log 14.) -/
def State.logSpoilt (s : State) (w : Nat) (ts : List Nat) : State :=
  let g := s.wgOf w
  ts.foldl (fun s t =>
    let x := g.thread t
    if x.tcause = 0x13 ∧ x.tval = 0 ∧ (x.spoilt ≠ [] ∨ (g.hw (g.home t)).spoilt ≠ []) then
      s.logCore g.core g.ctx.asid 0x13
    else s) s

/-- The trapped threads of one formed warp: those without a handler are unhandled at once, the others settle and then
enter together. -/
def State.takeTraps (s : State) (w : Nat) (ts : List Nat) : State :=
  let s := (s.logSpoilt w ts).modWg w (·.unset ts)
  let g := s.wgOf w
  let ins := ts.filter fun t => handled g (g.thread t)
  let outs := ts.filter fun t => !handled g (g.thread t)
  let s := outs.foldl (fun s t => s.unhandled w t) s
  if ins = [] then s
  else if (ins.all fun t => s.idle w (g.thread t)) then s.enterHandlers w ins
  else
    s.modWg w fun g =>
      let id := Tab.fresh g.trapSets
      ins.foldl (fun g t => g.modThread t fun t => { t with hold := .trapping id, trapSlot := none })
        { g with trapSets := Tab.put g.trapSets id ins }

/-- Threads of one formed warp take traps of their whole groups, each its own. -/
def State.trapEach (s : State) (w : Nat) (ts : List (Nat × Cause)) : State :=
  if ts = [] then s
  else (s.modWg w fun g => ts.foldl (fun g t => g.modThread t.1 (Thread.trapWhole t.2)) g).takeTraps w (ts.map (·.1))

/-- One trap for all of them. -/
def State.trapWhole (s : State) (w : Nat) (ts : List Nat) (k : Cause) : State := s.trapEach w (ts.map fun t => (t, k))

/-- Threads take the traps they owe for writes that failed, at the group before them (R139, R340). -/
def State.trapOwed (s : State) (w : Nat) (ts : List Nat) : State :=
  let g := s.wgOf w
  (s.trapEach w (ts.filterMap fun t => (g.thread t).owed.map fun k => (t, k))).modWg w fun g =>
    ts.foldl (fun g t => g.modThread t fun t => { t with failed := [], owedNow := false }) g

/-- Ready threads that stand at their meeting address settle there, take the trap they owe, or are held (R25, R89, R139).
(DEDUCED, log 39.) -/
def State.arrive (s : State) (w : Nat) (ts : List Nat) : State :=
  let g := s.wgOf w
  let here := ts.filter fun t => let x := g.thread t; !x.ended && !x.parked && x.hold == .ready && x.atMeeting
  let owing := here.filter fun t => s.idle w (g.thread t) && !(g.thread t).failed.isEmpty
  let s' := s.modWg w fun g => (here.filter fun t => !owing.contains t).foldl (fun g t =>
    (g.modThread t fun x =>
      { x with hold := (if s.idle w x then Hold.meeting (meetAddr x.meet) (meetMask x.meet) else .implicit) }).unset [t]) g
  s'.trapOwed w owing

/-- What a held thread waited for by itself is over. -/
def State.restOver (s : State) (w : Nat) (t : Thread) : Bool :=
  match t.hold with
  | .settle => t.pend.isEmpty
  | .implicit => s.idle w t
  | .pops => !(t.pend.any fun p => match p.src with | .chan _ => true | _ => false)
  | _ => false

/-- Threads whose settle is over are ready, or arrive at their meeting. -/
def State.settleAll (s : State) : State :=
  s.wgs.foldl (fun s p =>
    let ts := (p.2.threads.filter fun t => s.restOver p.1 t.2).map Prod.fst
    if ts = [] then s
    else (s.modWg p.1 fun g => ts.foldl (fun g t => g.modThread t fun t => { t with hold := .ready }) g).arrive p.1 ts) s

/-- After requests have been answered: waiting requests whose conditions hold leave (R138), threads that waited for them
go on to their group, and settles end. -/
def State.wake (s : State) : State :=
  let ready := s.reqs.filterMap fun p =>
    match p.2.state with
    | .waiting deps => if s.answered deps then some p.1 else none
    | _ => none
  let s := ready.foldl (fun s id => s.sendReq id) s
  State.settleAll { s with wgs := Tab.map (fun _ g =>
      { g with threads := Tab.map (fun _ t =>
        match t.hold with
        | .drain deps step => if s.answered deps then t.pass step.toNat else t
        | _ => t) g.threads }) s.wgs }

/-! ### Stores -/

/-- The bytes of one entry of the write buffer leave for their home as one write (R300). -/
def State.flushEntry (s : State) (core : Nat) (e : WbEntry) : Nat × State :=
  let x := Tab.get noSector (s.coreOf core).l1 e.key
  let s := s.modCore core fun c => { c with wb := c.wb.filter fun y => y.key != e.key }
  let bytes := (List.range 64).map fun i => dataByte x.data i
  s.newReq { by_ := .wb core e.owners, kind := .write, core, asid := e.asid, pa := e.pa, va := 0, size := 64,
             data := bytes, mask := (List.range 64).map (fun i => e.mask.getLsbD i), huge := e.huge, state := .sent } []

/-- The owner of a store of an engine command in the write buffer: this number and its handle. -/
def engineOwner : Nat := 4096

/-- A core-weak store enters the write buffer; stores to one sector are merged, and a full buffer writes its oldest
entry through (R300). (DESIGN CHOICE, log 29.) -/
def State.bufferStore (s : State) (core asid pa : Nat) (owner : Owner) (k : Nat) : State :=
  let key := l1Key asid (sectorOf pa)
  let m := spanMask (pa % 64) k
  let c := s.coreOf core
  if c.wb.any fun e => e.key = key then
    s.modCore core fun c => { c with wb := c.wb.map fun e =>
      if e.key = key then { e with mask := e.mask ||| m, owners := e.owners ++ [owner] } else e }
  else
    let s := match c.wb with
      | e :: _ => if 128 ≤ c.wb.length then (s.flushEntry core e).2 else s
      | [] => s
    s.modCore core fun c =>
      { c with wb := c.wb ++ [{ key, pa := sectorOf pa * 64, asid, clk := c.clk, mask := m,
                                huge := s.isHuge core asid owner.va, owners := [owner] }] }

/-- Bytes written through at once replace those still in the write buffer, which never reach their home (R300). -/
def Core.unbuffer (c : Core) (key : Nat) (m : BitVec 64) : Core :=
  let wb := c.wb.map fun e => if e.key = key then { e with mask := e.mask &&& ~~~m } else e
  { c with wb := wb.filter fun e => e.mask != 0 }

/-- Every core-weak store of the core is written through; the requests that carry them, and those already out. -/
def State.flushCore (s : State) (core : Nat) : List Nat × State :=
  let s := (s.coreOf core).wb.foldl (fun s e => (s.flushEntry core e).2) s
  ((s.reqs.filter fun p => p.2.core = core && p.2.kind == .write).map Prod.fst, s)

/-- R334: core-weak bytes of the core that overlap an access at home are written through first. -/
def State.flushSector (s : State) (core pa : Nat) : List Nat × State :=
  let es := (s.coreOf core).wb.filter fun e => sectorOf e.pa = sectorOf pa
  let s := es.foldl (fun s e => (s.flushEntry core e).2) s
  ((s.reqs.filter fun p =>
    p.2.core = core && p.2.kind == .write && sectorOf p.2.pa = sectorOf pa).map Prod.fst, s)

/-! ### What the L1, the directory and the Porch hold (R299, R301, R304, R307) -/

/-- A core leaves the sharers of some sectors, as an L1 reports a sector it evicts (R301). -/
def State.unshare (s : State) (core : Nat) (hit : Nat → Bool) : State :=
  { s with dir := s.dir.filterMap fun p =>
      if hit p.1 && dieOfCore core == s.dieFor (p.1 * 64) (dieOfCore core) then
        let e := { p.2 with sharers := p.2.sharers &&& ~~~(BitVec.twoPow 64 (core % 64)) }
        if e = { filled := e.filled } then none else some (p.1, e)
      else some p }

/-- Copies leave an L1: their core-weak bytes are written through, the directory is told, and fills of them that were served
before will not be kept. (DEDUCED, log 57.) -/
def State.evict (s : State) (core : Nat) (hit : Nat → Bool) : State :=
  let es := (s.coreOf core).wb.filter fun e => hit e.key
  let s := es.foldl (fun s e => (s.flushEntry core e).2) s
  let keys := Tab.keys (s.coreOf core).l1
  let still := (keys.filter fun k => !hit k).map fun k => k % 2 ^ 46
  let s := (s.modCore core fun c => { c with l1 := c.l1.filter fun p => !hit p.1 }).unshare core fun sec =>
    keys.any (fun k => hit k && k % 2 ^ 46 == sec) && !still.contains sec
  { s with reqs := Tab.map (fun _ r =>
      if r.state = .replying ∧ r.core = core ∧ hit (l1Key r.asid (sectorOf r.pa)) then { r with fill := false } else r) s.reqs }

/-- The lines a set of an L1 holds: sealed or not, and the tag. (DESIGN CHOICE, log 29.) -/
def Core.lines (c : Core) (set : Nat) : List (Bool × Nat) :=
  ((Tab.keys c.l1).map (fun k => (false, k / 4)) ++ (Tab.keys c.l1Sealed).map fun k => (true, k / 4)).dedup.filter fun t =>
    t.2 % 64 == set

/-- R299: room for a line: a full set of 8 gives up one of its lines, which one is left open. (DESIGN CHOICE, log 29.) -/
def State.roomL1 (s : State) (core : Nat) (sealed_ : Bool) (key : Nat) : State :=
  let ls := (s.coreOf core).lines (key / 4 % 64)
  if ls.contains (sealed_, key / 4) ∨ ls.length < 8 then s
  else
    let (n, s) := s.draw
    match ls[n % ls.length]? with
    | some (true, t) => s.modCore core fun c => { c with l1Sealed := c.l1Sealed.filter fun p => p.1 / 4 != t }
    | some (false, t) => s.evict core fun key => key / 4 == t
    | none => s

/-- The lines a set of a Porch holds. (DESIGN CHOICE, log 29.) -/
def Die.lines (d : Die) (set : Nat) : List (Bool × Nat) :=
  ((Tab.keys d.porch).map (fun k => (false, k)) ++ (Tab.keys d.porchSealed).map fun k => (true, k / 4)).dedup.filter fun t =>
    t.2 % 4096 == set

/-- R307: room for a line in a Porch: 4,096 sets of 16 ways. (DESIGN CHOICE, log 29.) -/
def State.roomPorch (s : State) (die : Nat) (sealed_ : Bool) (line : Nat) : State :=
  let ls := (s.dieAt die).lines (line % 4096)
  if ls.contains (sealed_, line) ∨ ls.length < 16 then s
  else
    let (n, s) := s.draw
    match ls[n % ls.length]? with
    | some (true, t) => s.modDie die fun d => { d with porchSealed := d.porchSealed.filter fun p => p.1 / 4 != t }
    | some (false, t) => s.modDie die fun d => { d with porch := Tab.erase d.porch t }
    | none => s

/-- A sector of a line enters a Porch: beside the others of a line that is still valid for the reader, else as a line of its
own (R307, R308); a line's tick is that of its oldest fill. (DESIGN CHOICE, log 29.) -/
def State.fillPorch (s : State) (die sector : Nat) (data : BitVec 512) (tick acq : W64) : State :=
  (s.roomPorch die false (sector / 4)).modDie die fun d =>
    let x : PorchLine := match Tab.find d.porch (sector / 4) with
      | some x => if acq.ult x.tick ∧ x.tick.ule tick then x else ⟨tick, []⟩
      | none => ⟨tick, []⟩
    { d with porch := Tab.put d.porch (sector / 4) { x with sects := Tab.put x.sects (sector % 4) data } }

/-- The slice and the set of a sector's directory entry (R304). (DESIGN CHOICE, log 29.) -/
def State.dirSet (s : State) (sector : Nat) : Nat × Nat × Nat :=
  let f := s.frameAddr (sector * 64)
  (s.dieFor (sector * 64) 0, s.sliceOf (sector * 64), (f / 8192 * 4 + f / 64 % 4) % 16384)

/-- R304: a drop reaches a sharer, which writes through its core-weak bytes of the sector and discards it. -/
def State.dropAt (s : State) (core sector : Nat) : State :=
  (s.evict core fun k => k % 2 ^ 46 == sector).unshare core fun x => x == sector

/-- The cores of a die in a sharer mask. -/
def coresOf (die : Nat) (m : BitVec 64) : List Nat :=
  ((List.range 64).filter fun i => m.getLsbD i).map fun i => die * 64 + i

/-- R304: room for the entry of a sector: the least recently filled of a full set is dropped by its sharers. -/
def State.roomDir (s : State) (sector : Nat) : State :=
  let same := s.dir.filter fun p => p.2.sharers != 0 && s.dirSet p.1 == s.dirSet sector
  if same.length < 16 then s
  else
    match bestOf (fun (a b : Nat × DirEntry) => decide (a.2.filled < b.2.filled)) same with
    | some p => (coresOf (s.dieFor (p.1 * 64) 0) p.2.sharers).foldl (fun s c => s.dropAt c p.1) s
    | none => s

/-- A core becomes a sharer of a sector homed on its die (R301). -/
def State.share (s : State) (core pa : Nat) : State :=
  if s.isOwn pa && s.dieFor pa (dieOfCore core) == dieOfCore core then
    let sec := sectorOf pa
    let s := if (Tab.get {} s.dir sec).sharers = 0 then s.roomDir sec else s
    let e := Tab.get {} s.dir sec
    { s with
      dir := Tab.set {} s.dir sec { e with sharers := e.sharers ||| BitVec.twoPow 64 (core % 64), filled := s.nextReq }
      nextReq := s.nextReq + 1 }
  else s

/-- A store is performed in the L1 of the core: its bytes are core-weak, in a sector allocated with only them valid if
none is held (R299). -/
def Core.storeL1 (c : Core) (asid pa : Nat) (bs : List Byte) : Core :=
  let k := l1Key asid (sectorOf pa)
  let x := Tab.get noSector c.l1 k
  let m := spanMask (pa % 64) bs.length
  let d := sectorData (List.replicate (pa % 64) 0 ++ bs)
  { c with l1 := Tab.put c.l1 k { x with data := mergeData x.data d m, valid := x.valid ||| m, weak := x.weak ||| m } }

/-- The same with room for its line. -/
def State.storeL1 (s : State) (core asid pa : Nat) (bs : List Byte) : State :=
  let key := l1Key asid (sectorOf pa)
  let s := if (Tab.find (s.coreOf core).l1 key).isNone then { s with badL1 := s.badL1.filter fun b => b != (core, key) } else s
  (s.roomL1 core false key).modCore core fun c => c.storeL1 asid pa bs

/-! ### Loads -/

/-- R310: what was filled 8,192 ticks ago or more. -/
def aged (hb tick : W64) : Bool := decide (tick.toNat + 8192 ≤ hb.toNat)

/-- The bytes of an L1 sector are valid for a load of the core: there, and current under R308 and R310 or core-weak. -/
def Core.sectorHit (c : Core) (hb : W64) (x : Sector) (m : BitVec 64) : Bool :=
  (x.valid &&& m) == m && (!x.remote || x.weak &&& m == m || (c.acq.ult x.tick && !aged hb x.tick))

/-- A sector filled from its home or a Porch: core-weak bytes keep their value (R299). (DESIGN CHOICE, log 29.) -/
def Core.fillL1 (c : Core) (key : Nat) (data : BitVec 512) (remote : Bool) (tick : W64) : Core :=
  let x := Tab.get noSector c.l1 key
  let y : Sector := { x with data := mergeData data x.data x.weak, valid := BitVec.allOnes 64, remote, tick }
  { c with l1 := Tab.put c.l1 key y }

/-- The same with room for its line; what an uncorrectable copy held is gone. -/
def State.fillL1 (s : State) (core key : Nat) (data : BitVec 512) (remote : Bool) (tick : W64) : State :=
  let s := (s.roomL1 core false key).modCore core fun c => c.fillL1 key data remote tick
  { s with badL1 := s.badL1.filter fun b => b != (core, key) }

/-- Whether an address is cached as a remote line for a core (R299, R307): homed on the other die. -/
def State.isRemote (s : State) (core pa : Nat) : Bool :=
  s.isOwn pa && s.dieFor pa (dieOfCore core) != dieOfCore core

/-- A line that any L1 may hold unsealed: not of a peer (R312). -/
def State.cacheable (s : State) (pa : Nat) : Bool := s.isOwn pa || isHost pa

/-- The sector a load may be served with from the L1 of the core, or from the Porch of its die. -/
inductive Copy where
  | l1 (x : Sector)
  | porch (data : BitVec 512) (tick : W64)
  deriving DecidableEq, Repr

/-- The copy that serves a plain load without a request: of the L1, or of the Porch (R308). -/
def State.copyFor (s : State) (core asid pa k : Nat) : Option Copy :=
  let c := s.coreOf core
  let x := Tab.get noSector c.l1 (l1Key asid (sectorOf pa))
  if !s.cacheable pa then none
  else if c.sectorHit s.hb x (spanMask (pa % 64) k) then some (.l1 x)
  else
    (Tab.find (s.dieAt (dieOfCore core)).porch (sectorOf pa / 4)).bind fun p =>
      (Tab.find p.sects (sectorOf pa % 4)).bind fun d =>
        if (s.isRemote core pa && c.acq.ult p.tick && !aged s.hb p.tick) || (isHost pa && dieOfCore core == 0) then
          some (.porch d p.tick)
        else none

/-- The copy that would serve a load holds uncorrectable data (R347). (DESIGN CHOICE, log 14.) -/
def State.badCopy (s : State) (core asid pa k : Nat) : Bool :=
  match s.copyFor core asid pa k with
  | some (.l1 _) => s.badL1.contains (core, l1Key asid (sectorOf pa))
  | some (.porch ..) => s.badPorch.contains (dieOfCore core, sectorOf pa)
  | none => false

/-- What stops a plain load at an address that is there: the copy that serves it, or its home, or no way to it (R347, R403). -/
def State.loadStops (s : State) (core asid pa k : Nat) : Option Nat :=
  if (s.copyFor core asid pa k).isSome then if s.badCopy core asid pa k then some 0x13 else none
  else if s.isBad pa then some 0x13
  else if (s.pathFrom (dieOfCore core) 0 pa).isNone then some 0x14
  else none

/-- The log entry of what stops a read at home: its data, or the link (R347). -/
def State.logHome (s : State) (core asid pa : Nat) : State :=
  if s.isBad pa then s.logBad core asid pa
  else s.log (dieOfCore core) (logEntry pa 0 7 6 0x14 asid (some core) 0 s.hb)

/-- The log entry of what stopped it: at the core, the Porch, the home, or the link. (DESIGN CHOICE, logs 14, 46.) -/
def State.logStop (s : State) (core asid pa k : Nat) : State :=
  let die := dieOfCore core
  match s.copyFor core asid pa k with
  | some y =>
    let (synd, s) := s.draw
    let (unit, kind) := match y with | .l1 _ => (core % 64, 3) | .porch .. => (quarterOf pa, 2)
    s.log die (logEntry pa unit kind 2 0x13 asid (some core) (BitVec.ofNat 64 synd) s.hb)
  | none => s.logHome core asid pa

/-- A plain load served without a request: by the L1, or by the Porch of the core's die, which fills the L1 (R308).
(DEDUCED, log 104.) -/
def State.loadHit (s : State) (core asid pa k : Nat) : Option (List Byte × State) :=
  let key := l1Key asid (sectorOf pa)
  let out (s : State) : List Byte × State :=
    let x := Tab.get noSector (s.coreOf core).l1 key
    ((List.range k).map fun i => dataByte x.data (pa % 64 + i), s)
  match s.copyFor core asid pa k with
  | some (.l1 _) => some (out s)
  | some (.porch d tick) => some (out (s.fillL1 core key d (s.isRemote core pa) tick))
  | none => none

/-- Bytes of a sector that a reply or a read at home brings: into the L1, and into the Porch for a line of the other die, or
of the host for die 0 (R307, R312); updates older than the fill do not reach it (R303). -/
def State.fillCopy (s : State) (core asid pa : Nat) (data : BitVec 512) (tick : W64) (stamp : Nat) : State :=
  let sec := sectorOf pa
  let remote := s.isRemote core pa
  let d := dieOfCore core
  let s := s.fillL1 core (l1Key asid sec) data remote tick
  let s := if remote || (isHost pa && d == 0) then s.fillPorch d sec data tick (s.coreOf core).acq else s
  let s := if remote || (isHost pa && d == 0) then { s with badPorch := s.badPorch.filter fun b => b != (d, sec) } else s
  { s with upds := Tab.map (fun u (x : Upd) =>
      if x.core = core ∧ x.sector = sec ∧ u < stamp then { x with mask := 0 } else x) s.upds }

end Sys2Proof.Machine
end

