-- ==== Sys2Proof/Machine/Gate.lean ====
section
/-! DEFINITION. What must hold before an issue group issues: implicit settles (R25), the waits of releases and ends
(R138, R139, R150, R185), the operations that gather threads (R93, R110, R124, R160, R162, R166, R153), and the groups that
cannot issue yet (R170, R171, R194, R229). -/

namespace Sys2Proof.Machine

/-! ### Settles (R25, R76, R83) -/

/-- `gbar` is declared and the kernel was not started by `tail` (R163). -/
def gbarOk (g : Workgroup) : Bool := g.hdr.gbar && !g.byTail

/-- The lane is active, or its mask predicate is still to come. -/
def mayAct (x : Args) (l : Lane) : Bool := l.act || predPending x l.t

/-- Instructions that settle implicitly before they take effect (R25): in all lanes, or in the active ones. -/
def settlesAt (g : Workgroup) (op : Nat) (x : Args) (l : Lane) : Bool :=
  if op = 0x1C0 then true
  else if op = 0x1C1 then gbarOk g
  else if op = 0x048 ∨ op = 0x049 ∨ op = 0x04C ∨ op = 0x1C4 then mayAct x l
  else if op = 0x1FA then x.b == 2
  else false

/-- Lanes that must wait are held, each by itself; a release set waits for them together. (DEDUCED, log 64.) -/
def State.holdWhere (s : State) (ls : List Lane) (p : Lane → Option Hold) : State :=
  let hs := ls.filterMap fun l => (p l).map fun h => (l.tid, h)
  match s.cur with
  | some c => if hs = [] then s else if c.released then s.holdGroup c hs else s.holdLanes c hs
  | none => s

/-- Memory instructions without a channel, fences, `park` and `gbar`, which every thread executes for itself; any other
instruction acts for its lanes together, or in their order. (DEDUCED, log 64.) -/
def actsApart (op : Nat) (x : Args) : Bool :=
  decide ((0x180 ≤ op ∧ op ≤ 0x1B4) ∨ op = 0x1B6 ∨ op = 0x1B7 ∨ op = 0x1C1 ∨ op = 0x1FA) &&
    (sigOf op x).all fun sg => (fieldChan sg x .d).isNone && (popsOf sg x).isEmpty

/-- Every lane of the group is held when one of them must wait. (DEDUCED, log 64.) -/
def State.holdAll (s : State) (ls : List Lane) (p : Lane → Option Hold) : State :=
  match s.cur, ls.findSome? p with
  | some c, some h => s.holdGroup c (c.lanes.map fun t => (t, h))
  | _, _ => s

/-- The lanes of an instruction that must wait are held, each by itself or together, as it acts. (DEDUCED, log 64.) -/
def State.holdAs (s : State) (op : Nat) (x : Args) (ls : List Lane) (p : Lane → Option Hold) : State :=
  if actsApart op x then s.holdWhere ls p else s.holdAll ls p

/-- A write of the thread has failed, and a trap is owed at the next instruction that waits for it (R139). -/
def Lane.owes (l : Lane) : Bool := !l.t.failed.isEmpty

/-- R25, R76: what a settle at the instruction waits for. -/
def State.gateSettle (s : State) (w : Nat) (g : Workgroup) (op : Nat) (x : Args) (l : Lane) : Option Hold :=
  if settlesAt g op x l && !s.idle w l.t then some .implicit
  else if op = 0x016 ∧ x.a = 14 ∧ mayAct x l ∧ l.t.pend ≠ [] then some .settle
  else none

/-! ### Matrix operations (R185) -/

/-- Blocks of a scaled operand over `n` elements (R180). -/
def scaleBlocks (f : FmtWord) (n : Nat) : Nat := if f.scale = 1 then n / 32 else if f.scale = 2 then n / 16 else 0

/-- The scale bytes of the planes' columns, and of an A row (R180). -/
def ScaleRec.bSpan (r : ScaleRec) (blocks : Nat) : List (Nat × Nat) :=
  if r.colMajor then (List.range 64).map fun j => (r.addr + j * r.stride, blocks)
  else (List.range blocks).map fun b => (r.addr + b * r.stride, 64)
def ScaleRec.aSpan (r : ScaleRec) (lane blocks : Nat) : Nat × Nat := (r.addr + lane * r.stride, blocks)

/-- A row offset that names the staging (R188). -/
def bypassElem (n off : Nat) : Option Nat :=
  if off = 0xFFFFFF00 then some 0 else if off = 0xFFFFFF20 ∧ n = 32 then some 32 else none

/-- Bytes of the scratchpad a matrix operation reads or writes: offset and length. (DEDUCED, log 34.) -/
def MxOp.bytes (o : MxOp) : List (Nat × Nat) :=
  match o with
  | .load _ off w sc =>
    (off, 4096) :: (match fmtWord? w, sc with | some f, some r => r.bSpan (scaleBlocks f 64) | _, _ => [])
  | .pass _ _ _ w rows =>
    match fmtWord? w with
    | none => []
    | some f => rows.flatMap fun r =>
      (if (bypassElem f.k r.off).isSome then [] else [(r.off, f.k * f.a.bytes)]) ++
      (match r.scale with | some c => [c.aSpan r.lane (scaleBlocks f f.k)] | none => [])
  | .drain _ _ w tgt rows =>
    match fmtWord? w with
    | none => []
    | some f => rows.map fun r => (r.off, 64 * drainBytes f tgt)
  | _ => []

/-- The octet and tile of an operation on a tile. -/
def MxOp.tile? (o : MxOp) : Option (Nat × Nat) :=
  match o with
  | .pass oc t .. | .zero oc t _ | .drain oc t .. | .bypass oc t .. => some (oc, t)
  | _ => none

/-- The scope of a release, none where the instruction is none: a qualified store, an atomic or a reduction (R138, R144). -/
def releaseScope (op : Nat) (x : Args) : Option Nat :=
  if (op = 0x194 ∨ op = 0x195) ∧ bitAt x.b 3 then some (bitsNat x.b 1 0)
  else if (0x1A9 ≤ op ∧ op ≤ 0x1AF) ∧ bitAt x.b 6 then some (bitsNat x.b 5 4)
  else none

/-- The instruction pushes to a channel, which is a release of core scope (R170). -/
def pushes (sg : Sig) (x : Args) : Bool := Sig.writes sg && (fieldChan sg x .d).isSome
def opPushes (op : Nat) (x : Args) : Bool := (sigOf op x).any fun sg => pushes sg x

/-- Releases, arrivals and `mdrv`, the waiting points of R185 beside the settles. -/
def mxWaitsAt (op : Nat) (x : Args) (l : Lane) : Bool :=
  l.act && (opPushes op x || op = 0x1C3 || op = 0x1D6 || op = 0x1B5 || op = 0x04A || op = 0x1B8 || op = 0x1FD ||
    (op = 0x1B4 && bitAt x.b 3) || (releaseScope op x).isSome)

/-- The storage of the channels an instruction names. -/
def chanSpans (g : Workgroup) (op : Nat) (x : Args) : List (Nat × Nat) :=
  match sigOf op x with
  | none => []
  | some sg => [Fld.d, .a, .b, .f].filterMap fun k =>
    (fieldChan sg x k).bind fun q => (Tab.find g.chans q.1).map fun ch => (ch.base, ch.depth * ch.bytes)

/-- The scratchpad bytes an instruction of a lane reaches by itself: `lds`, `sts`, `amos`, the words of phase barriers,
channel elements, scale records. -/
def spadSpans (g : Workgroup) (op : Nat) (x : Args) (l : Lane) : List (Nat × Nat) :=
  let k : Nat := if op = 0x196 ∨ op = 0x197 ∨ op = 0x19D then 1 else if op = 0x198 ∨ op = 0x199 ∨ op = 0x19E then 2
    else if op = 0x19A ∨ op = 0x19F ∨ op = 0x1AB then 4 else if op = 0x19B ∨ op = 0x1A0 ∨ op = 0x1AC then 8 else 16
  let f := (x.fld .f).toNat
  (if (0x196 ≤ op ∧ op ≤ 0x1A1) ∨ op = 0x1AB ∨ op = 0x1AC then
    let off : Int := if op < 0x1A2 then x.b.toInt * (k : Int) else 0
    [(((l.t.readV x.a.toNat).toNat + off).toNat, k)]
   else if 0x1C2 ≤ op ∧ op ≤ 0x1C5 then [((l.h.readS x.a.toNat).toNat, 8)]
   else if op = 0x1D0 ∧ x.ctl.pfx.isSome then [((l.t.readV f).toNat, 16)]
   else if op = 0x1D3 then [((l.t.readV (f + 1)).toNat, 16)]
   else []) ++ chanSpans g op x

def overlaps (a b : Nat × Nat) : Bool := decide (a.1 < b.1 + b.2 ∧ b.1 < a.1 + a.2)

/-- R185: the lane waits for its matrix operations. (DEDUCED, log 34.) -/
def gateMatrix (g : Workgroup) (op : Nat) (x : Args) (l : Lane) : Option Hold :=
  let mine := g.mxq.filter fun e => e.tids.contains l.tid
  let touch := l.act && (spadSpans g op x l).any fun sp => mine.any fun e => e.op.bytes.any (overlaps sp)
  let tile := op = 0x1D6 && l.act && g.mxq.any fun e => e.op.tile? == some (octetOf l.tid, x.a.toNat)
  if touch || tile || (mxWaitsAt op x l && g.mxBusy l.tid) then some .matrix else none

/-! ### Releases (R138, R150, R152, R218) -/

/-- What a lane waits for before the instruction: earlier loads, its writes, the core's core-weak stores; `home`: the writes
of its whole home warp. -/
structure Drains where
  loads : Bool
  writes : Bool
  weak : Bool
  home : Bool
  deriving DecidableEq, Repr

/-- The releases, and `park` (R138, R150 to R152, R162, R218). (DEDUCED, log 35.) -/
def drainsAt (g : Workgroup) (op : Nat) (x : Args) (l : Lane) : Option Drains :=
  let full : Drains := ⟨true, true, true, false⟩
  if op = 0x1C1 then if gbarOk g then some full else none
  else if !l.act then none
  else if op = 0x1C3 ∨ opPushes op x then some ⟨true, true, false, false⟩
  else if op = 0x1FA then if x.b = 2 then some { full with home := true } else none
  else if op = 0x1B4 then
    some ⟨true, bitAt x.b 3 || bitsNat x.b 1 0 == 3, (bitAt x.b 3 && bitsNat x.b 1 0 != 0) || bitsNat x.b 1 0 == 3, false⟩
  else if op = 0x1B5 ∨ op = 0x04A ∨ op = 0x1B8 then some full
  else if op = 0x1FD then if l.t.priv then some full else none
  else (releaseScope op x).map fun sc => ⟨true, true, sc != 0, false⟩

/-- The loads and atomics of a thread that have not returned. -/
def Thread.loadsOut (t : Thread) : List Nat :=
  t.pend.filterMap fun p => match p.src with | .mem r _ _ => some r | _ => none

/-- The writes of a thread that have not been acknowledged. -/
def Thread.writesOut (t : Thread) : List Nat := t.writes.map (·.req)

/-- What a release of a thread covers: its own requests, and those of others that a meeting ordered before it (R326, R333). -/
def Thread.before (t : Thread) : List Nat := t.loadsOut ++ t.writesOut ++ t.joined

/-- Requests that have not been answered. -/
def State.open' (s : State) (rs : List Nat) : List Nat := rs.filter fun r => (Tab.find s.reqs r).isSome

/-- R326, item 3: what some threads have out comes before what any of them issues next. -/
def State.join (s : State) (w : Nat) (ts : List Nat) : State :=
  let g := s.wgOf w
  match s.open' (ts.flatMap fun t => (g.thread t).before).dedup with
  | [] => s
  | rs => s.modWg w fun g => ts.foldl (fun g t => g.modThread t fun t => { t with joined := rs }) g

/-- The requests a draining lane waits for; core-weak stores leave for their homes. -/
def State.drainDeps (s : State) (g : Workgroup) (d : Drains) (l : Lane) : List Nat × State :=
  let warp := if d.home then g.threads.flatMap fun p => if g.home p.1 = l.hw then p.2.writesOut else [] else l.t.writesOut
  let own := (if d.loads then l.t.loadsOut else []) ++ (if d.writes then warp ++ l.t.joined else [])
  if d.weak then
    let (ws, s) := s.flushCore g.core
    (s.open' (own ++ ws), s)
  else (s.open' own, s)

/-- The requests a release of a lane waits for, unless it has. (DEDUCED, log 28.) -/
def State.drainOf (s : State) (g : Workgroup) (op : Nat) (x : Args) (slot : Nat) (l : Lane) :
    Option (List Nat × Bool) × State :=
  match drainsAt g op x l with
  | none => (none, s)
  | some d =>
    if l.t.passed slot ≠ 0 then (none, s)
    else
      let (deps, s) := s.drainDeps g d l
      (if deps = [] then none else some (deps, d.weak), s)

/-- Lanes wait for the requests their release covers. (DEDUCED, logs 28, 64.) -/
def State.gateDrain (s : State) (g : Workgroup) (op : Nat) (x : Args) (ls : List Lane) : State :=
  match s.cur with
  | none => s
  | some c =>
    let (ws, s) := ls.foldl (fun (a : List (Nat × List Nat × Bool) × State) l =>
      match a.2.drainOf g op x c.slot l with
      | (some w, s) => (a.1 ++ [(l.tid, w)], s)
      | (none, s) => (a.1, s)) ([], s)
    if ws = [] then s
    else if actsApart op x then
      s.holdWhere ls fun l => (ws.find? fun w => w.1 == l.tid).map fun w => .drain w.2.1.dedup w.2.2
    else s.holdAll ls fun _ => some (.drain (ws.flatMap fun w => w.2.1).dedup (ws.any fun w => w.2.2))

/-- The instructions that issue an engine command (R194). -/
def isEngineOp (op : Nat) : Bool := decide (0x1E0 ≤ op ∧ op ≤ 0x1EC)

/-- The memory instructions: those of R132, the scalar loads and stores, `sldk` and `ldtab`. (DEDUCED, log 36.) -/
def reachesMemory (op : Nat) : Bool :=
  decide ((0x030 ≤ op ∧ op ≤ 0x03A) ∨ (0x180 ≤ op ∧ op ≤ 0x1B9) ∨ op = 0x018 ∨ op = 0x14F)

/-- Instructions that read memory, or fork an engine that does: their value must not be older than an atomic or reduction
ordered before them. (DEDUCED, log 36.) -/
def readsMemory (op : Nat) : Bool :=
  decide ((0x030 ≤ op ∧ op ≤ 0x036) ∨ (0x180 ≤ op ∧ op ≤ 0x18B) ∨ (0x1A2 ≤ op ∧ op ≤ 0x1A7) ∨ op = 0x14F ∨ op = 0x1B6 ∨
    op = 0x1B7) || isEngineOp op

/-- Instructions that must not act before an earlier acquire has returned: the memory instructions, and those that read the
scratchpad or fork what reads it (R138, R194, R322, R336). (DEDUCED, log 36.) -/
def afterAcquires (op : Nat) : Bool :=
  reachesMemory op || isEngineOp op || decide ((0x1C2 ≤ op ∧ op ≤ 0x1C5) ∨ (0x1D0 ≤ op ∧ op ≤ 0x1D7))

/-- A request that changes memory at its home by an operation there. -/
def ReqKind.atHome : ReqKind → Bool
  | .amo .. | .red .. | .redw | .wfin .. => true
  | _ => false

/-- A pop or peek of the thread still waits for its element (R170): an acquire that has not returned. -/
def Thread.popsOut (t : Thread) : Bool := t.pend.any fun p => match p.src with | .chan _ => true | _ => false

/-- R138: no later memory instruction issues until an acquire has returned; and a read waits for the atomics and
reductions of its core, whose values it must not miss (R326, R329). (DEDUCED, log 36.) -/
def State.gateOrder (s : State) (core op : Nat) (l : Lane) : Option Hold :=
  let acqs := if afterAcquires op && l.act then
    (l.t.loadsOut ++ l.t.joined).filter fun r => (Tab.find s.reqs r).any fun q => q.acq.isSome else []
  let ats := if readsMemory op && l.act then
    (s.reqs.filter fun p => p.2.core = core && p.2.kind.atHome).map Prod.fst else []
  if acqs ++ ats = [] then none else some (.drain (acqs ++ ats) false)

/-- R322: nor until a pop or peek has its element. -/
def gatePops (op : Nat) (l : Lane) : Option Hold :=
  if afterAcquires op && l.act && l.t.popsOut then some .pops else none

/-- R152, step 2: the group waits until the heartbeat has advanced; its issue is noted, which gives it its place. -/
def State.gateTick (s : State) (op : Nat) (ls : List Lane) : State :=
  match s.cur with
  | none => s
  | some c =>
    if op = 0x1B5 ∧ ls.any fun l => l.act && decide (l.t.passed c.slot < 2) && !l.owes then
      (s.modWg c.wg fun g => c.lanes.foldl (fun g t => g.modThread t fun t => { t with fscStamp := c.stamp }) g).holdGroup c
        (c.lanes.map fun t => (t, .fsc s.hb))
    else s

/-! ### Gathering -/

/-- Threads of home warp `h` held before a group for one reason, in the same code as `priv` says (R343). -/
def Workgroup.heldBefore (g : Workgroup) (h : Nat) (pc : PC) (priv : Bool) (why : Hold) : List Nat :=
  (g.threads.filter fun p => g.home p.1 == h && p.2.pc == pc && p.2.priv == priv && p.2.hold == why).map Prod.fst

/-- Threads of home warp `h` that have not ended and whose bit in mask `k` is set. -/
def Workgroup.named (g : Workgroup) (h k : Nat) : List Nat :=
  (g.threads.filter fun p => g.home p.1 = h && !p.2.ended && (g.hw h).bitK k (g.laneOf p.1)).map Prod.fst

/-- The threads of an octet that have not ended. -/
def Workgroup.octetThreads (g : Workgroup) (o : Nat) : List Nat :=
  (g.threads.filter fun p => octetOf p.1 = o && !p.2.ended).map Prod.fst

/-- R93, R110: a lane whose bit is set issues here only when every thread named by the mask is in this formed warp, and no
other thread is held at the group on it. -/
def gateMask (c : Cur) (g : Workgroup) (k : Nat) (h : Hold) (l : Lane) : Option Hold :=
  if !(g.hw l.hw).bitK k l.lane then none
  else if (g.named l.hw k).all c.lanes.contains && (g.heldBefore l.hw c.pc l.t.priv h).isEmpty then none
  else some h

/-- A phase-barrier word is well formed (R164). -/
def pbOk (w : W64) : Bool :=
  bitsNat w 15 0 != 0 && decide (bitsNat w 31 16 < bitsNat w 15 0) && bitsNat w 63 34 == 0

/-- What stops a read at home of `k` bytes: its address, its translation, its data, a link. -/
def State.readStops (s : State) (g : Workgroup) (t : Thread) (va : W64) (k : Nat) : Option Cause :=
  match addrCause va k with
  | some e => some e
  | none =>
    match (s.reach g t false va).1 with
    | .error e => some e
    | .ok pa =>
      if s.isBad pa then some (0x13, va)
      else if (s.pathFrom (dieOfCore g.core) 0 pa).isNone then some (0x14, va)
      else none

/-- What a lane is held for at a group that gathers threads or waits for a value. A lane with a pending operand traps at an
`mbwt` or `waddr`; the others are held before their operands are looked at (R110). -/
def State.gateGather (s : State) (c : Cur) (g : Workgroup) (op : Nat) (sg : Sig) (x : Args) (l : Lane) : Option Hold :=
  let f := (x.fld .f).toNat
  if 0x0E0 ≤ op ∧ op ≤ 0x0FE then gateMask c g f (.cross f) l
  else if op = 0x04B then gateMask c g x.a.toNat (.elect x.a.toNat) l
  else if op = 0x144 then
    let ts := g.octetThreads (octetOf l.tid)
    if ts.all c.lanes.contains then none else some .fqnt
  else if op = 0x1C0 then
    if l.owes then none
    else some (.bar l.act x.b.toNat x.d.toNat x.a.toNat (modeOf x.ctl.pfx l.t))
  else if op = 0x1C1 then if gbarOk g && !l.owes then some .gbar else none
  else if !l.act || l.t.passed c.slot ≠ 0 || hazardAt sg x l then none
  else if op = 0x1C4 then
    if l.owes then none else
    let off := (l.h.readS x.a.toNat).toNat
    let par := (l.h.readS x.b.toNat).getLsbD 0
    let w := BitVec.ofNat 64 (g.spadRead off 8)
    if off % 8 = 0 ∧ g.inSpad off 8 ∧ pbOk w ∧ bitAt w 32 = par then some (.mbwt off par) else none
  else if op = 0x1B6 ∨ op = 0x1B7 then
    let k := if op = 0x1B6 then 4 else 8
    let va := l.t.readPair x.a.toNat
    let want := if k = 4 then (l.t.readV x.d.toNat).setWidth 64 else l.t.readPair x.d.toNat
    if (s.readStops g l.t va k).isSome then none
    else some (.waddr va k want (bitsNat x.b 1 0) (bitAt x.b 2) (bitAt x.b 4) s.hb)
  else none

/-! ### Groups that cannot issue yet (R229) -/

/-- Instructions that read a format word, and the field it stands in (R116). -/
def fmtField (op : Nat) : Option Fld :=
  if op = 0x12F then some .f else if op = 0x13A ∨ op = 0x13B ∨ op = 0x144 ∨ op = 0x145 then some .b else none

/-- R170: a push finds no room once the group's pops are taken, or an element is absent that a format word is read with.
`freed q` is how many elements of `q` the group pops, `before q` how many its earlier instructions do. -/
def chanWait (g : Workgroup) (op : Nat) (sg : Sig) (x : Args) (n : Nat) (freed before : Nat → Nat) : Option Block :=
  (match fieldChan sg x .d with
   | some (q, _) => (Tab.find g.chans q).bind fun ch =>
       if Sig.writes sg ∧ ch.kind = 1 ∧ n ≤ ch.depth ∧ ch.depth < ch.tail - (ch.head + freed q) + n then
         some (Block.room q n (freed q)) else none
   | none => none).orElse fun _ =>
  if (fmtField op).any fun k => (fieldChan sg x k).isSome then
    (popsOf sg x).findSome? fun (o : Fld × Nat × Bool) => (Tab.find g.chans o.2.1).bind fun ch =>
      (List.range n).findSome? fun r =>
        let i := before o.2.1 + elemIndex (popsOf sg x) ch o.1 o.2.1 n r
        if ch.has i then none else some (Block.elem o.2.1 i)
  else none

/-- Slots of the core's handle space in use (R195). -/
def State.handlesUsed (s : State) (core : Nat) : List Nat :=
  s.wgs.flatMap fun p => if p.2.core = core ∧ p.2.status ≠ .parked then (Tab.keys p.2.cmds).map fun k => k % 1024 else []

/-- CTL of a record (R196). -/
def Cmd.ctl (c : Cmd) : Nat := natOfBytes ((c.body.drop 56).take 2)
/-- A command names a channel (R196). -/
def Cmd.chan (c : Cmd) : Option Nat := if c.ctl.testBit 5 then some (c.ctl / 64 % 32) else none

/-- A command of the workgroup names a channel and has not pushed. -/
def Workgroup.owesPush (g : Workgroup) (q : Nat) : Bool := g.cmds.any fun p => p.2.chan == some q

/-- R171: an engine result queue has a command that has not pushed. -/
def chfreeWait (g : Workgroup) (x : Args) (l : Lane) : Option Block :=
  let q := (l.h.readS x.a.toNat).toNat
  if l.act && (Tab.find g.chans q).any (·.kind == 2) && g.owesPush q then some (.queue q) else none

/-- R129: an `ftab` on the bank that is not active has not returned. -/
def ldtabWait (g : Workgroup) : Bool :=
  let now := (g.act.map (·.active)).getD 0
  (g.defers.any fun p => p.2.op == 0x14E && p.2.lanes.any fun l => l.d.toNat != now) ||
  g.threads.any fun p => p.2.pend.any fun e => e.bank.any (· != now)

/-- Why the lanes of the group that act cannot issue an instruction now. -/
def State.waits (s : State) (g : Workgroup) (op : Nat) (sg : Sig) (x : Args) (ls : List Lane) (freed before : Nat → Nat) :
    Option Block :=
  if !(ls.any (·.act)) then none
  else (chanWait g op sg x (ls.filter (·.act)).length freed before).orElse fun _ =>
    if isEngineOp op ∧ 1024 ≤ (s.handlesUsed g.core).length then some .slots
    else if op = 0x1C7 then ls.findSome? (chfreeWait g x)
    else if op = 0x14F ∧ ldtabWait g then some .table
    else none

/-- What a thread is blocked by still stands. -/
def State.stillBlocked (s : State) (g : Workgroup) : Block → Bool
  | .room q n freed => (Tab.find g.chans q).any fun ch => decide (ch.depth < ch.tail - (ch.head + freed) + n)
  | .elem q i => (Tab.find g.chans q).any fun ch => !ch.has i
  | .slots => decide (1024 ≤ (s.handlesUsed g.core).length)
  | .queue q => g.owesPush q
  | .table => ldtabWait g

/-- Threads whose group can issue again are ready (R229). -/
def State.unblock (s : State) : State :=
  { s with wgs := Tab.map (fun _ g =>
      { g with threads := Tab.map (fun _ t =>
          if t.blocked.any fun b => !s.stillBlocked g b then { t with blocked := none } else t) g.threads }) s.wgs }

/-- Every lane of the group is put back before it, not held; a release set stays one. (DEDUCED, log 64.) -/
def State.unissue (s : State) (c : Cur) (why : Block) : State :=
  let s := s.modWg c.wg fun g =>
    c.lanes.foldl (fun g t => g.modThread t fun t => { t with pc := c.pc, blocked := some why }) g
  { s with cur := s.cur.map fun c => { c with lanes := [] } }

/-! ### The gate -/

/-- Lanes of the group whose encoding is legal, and those of them without a pending operand. -/
def State.legalLanes (s : State) (g : Workgroup) (op : Nat) (sg : Sig) (x : Args) : List Lane :=
  match s.cur with
  | some c => (lanesOf s c x.ctl.pfx).filter fun l => !staticBad g op sg x l
  | none => []
def State.gateLanes (s : State) (g : Workgroup) (op : Nat) (sg : Sig) (x : Args) : List Lane :=
  (s.legalLanes g op sg x).filter fun l => !hazardAt sg x l

/-- What must be over before an instruction of the group: settles and pops, each lane for itself; matrix operations, releases,
acquires, as the instruction acts; ticks, the group as one. -/
def gateHolds (op : Nat) (x : Args) (s : State) : State :=
  match s.cur with
  | none => s
  | some c =>
    let g := c.source s
    match g.sig op x with
    | none => s
    | some sg =>
      let s := s.holdWhere (s.legalLanes g op sg x) (s.gateSettle c.wg g op x)
      let s := s.holdWhere (s.gateLanes g op sg x) (gatePops op)
      let s := s.holdAs op x (s.gateLanes g op sg x) (gateMatrix g op x)
      let s := s.gateDrain g op x (s.gateLanes g op sg x)
      let s := s.holdAs op x (s.gateLanes g op sg x) (s.gateOrder g.core op)
      s.gateTick op (s.gateLanes g op sg x)

/-- The operations that gather threads, once every lane that is left waits for nothing else. (DEDUCED, log 56.) -/
def gateMeets (op : Nat) (x : Args) (s : State) : State :=
  match s.cur with
  | none => s
  | some c =>
    let g := c.source s
    match g.sig op x with
    | none => s
    | some sg =>
      if c.gathered then s
      else
        let hs := (s.legalLanes g op sg x).filterMap fun l => (s.gateGather c g op sg x l).map fun h => (l.tid, h)
        if hs = [] then s else s.holdLanes c hs

/-- Why an instruction of the group cannot issue yet. -/
def State.blockOf (s : State) (op : Nat) (x : Args) (freed before : Nat → Nat) : Option Block :=
  s.cur.bind fun c =>
    let g := c.source s
    (g.sig op x).bind fun sg => s.waits g op sg x (s.gateLanes g op sg x) freed before

/-- A group that cannot issue yet is put back whole. -/
def State.putBack (s : State) (why : Option Block) : State :=
  match s.cur, why with
  | some c, some why => s.unissue c why
  | _, _ => s

/-- The conditions of one instruction. -/
def gate (op : Nat) (x : Args) (freed : Nat → Nat) (s : State) : State :=
  let s := gateMeets op x (gateHolds op x s)
  s.putBack (s.blockOf op x freed fun _ => 0)

/-- The pops of one instruction, for its own push. -/
def ownPops (op : Nat) (x : Args) (s : State) (q : Nat) : Nat :=
  match s.cur, sigOf op x with
  | some c, some sg => popCount (popsOf sg x) q * ((lanesOf s c x.ctl.pfx).filter (·.act)).length
  | _, _ => 0

/-- The group's lanes issue. -/
def State.startLanes (s : State) (c : Cur) : State :=
  s.modWg c.wg fun g =>
    (c.lanes.foldl (fun g t => g.modThread t fun t => { t with blocked := none }) g).unset c.lanes

/-- An instruction: its conditions, then its effect on the lanes that issue. -/
def issue (op : Nat) (x : Args) (s : State) (eff : Sig → Cur → State → State) : Res :=
  let s := match s.cur with
    | some c => if c.checked then s else gate op x (ownPops op x s) s
    | none => s
  match s.cur with
  | none => .next s
  | some c =>
    match (c.source s).sig op x with
    | some sg => .next (eff sg c s)
    | none => .next s

end Sys2Proof.Machine
end

