-- ==== Sys2Proof/Machine/Lanes.lean ====
section
/-! DEFINITION. The two shapes of a vector instruction: each active lane on its own (R98, R113), and each active lane with
the participants of its home warp (R110, R111); operands, channels, the settle hazard and the destinations are the same for
all of them. -/

namespace Sys2Proof.Machine

/-- What the checks before an operand's value is looked at find in a lane (R341): illegal bits, a channel of the wrong
width or depth, a pending register, one that cannot be read, a failed write that a push reports.
(DEDUCED, logs 23, 28, 65, 113.) -/
def formCause (g : Workgroup) (op : Nat) (sg : Sig) (x : Args) (n : Nat) (c : Cur) (l : Lane) : Option Cause :=
  if staticBad g op sg x l then some (illegal c)
  else if l.act && [Fld.d, .a, .b, .f].any (chanBad g sg x n) then some (illegal c)
  else if hazardAt sg x l then some (hazard c)
  else if spoiltAt sg x l then some (0x13, 0)
  else if l.act && pushes sg x then l.t.owed
  else none

/-- A lane traps; a push, which is a release, reports the writes of its thread that failed (R139). (DEDUCED, log 28.) -/
def Workgroup.trapPush (g : Workgroup) (sg : Sig) (x : Args) (c : Cur) (l : Lane) (e : Cause) : Workgroup :=
  let g := g.trapLane c l.tid e
  if l.act && pushes sg x && l.t.owed == some e then g.modThread l.tid fun t => { t with failed := [] } else g

/-- The D an instruction reads: its register, or for `ftab` the bank that is active when it issues (R131). -/
def dValue (g : Workgroup) (op : Nat) (sg : Sig) (x : Args) (l : Lane) : W128 :=
  if op = 0x14E then BitVec.ofNat 128 ((g.act.map (·.active)).getD 0)
  else if Sig.readsD sg then readField op sg x l .d
  else 0

/-- The operands of a lane, of rank `r` among the `n` that claim; `src` is the workgroup before the group. -/
def laneSrc (src g : Workgroup) (op : Nat) (sg : Sig) (x : Args) (n r : Nat) (l : Lane) : DLane :=
  let y (k : Fld) : Src := fieldSrc src g op sg x l n r k
  { tid := l.tid, a := y .a, b := y .b, f := y .f, d := dValue g op sg x l, mode := modeOf x.ctl.pfx l.t }

def DLane.ready (l : DLane) : Bool := l.a.ready && l.b.ready && l.f.ready
def DLane.input (l : DLane) : LaneIn :=
  { a := l.a.value, b := l.b.value, f := l.f.value, d := l.d, mode := l.mode }

/-- What a pass over the lanes has done so far: the workgroup, how many lanes have claimed and how many have pushed, and
the elements that receive their value when all lanes are done; `bank`: that of an `ftab`. -/
structure Acc where
  g : Workgroup
  bank : Option Nat := none
  claimed : Nat := 0
  pushed : Nat := 0
  fills : List (Nat × Nat × W128) := []

/-- The channel a destination pushes to, and the index of its next element. -/
def pushSlot (g : Workgroup) (sg : Sig) (x : Args) : Option (Nat × Nat) :=
  match fieldChan sg x .d with
  | some (q, _) => some (q, ((Tab.find g.chans q).map (·.tail)).getD 0)
  | none => none

/-- The result of a lane whose operands are there: its registers and flags, or the element it pushes. -/
def Acc.deliver (k : Acc) (c : Cur) (sg : Sig) (x : Args) (tid : Nat) (late : Bool) (push : Option (Nat × Nat))
    (o : LaneOut) : Acc :=
  { k with
    g := k.g.result c sg x tid late o k.bank
    fills := match push with
      | some (q, t) => k.fills ++ [(q, t + k.pushed, o.v)]
      | none => k.fills
    pushed := k.pushed + 1 }

/-- A lane whose operands are still to come: a deferred computation, its destination pending. -/
def Acc.defer (k : Acc) (c : Cur) (op : Nat) (sg : Sig) (x : Args) (tid : Nat) (lanes : List DLane)
    (push : Option (Nat × Nat)) : Acc :=
  let id := Tab.fresh k.g.defers
  let sink : Sink := match push with | some (q, t) => .elem q (t + k.pushed) | none => .reg
  let g := { k.g with defers := Tab.put k.g.defers id { op, x, lanes, sinks := [sink] } }
  let g := match push with
    | some (q, t) => { g with chans := Tab.modify g.chans q fun ch => { ch with unready := ch.unready ++ [t + k.pushed] } }
    | none => g
  { k with g := g.pendAdd c tid (destRegs sg x) (.chan id), pushed := k.pushed + 1 }

/-- The passes of the channel elements the lanes of an instruction reach, there yet or not (R272). -/
def chanPasses (sg : Sig) (x : Args) (n : Nat) (go : List Lane) (g : Workgroup) : Workgroup :=
  let g := (popsOf sg x).foldl (fun g o =>
    match Tab.find g.chans o.2.1 with
    | none => g
    | some ch =>
      g.addPasses ch.bytes (go.zipIdx.map fun p => (p.1.lane, ch.addr (elemIndex (popsOf sg x) ch o.1 o.2.1 n p.2)))) g
  match fieldChan sg x .d with
  | some (q, _) =>
    match Tab.find g.chans q with
    | some ch => g.addPasses ch.bytes (go.zipIdx.map fun p => (p.1.lane, ch.addr (ch.tail + p.2)))
    | none => g
  | none => g

/-- The lanes of a vector instruction; `one` gives the result of a lane from the operands of all that compute. A lane that
traps claims no element and is no participant (R110). (DEDUCED, log 26.) -/
def laneGroup (op : Nat) (sg : Sig) (x : Args) (c : Cur) (ls : List Lane)
    (one : Workgroup → Acc → Bool → Option (Nat × Nat) → List DLane → Lane → DLane → Acc) (src g : Workgroup) : Workgroup :=
  let n := (ls.filter (·.act)).length
  let cause := formCause g op sg x n c
  let go := ls.filter fun l => l.act && (cause l).isNone
  let m := go.length
  let g0 := chanPasses sg x m go g
  let srcs := (go.zipIdx).map fun p => laneSrc src g op sg x m p.2 p.1
  let late := isSpecial op || !(popsOf sg x).isEmpty
  let push := if Sig.writes sg then pushSlot g sg x else none
  let k := ls.foldl (fun (k : Acc) l =>
    match cause l with
    | some e => { k with g := k.g.trapPush sg x c l e }
    | none =>
      if l.act then
        match srcs[k.claimed]? with
        | none => k
        | some y =>
          one g { k with claimed := k.claimed + 1 } late push srcs l y
      else if x.z then { k with g := k.g.arriveAll l.tid (zeroWrites sg x) }
      else k) { g := g0, bank := if op = 0x14E then some ((g.act.map (·.active)).getD 0) else none }
  k.fills.foldl (fun g f => g.fill f.1 f.2.1 f.2.2) (k.g.claim sg x m k.pushed)

/-- A lane that computes on its own operands. -/
def oneLane (op : Nat) (sg : Sig) (x : Args) (c : Cur) (fn : Workgroup → LaneIn → LaneOut) (g : Workgroup) (k : Acc)
    (late : Bool) (push : Option (Nat × Nat)) (_all : List DLane) (l : Lane) (y : DLane) : Acc :=
  if y.ready then k.deliver c sg x l.tid late push (fn g y.input) else k.defer c op sg x l.tid [y] push

/-- An instruction of the V or F pipe that computes lane by lane. -/
def lanewiseG (op : Nat) (fn : Workgroup → LaneIn → LaneOut) (x : Args) (s : State) : Res :=
  issue op x s fun sg c s =>
    s.modWg c.wg (laneGroup op sg x c (lanesOf s c x.ctl.pfx) (oneLane op sg x c fn) (c.source s))

/-- The same where the result depends on the operands alone. -/
def lanewise (op : Nat) (fn : LaneIn → LaneOut) (x : Args) (s : State) : Res := lanewiseG op (fun _ => fn) x s

/-- What a field holds can be looked at in a lane: its registers and the mask predicate are neither pending nor spoilt. -/
def known (sg : Sig) (x : Args) (l : Lane) (k : Fld) : Bool :=
  !predPending x l.t && !((fieldRegs sg x k).any fun r => l.t.pending.contains r || l.spoilt r)

/-- R61, R115: the format word in field `k` is invalid in an active lane that can read it. (DEDUCED, log 100.) -/
def fmtWrong (op : Nat) (k : Fld) (sg : Sig) (x : Args) (c : Cur) (ls : List Lane) (src g : Workgroup) : Bool :=
  let n := (ls.filter (·.act)).length
  let wrong (v : W128) : Bool := (vecFmt? (v.setWidth 32)).isNone
  if (fieldChan sg x k).isSome then
    let go := ls.filter fun l => l.act && (formCause g op sg x n c l).isNone
    go.zipIdx.any fun p => wrong (fieldSrc src g op sg x p.1 go.length p.2 k).value
  else
    ls.any fun l => l.act && formCause g op sg x n c l != some (illegal c) && known sg x l k && wrong (readField op sg x l k)

/-- Every active lane takes the illegal-encoding trap and none computes (R61); an inactive lane takes a cause of its own.
(DEDUCED, log 100.) -/
def fmtTraps (op : Nat) (sg : Sig) (x : Args) (c : Cur) (ls : List Lane) (g : Workgroup) : Workgroup :=
  ls.foldl (fun g' l =>
    match if l.act then some (illegal c) else formCause g op sg x 0 c l with
    | some e => g'.trapLane c l.tid e
    | none => g') g

/-- Lanes under a format word in field `k`, which is checked in every active lane before any lane computes (R115).
(DEDUCED, log 100.) -/
def withFmt (op : Nat) (k : Fld) (sg : Sig) (x : Args) (c : Cur) (ls : List Lane) (run : Workgroup → Workgroup)
    (src g : Workgroup) : Workgroup :=
  if fmtWrong op k sg x c ls src g then fmtTraps op sg x c ls g else run g

/-- An instruction that computes lane by lane under a format word. -/
def lanewiseFmt (op : Nat) (k : Fld) (fn : LaneIn → LaneOut) (x : Args) (s : State) : Res :=
  issue op x s fun sg c s =>
    let ls := lanesOf s c x.ctl.pfx
    let src := c.source s
    s.modWg c.wg (withFmt op k sg x c ls (laneGroup op sg x c ls (oneLane op sg x c fun _ => fn) src) src)

/-! ### Cross-lane operations -/

/-- A cross-lane operation: from the participants in rank order, the own rank and the own operands. -/
abbrev CrossFn := List Part → Nat → LaneIn → W128

/-- The participants of a lane: the active lanes of its home warp that were released with it, or whose bit is set as its
own is, or the lane alone (R110). -/
def partsOf (g : Workgroup) (released : Bool) (k : Nat) (all : List DLane) (tid : Nat) : List DLane :=
  let h := g.home tid
  let on (t : Nat) : Bool := g.home t = h && (released || (g.hw h).bitK k (g.laneOf t))
  if on tid then all.filter fun y => on y.tid else all.filter fun y => y.tid = tid

/-- The result of one participant. -/
def crossResult (g : Workgroup) (fn : CrossFn) (ps : List DLane) (tid : Nat) : LaneOut :=
  let P := ps.map fun y => ({ lane := g.laneOf y.tid, x := y.input } : Part)
  let r := (ps.takeWhile fun y => y.tid != tid).length
  match ps.find? fun y => y.tid = tid with
  | some y => { v := fn P r y.input }
  | none => { v := 0 }

def oneCross (op : Nat) (sg : Sig) (x : Args) (c : Cur) (fn : CrossFn) (src g : Workgroup) (k : Acc) (late : Bool)
    (push : Option (Nat × Nat)) (all : List DLane) (l : Lane) (_y : DLane) : Acc :=
  let ps := partsOf src c.gathered (x.fld .f).toNat all l.tid
  if ps.all DLane.ready then k.deliver c sg x l.tid late push (crossResult g fn ps l.tid)
  else k.defer c op sg x l.tid ps push

/-- A cross-lane operation that writes D. -/
def crosswise (op : Nat) (fn : CrossFn) (x : Args) (s : State) : Res :=
  issue op x s fun sg c s =>
    let src := c.source s
    s.modWg c.wg (laneGroup op sg x c (lanesOf s c x.ctl.pfx) (oneCross op sg x c fn src) src)

/-! ### Executions shared by several lanes (R47, R341) -/

/-- Units of lanes that execute together: each is refused whole when one of its active lanes meets a cause, and otherwise
has its effect if it has an active lane. An inactive lane with a cause of its own takes it. `prep` is what looking for
the causes itself does: translations installed, failures logged; `owes` the lanes that trap for writes of theirs that failed,
which are reported by that (R139). -/
def State.shared (s : State) (c : Cur) (units : List (List Lane)) (cause : State → List Lane → Lane → Option Cause)
    (eff : State → List Lane → State) (prep : State → List Lane → State := fun s _ => s)
    (owes : State → List Lane → Lane → Bool := fun _ _ _ => false) : State :=
  units.foldl (fun s u =>
    let act := u.filter (·.act)
    let own := cause s act
    let paid := u.filter (owes s act)
    let s := prep s act
    let s' := s.modWg c.wg fun g => u.foldl (fun g l =>
      match if l.act then sharedCause own act l else own l with
      | some k => g.trapLane c l.tid k
      | none => g) g
    let s' := if paid = [] then s' else s'.modWg c.wg fun g =>
      paid.foldl (fun g l => g.modThread l.tid fun t => { t with failed := [] }) g
    if act = [] ∨ (act.findSome? own).isSome then s' else eff s' act) s

/-- The lanes of each home warp. -/
def byHome (ls : List Lane) : List (List Lane) := (homesOf ls).map fun h => ls.filter (·.hw = h)

/-- A value in some fields of an active lane is illegal; looked at only where it is known. -/
structure Ill where
  reads : List Fld
  bad : State → Cur → Sig → Lane → Bool

/-- No value of the instruction is illegal. -/
def noIll : Ill := ⟨[], fun _ _ _ _ => false⟩

def Ill.at_ (i : Ill) (s : State) (c : Cur) (sg : Sig) (x : Args) (l : Lane) : Bool :=
  l.act && i.reads.all (known sg x l) && i.bad s c sg l

/-- What the bits, the values and the pending registers make of a lane, in this order (R341), then a check of its own for
active lanes. -/
def scalarCause (src : Workgroup) (op : Nat) (sg : Sig) (x : Args) (c : Cur) (more : List Lane → Lane → Option Cause)
    (act : List Lane) (l : Lane) (ill : Bool := false) : Option Cause :=
  if ill then some (illegal c)
  else
    match formCause src op sg x 0 c l with
    | some k => some k
    | none => if l.act then more act l else none

/-- A cause, else the trap a waiting instruction owes in an active lane for the writes of its thread that failed: that of the
first, which covers them all (R139, R340). (DEDUCED, log 28.) -/
def orOwed (waits : Bool) (k : Option Cause) (l : Lane) : Option Cause :=
  match k with
  | some k => some k
  | none => if waits && l.act then l.t.owed else none

/-- A scalar or mask-writing instruction: once for each home warp with an active lane (R47). `more` is what else an
active lane can meet, and `eff` what the home warp does, given its active lanes; `prep` runs for the lanes whose form is
good; `waits`: it waits for the writes of its threads. -/
def perHome (op : Nat) (more : State → Cur → Sig → List Lane → Lane → Option Cause)
    (eff : Sig → Cur → List Lane → State → State) (x : Args) (s : State)
    (prep : Cur → List Lane → State → State := fun _ _ s => s) (ill : Ill := noIll) (waits : Bool := false) : Res :=
  issue op x s fun sg c s =>
    let src := c.source s
    let base (s : State) (act : List Lane) (l : Lane) : Option Cause :=
      scalarCause src op sg x c (more s c sg) act l (ill.at_ s c sg x l)
    s.shared c (byHome (lanesOf s c x.ctl.pfx)) (fun s act l => orOwed waits (base s act l) l)
      (fun s act => eff sg c act s)
      (fun s act => prep c (act.filter fun l => (formCause src op sg x 0 c l).isNone && !ill.at_ s c sg x l) s)
      (fun s act l => waits && l.act && (base s act l).isNone && l.t.owed.isSome)

/-- The same once for the whole formed warp, on the values of its lowest active lane (R129, R176, R194). -/
def perWarp (op : Nat) (more : State → Cur → Sig → List Lane → Lane → Option Cause)
    (eff : Sig → Cur → List Lane → State → State) (x : Args) (s : State) (ill : Ill := noIll)
    (prep : Cur → List Lane → State → State := fun _ _ s => s) : Res :=
  issue op x s fun sg c s =>
    let src := c.source s
    s.shared c [lanesOf s c x.ctl.pfx]
      (fun s act l => scalarCause src op sg x c (more s c sg) act l (l.act && act.head?.any (ill.at_ s c sg x)))
      (fun s act => eff sg c act s)
      (fun s act => if act.all fun l => (formCause src op sg x 0 c l).isNone then prep c act s else s)

/-- An instruction each active lane executes for itself, with its own causes. -/
def perLane (op : Nat) (more : State → Cur → Sig → Lane → Option Cause)
    (eff : Sig → Cur → Lane → State → State) (x : Args) (s : State)
    (prep : Cur → Lane → State → State := fun _ _ s => s) (ill : Ill := noIll) (waits : Bool := false) : Res :=
  issue op x s fun sg c s =>
    let src := c.source s
    let base (s : State) (act : List Lane) (l : Lane) : Option Cause :=
      scalarCause src op sg x c (fun _ l => more s c sg l) act l (ill.at_ s c sg x l)
    s.shared c ((lanesOf s c x.ctl.pfx).map fun l => [l]) (fun s act l => orOwed waits (base s act l) l)
      (fun s act => act.foldl (fun s l => eff sg c l s) s)
      (fun s act => (act.filter fun l => (formCause src op sg x 0 c l).isNone && !ill.at_ s c sg x l).foldl
        (fun s l => prep c l s) s)
      (fun s act l => waits && l.act && (base s act l).isNone && l.t.owed.isSome)

/-- No cause beyond the form. -/
def noCause : State → Cur → Sig → List Lane → Lane → Option Cause := fun _ _ _ _ _ => none
def noLaneCause : State → Cur → Sig → Lane → Option Cause := fun _ _ _ _ => none

/-- The failed writes of the threads that trap for them are reported (R139). (DEDUCED, log 28.) -/
def clearOwed (c : Cur) (l : Lane) (s : State) : State :=
  s.modWg c.wg fun g => g.modThread l.tid fun t => { t with failed := [] }

end Sys2Proof.Machine
end

