-- ==== Sys2Proof/Machine/Scalar.lean ====
section
/-! DEFINITION. The meanings of the scalar instructions, opcodes 0x001 to 0x03A (R78 to R83, R49, R50). -/

namespace Sys2Proof.Machine

/-! ### Shared operations -/

/-- The scalar value of a field in the home warp of a lane. -/
def scalarField (op : Nat) (sg : Sig) (x : Args) (l : Lane) (k : Fld) : W64 := (readField op sg x l k).setWidth 64

def State.writeScalar (s : State) (c : Cur) (h n : Nat) (v : W64) : State :=
  s.modWg c.wg fun g => g.modHw h (·.writeS n v)

/-- The result of a home warp goes to s[h][D] (R79); `f` reads the lowest active lane. -/
def scalarResult (op : Nat) (f : Sig → Lane → W64) (x : Args) (s : State) : Res :=
  perHome op noCause (fun sg c act s =>
    match act with
    | [] => s
    | l :: _ => s.writeScalar c l.hw x.d.toNat (f sg l)) x s

/-- A scalar operation on A and B. -/
def scalarOp (op : Nat) (f : W64 → W64 → W64) (x : Args) (s : State) : Res :=
  scalarResult op (fun sg l => f (scalarField op sg x l .a) (scalarField op sg x l .b)) x s

/-- A scalar compare: predicate D of every active thread of the home warp (R80). -/
def scalarCmp (op : Nat) (f : W64 → W64 → Bool) (x : Args) (s : State) : Res :=
  perHome op noCause (fun sg c act s =>
    s.modWg c.wg fun g => act.foldl (fun g l =>
      g.modThread l.tid (·.writeP x.d.toNat (f (scalarField op sg x l .a) (scalarField op sg x l .b)))) g) x s

/-- A shift count is b[5:0]. -/
def cnt6 (b : W64) : Nat := bitsNat b 5 0
def shl64 (a b : W64) : W64 := a <<< cnt6 b
def shr64 (a b : W64) : W64 := a >>> cnt6 b
def sra64 (a b : W64) : W64 := a.sshiftRight (cnt6 b)

/-! ### Synchronous memory accesses -/

/-- Writes of a core to a sector that have not been applied. -/
def State.ownOut (s : State) (core pa : Nat) : List Req :=
  (s.reqs.filter fun p => p.2.core = core && p.2.kind == .write && sectorOf p.2.pa = sectorOf pa &&
    (match p.2.state with | .waiting _ | .sent | .arrived => true | _ => false)).map Prod.snd

/-- The bytes of the home overlaid with those the core has on their way there, and with its core-weak bytes. -/
def State.withWeak (s : State) (core asid pa : Nat) (bs : List Byte) : List Byte :=
  let x := Tab.get noSector (s.coreOf core).l1 (l1Key asid (sectorOf pa))
  bs.zipIdx.map fun p =>
    let a := pa + p.2
    if x.weak.getLsbD (a % 64) then dataByte x.data (a % 64)
    else
      (s.ownOut core pa).foldl (fun b r =>
        let i := a - r.pa
        if r.asid = asid ∧ r.pa ≤ a ∧ i < r.data.length ∧ r.mask.getD i true then r.data.getD i b else b) p.1

/-- A plain load that completes before the next issue group (R81): the L1 or Porch, else a fill from the home.
(DEDUCED, log 97.) -/
def State.loadSync (s : State) (core asid pa k : Nat) : List Byte × State :=
  match s.loadHit core asid pa k with
  | some r => r
  | none =>
    let bs := s.withWeak core asid pa (s.bytesAt pa k)
    let s := (s.countAt (dieOfCore core) pa).scrub (s.dieFor pa (dieOfCore core)) pa asid (some core)
    if s.cacheable pa ∧ s.ownOut core pa = [] then
      let data := sectorData (s.bytesAt (sectorOf pa * 64) 64)
      (bs, (s.fillCopy core asid pa data s.hb s.nextReq).share core pa)
    else (bs, s)

/-- The address of `sld` and `sst`. -/
def scalarAddr (x : Args) (k : Nat) (l : Lane) : W64 := l.h.readS x.a.toNat + x.b.signExtend 64 * BitVec.ofNat 64 k

def scalarMemCause (x : Args) (k : Nat) (write : Bool) (s : State) (c : Cur) (_sg : Sig) (_act : List Lane) (l : Lane) :
    Option Cause :=
  let va := scalarAddr x k l
  match addrCause va k with
  | some e => some e
  | none =>
    match (s.reach (c.source s) l.t write va).1 with
    | .error e => some e
    | .ok pa =>
      let g := c.source s
      if write then none else (s.loadStops g.core g.ctx.asid pa k).map fun e => (e, va)

/-- The translation of the home warp's access: installed, or its failure logged. -/
def scalarMemPrep (x : Args) (k : Nat) (write : Bool) (c : Cur) (act : List Lane) (s : State) : State :=
  match act with
  | [] => s
  | l :: _ =>
    let va := scalarAddr x k l
    if (addrCause va k).isSome then s
    else
      match s.reach (c.source s) l.t write va with
      | (.error _, s) => s
      | (.ok pa, s) =>
        let g := s.wgOf c.wg
        if !write && (s.loadStops g.core g.ctx.asid pa k).isSome then s.logStop g.core g.ctx.asid pa k else s

/-- R219: a load that its core's L1 does not serve. (DESIGN CHOICE, log 62.) -/
def State.countMiss (s : State) (w pa k : Nat) : State :=
  let g := s.wgOf w
  match s.copyFor g.core g.ctx.asid pa k with
  | some (.l1 _) => s
  | _ => s.modWg w fun g => g.count 4 1

/-- `sld` (R81). (DEDUCED, log 97.) -/
def scalarLoad (op k : Nat) (signed : Bool) (x : Args) (s : State) : Res :=
  perHome op (scalarMemCause x k false) (fun _ c act s =>
    match act with
    | [] => s
    | l :: _ =>
      let g := s.wgOf c.wg
      match s.reach g l.t false (scalarAddr x k l) with
      | (.error _, s) => s
      | (.ok pa, s) =>
        let s := s.countMiss c.wg pa k
        let (bs, s) := s.loadSync g.core g.ctx.asid pa k
        let n := natOfBytes bs
        let v := if signed then (BitVec.ofNat (8 * k) n).signExtend 64 else BitVec.ofNat 64 n
        s.writeScalar c l.hw x.d.toNat v) x s (scalarMemPrep x k false)

/-- A core-weak store of bytes by some threads of a home warp. -/
def State.weakStore (s : State) (c : Cur) (g : Workgroup) (pa : Nat) (va : W64) (bs : List Byte) (tids : List Nat) : State :=
  let seq := s.nextReq
  let s := tids.foldl (fun s t => s.bufferStore g.core g.ctx.asid pa ⟨c.wg, t, va, seq⟩ bs.length)
    { s with nextReq := seq + 1 }
  s.storeL1 g.core g.ctx.asid pa bs

/-- `sst` (R81). -/
def scalarStore (op k : Nat) (x : Args) (s : State) : Res :=
  perHome op (scalarMemCause x k true) (fun _ c act s =>
    match act with
    | [] => s
    | l :: _ =>
      let g := s.wgOf c.wg
      match s.reach g l.t true (scalarAddr x k l) with
      | (.error _, s) => s
      | (.ok pa, s) =>
        s.weakStore c g pa (scalarAddr x k l) (bytesOfNat (l.h.readS x.d.toNat).toNat k) (act.map (·.tid))) x s
    (scalarMemPrep x k true)

/-! ### Arithmetic, logic and compares (R79, R80) -/

/-- R79: Scalar add modulo 2^64, once per home warp with an active thread. -/
def execSadd (x : Args) (s : State) : Res := scalarOp 0x001 (· + ·) x s
/-- R79: Scalar subtract modulo 2^64. -/
def execSsub (x : Args) (s : State) : Res := scalarOp 0x002 (· - ·) x s
/-- R79: Scalar low multiply modulo 2^64. -/
def execSmul (x : Args) (s : State) : Res := scalarOp 0x003 (· * ·) x s
/-- R79: High 64 bits of the signed scalar product. -/
def execSmulhS64 (x : Args) (s : State) : Res := scalarOp 0x004 mulhS x s
/-- R79: High 64 bits of the unsigned scalar product. -/
def execSmulhN64 (x : Args) (s : State) : Res := scalarOp 0x005 mulhN x s
/-- R79: Signed scalar division truncated toward zero with defined zero and overflow cases. -/
def execSdivS64 (x : Args) (s : State) : Res := scalarOp 0x006 divS x s
/-- R79: Unsigned scalar division; division by zero gives all ones. -/
def execSdivN64 (x : Args) (s : State) : Res := scalarOp 0x007 divN x s
/-- R79: Signed scalar remainder with the sign of a. -/
def execSremS64 (x : Args) (s : State) : Res := scalarOp 0x008 remS x s
/-- R79: Unsigned scalar remainder; b = 0 gives a. -/
def execSremN64 (x : Args) (s : State) : Res := scalarOp 0x009 remN x s
/-- R79: Scalar bitwise and. -/
def execSand (x : Args) (s : State) : Res := scalarOp 0x00A (· &&& ·) x s
/-- R79: Scalar bitwise or. -/
def execSor (x : Args) (s : State) : Res := scalarOp 0x00B (· ||| ·) x s
/-- R79: Scalar bitwise exclusive or. -/
def execSxor (x : Args) (s : State) : Res := scalarOp 0x00C (· ^^^ ·) x s
/-- R79: Scalar shift left by b[5:0]. -/
def execSshl (x : Args) (s : State) : Res := scalarOp 0x00D shl64 x s
/-- R79: Scalar logical shift right by b[5:0]. -/
def execSshr (x : Args) (s : State) : Res := scalarOp 0x00E shr64 x s
/-- R79: Scalar arithmetic shift right by b[5:0]. -/
def execSsra (x : Args) (s : State) : Res := scalarOp 0x00F sra64 x s
/-- R79: Signed scalar minimum. -/
def execSminS64 (x : Args) (s : State) : Res := scalarOp 0x010 minS x s
/-- R79: Unsigned scalar minimum. -/
def execSminN64 (x : Args) (s : State) : Res := scalarOp 0x011 minN x s
/-- R79: Signed scalar maximum. -/
def execSmaxS64 (x : Args) (s : State) : Res := scalarOp 0x012 maxS x s
/-- R79: Unsigned scalar maximum. -/
def execSmaxN64 (x : Args) (s : State) : Res := scalarOp 0x013 maxN x s
/-- R79: Scalar move of b or a literal. -/
def execSmov (x : Args) (s : State) : Res := scalarOp 0x014 (fun _ b => b) x s
/-- The predicate in F is that of the lowest active lane. -/
def execSsel (x : Args) (s : State) : Res :=
  scalarResult 0x015 (fun sg l =>
    if l.t.readP (x.fld .f).toNat then scalarField 0x015 sg x l .a else scalarField 0x015 sg x l .b) x s
/-- R79: Moves the lowest active lane's vector value into a scalar register. -/
def execSmovV (x : Args) (s : State) : Res := scalarResult 0x019 (fun _ l => (l.t.readV x.a.toNat).setWidth 64) x s
/-- R79: Scalar add of a sign-extended 7-bit immediate. -/
def execSaddI (x : Args) (s : State) : Res := scalarOp 0x01A (· + ·) x s
/-- R79: Scalar and with an immediate. -/
def execSandI (x : Args) (s : State) : Res := scalarOp 0x01B (· &&& ·) x s
/-- R79: Scalar or with an immediate. -/
def execSorI (x : Args) (s : State) : Res := scalarOp 0x01C (· ||| ·) x s
/-- R79: Scalar exclusive or with an immediate. -/
def execSxorI (x : Args) (s : State) : Res := scalarOp 0x01D (· ^^^ ·) x s
/-- R79: Scalar shift left by an immediate count. -/
def execSshlI (x : Args) (s : State) : Res := scalarOp 0x01E shl64 x s
/-- R79: Scalar logical shift right by an immediate count. -/
def execSshrI (x : Args) (s : State) : Res := scalarOp 0x01F shr64 x s
/-- R79: Scalar arithmetic shift right by an immediate count. -/
def execSsraI (x : Args) (s : State) : Res := scalarOp 0x020 sra64 x s
/-- R79: Loads a sign-extended immediate into a scalar register. -/
def execSli (x : Args) (s : State) : Res := scalarOp 0x021 (fun _ b => b) x s
/-- R80: Scalar equality compare writing a predicate of each active thread. -/
def execScmpEq (x : Args) (s : State) : Res := scalarCmp 0x022 (· == ·) x s
/-- R80: Scalar inequality compare. -/
def execScmpNe (x : Args) (s : State) : Res := scalarCmp 0x023 (· != ·) x s
/-- R80: Signed scalar less-than compare. -/
def execScmpLtS64 (x : Args) (s : State) : Res := scalarCmp 0x024 BitVec.slt x s
/-- R80: Signed scalar less-or-equal compare. -/
def execScmpLeS64 (x : Args) (s : State) : Res := scalarCmp 0x025 BitVec.sle x s
/-- R80: Unsigned scalar less-than compare. -/
def execScmpLtN64 (x : Args) (s : State) : Res := scalarCmp 0x026 BitVec.ult x s
/-- R80: Unsigned scalar less-or-equal compare. -/
def execScmpLeN64 (x : Args) (s : State) : Res := scalarCmp 0x027 BitVec.ule x s
/-- R80: Scalar equality compare with an immediate. -/
def execScmpEqI (x : Args) (s : State) : Res := scalarCmp 0x028 (· == ·) x s
/-- R80: Scalar inequality compare with an immediate. -/
def execScmpNeI (x : Args) (s : State) : Res := scalarCmp 0x029 (· != ·) x s
/-- R80: Signed scalar less-than compare with an immediate. -/
def execScmpLtS64I (x : Args) (s : State) : Res := scalarCmp 0x02A BitVec.slt x s
/-- R80: Unsigned scalar less-than compare with an immediate. -/
def execScmpLtN64I (x : Args) (s : State) : Res := scalarCmp 0x02B BitVec.ult x s

/-! ### Memory (R81, R82) -/

/-- R81: Scalar load of one byte, zero-extended. -/
def execSldN8 (x : Args) (s : State) : Res := scalarLoad 0x030 1 false x s
/-- R81: Scalar load of one byte, sign-extended. -/
def execSldS8 (x : Args) (s : State) : Res := scalarLoad 0x031 1 true x s
/-- R81: Scalar load of 2 bytes, zero-extended. -/
def execSldN16 (x : Args) (s : State) : Res := scalarLoad 0x032 2 false x s
/-- R81: Scalar load of 2 bytes, sign-extended. -/
def execSldS16 (x : Args) (s : State) : Res := scalarLoad 0x033 2 true x s
/-- R81: Scalar load of 4 bytes, zero-extended. -/
def execSldN32 (x : Args) (s : State) : Res := scalarLoad 0x034 4 false x s
/-- R81: Scalar load of 4 bytes, sign-extended. -/
def execSldS32 (x : Args) (s : State) : Res := scalarLoad 0x035 4 true x s
/-- R81: Scalar load of 8 bytes. -/
def execSldB64 (x : Args) (s : State) : Res := scalarLoad 0x036 8 false x s
/-- R81: Scalar store of the low byte as a core-weak store. -/
def execSstN8 (x : Args) (s : State) : Res := scalarStore 0x037 1 x s
/-- R81: Scalar store of the low 2 bytes. -/
def execSstN16 (x : Args) (s : State) : Res := scalarStore 0x038 2 x s
/-- R81: Scalar store of the low 4 bytes. -/
def execSstN32 (x : Args) (s : State) : Res := scalarStore 0x039 4 x s
/-- R81: Scalar store of 8 bytes. -/
def execSstB64 (x : Args) (s : State) : Res := scalarStore 0x03A 8 x s

/-- The word of the argument block at a byte offset: the value at bind, or the one memory holds now; which of them is
left open (R82). (DESIGN CHOICE, log 51.) -/
def State.argWord (s : State) (g : Workgroup) (off : Nat) : W64 × State :=
  let (n, s) := s.draw
  let old := Tab.get 0 g.argWords (off / 8)
  match (s.locate g.core g.ctx.asid g.ctx.root ⟨false, false, true⟩ (g.args + BitVec.ofNat 64 off)).1 with
  | .ok pa => (if n % 2 = 0 then old else BitVec.ofNat 64 (s.natAt pa 8), s)
  | .error _ => (old, s)

/-- R82: Reads an 8-byte word of the region's argument block into a scalar register. -/
def execSldk (x : Args) (s : State) : Res :=
  perHome 0x018 (fun s c _ _ l =>
      let off := scalarAddr x 8 l
      if off.toNat % 8 ≠ 0 then some (0x15, off)
      else if (c.source s).argLen ≤ off.toNat then some (0x11, off) else none)
    (fun _ c act s =>
      match act with
      | [] => s
      | l :: _ =>
        let (v, s) := s.argWord (s.wgOf c.wg) (scalarAddr x 8 l).toNat
        s.writeScalar c l.hw x.d.toNat v) x s

/-! ### Special registers (R49, R50, R83) -/

/-- The value of special register `n` in a lane. (DEDUCED, log 87.) -/
def specialValue (s : State) (g : Workgroup) (c : Cur) (l : Lane) (n : Nat) : W64 :=
  let nat (k : Nat) : W64 := BitVec.ofNat 64 k
  match n with
  | 0 => nat l.tid
  | 1 => nat l.lane
  | 2 => nat l.hw
  | 3 => nat c.fw
  | 4 => nat (l.lane / 8)
  | 5 => nat g.wg
  | 6 => nat g.core
  | 7 => nat (clusterOfCore g.core)
  | 8 => nat (dieOfCore g.core)
  | 9 => nat s.node
  | 10 => nat (g.hdr.roleKind l.hw)
  | 11 => s.hb
  | 12 => nat (s.coreOf g.core).clk
  | 13 => l.t.rm.setWidth 64
  | 14 => l.t.fflags.setWidth 64
  | 15 => g.spass.setWidth 64
  | 16 => l.h.faultm
  | 17 => l.t.tcause.setWidth 64
  | 18 => nat l.t.depth
  | _ => l.h.psave

/-- Registers a special register takes in a vector operand: two for 64 bits, `%faultm` of a 64-lane warp among them. -/
def specRegs (g : Workgroup) (n : Nat) : Nat := if n = 11 ∨ n = 12 ∨ n = 19 ∨ (n = 16 ∧ g.hdr.width = 64) then 2 else 1

/-- A read of `%fflags` settles first (R76). -/
def execRdsr (x : Args) (s : State) : Res :=
  perLane 0x016 noLaneCause
    (fun _ c l s =>
      let g := c.source s
      let v := specialValue s g c l x.a.toNat
      s.modWg c.wg fun g' => g'.modThread l.tid (·.writeVec x.d.toNat (specRegs g x.a.toNat) (v.setWidth 128))) x s

/-- A value of `%rm` outside 1 to 6 (R50). -/
def rmIll (x : Args) : Ill :=
  ⟨[.a], fun _ _ _ l => let v := (l.t.readV x.a.toNat).toNat; x.d.toNat == 13 && decide (v = 0 ∨ 6 < v)⟩

/-- `%rm` and `%fflags` take each active lane's value; `%faultm` and `%psave` that of the lowest active lane of the home
warp. -/
def execWrsr (x : Args) (s : State) : Res :=
  let n := x.d.toNat
  let r := x.a.toNat
  if n = 16 ∨ n = 19 then
    perHome 0x017 noCause
      (fun _ c act s =>
        match act with
        | [] => s
        | l :: _ =>
          let w := (c.source s).hdr.width
          s.modWg c.wg fun g => g.modHw l.hw fun h =>
            if n = 19 then { h with psave := l.t.readPair r }
            else { h with faultm := if w = 64 then l.t.readPair r
                            else BitVec.ofNat 64 ((l.t.readV r).toNat % 2 ^ w) }) x s
  else
    perLane 0x017 noLaneCause
      (fun _ c l s => s.modWg c.wg fun g => g.modThread l.tid fun t =>
        if n = 13 then { t with rm := (l.t.readV r).setWidth 3 }
        else { t with fflags := (l.t.readV r).setWidth 5 }) x s (ill := rmIll x)

end Sys2Proof.Machine
end

