-- ==== Sys2Proof/Machine/Matrix.lean ====
section
/-! DEFINITION. The meanings of the matrix instructions, opcodes 0x1D0 to 0x1D9 (R173 to R192), and the array's own
steps: loads, flips, passes, clears and drains. -/

namespace Sys2Proof.Machine

/-! ### The array (R175) -/

/-- No other workgroup of the core holds the array. -/
def State.arrayFree (s : State) (w : Nat) : Bool :=
  s.wgs.all fun p => p.1 == w || p.2.core != (s.wgOf w).core || p.2.status == .parked || p.2.matrix.isNone

/-- The array of a workgroup: claimed now if it was not. -/
def Workgroup.claimed (g : Workgroup) : Workgroup := { g with matrix := some (g.matrix.getD {}) }
def Workgroup.array (g : Workgroup) : Matrix := g.matrix.getD {}
def Workgroup.modArray (g : Workgroup) (f : Matrix → Matrix) : Workgroup := { g with matrix := g.matrix.map f }

/-- An operation is queued for the threads that issue it. (DESIGN CHOICE, log 4; DEDUCED, log 54.) -/
def State.mxPut (s : State) (w : Nat) (tids : List Nat) (op : MxOp) : State :=
  let id := s.nextReq
  { (s.modWg w fun g => { g with mxq := g.mxq ++ [⟨id, tids, op⟩] }).wakeUnit (arrayUnit (s.wgOf w).core) with nextReq := id + 1 }

/-- A `tg` issued before the operation has not ended: the operation runs after it (R213). (DEDUCED, log 82.) -/
def Workgroup.afterTg (g : Workgroup) (id : Nat) : Bool := g.cmds.any fun p => p.2.eng == 2 && decide (p.2.born < id)

/-- The next queued load starts when the shadow is empty, in generation order (R176). -/
def Workgroup.startLoad (g : Workgroup) : Workgroup :=
  let loads := (g.mxq.filter fun e => !g.afterTg e.id).filterMap fun e => match e.op with | .load n .. => some n | _ => none
  if g.array.shadowState ≠ 0 then g
  else
    match loads with
    | [] => g
    | n :: ns => g.modArray fun m => { m with shadowState := 1, shadowGen := ns.foldl min n }

/-- Threads that waited for matrix operations try their groups again. -/
def Workgroup.mxDone (g : Workgroup) : Workgroup :=
  { g with threads := Tab.map (fun _ t => if t.hold = .matrix then { t with hold := .ready } else t) g.threads }

/-! ### Records and checks (R180 to R182) -/

/-- The value of field F in a lane. -/
def fVal (x : Args) (l : Lane) : W32 := l.t.readV (x.fld .f).toNat

/-- A scale record in scratchpad. -/
def Workgroup.scaleRec (g : Workgroup) (off : Nat) : ScaleRec :=
  { addr := g.spadRead off 4, stride := g.spadRead (off + 4) 4, colMajor := g.spadRead (off + 8) 1 == 1 }
def Workgroup.scaleRecOk (g : Workgroup) (off : Nat) (bScales : Bool) : Bool :=
  let r := g.scaleRec off
  decide (1 ≤ r.stride ∧ r.stride ≤ 65535) && decide (g.spadRead (off + 8) 1 ≤ (if bScales then 1 else 0)) &&
  g.spadRead (off + 9) 7 == 0

/-- An offset as the address of a trap. -/
def offVal (n : Nat) : W64 := BitVec.ofNat 64 n
/-- A record's own place is good. -/
def Workgroup.recPlaced (g : Workgroup) (off : Nat) : Bool := off % 16 == 0 && g.inSpad off 16
def recCause (g : Workgroup) (off : Nat) : Option Cause :=
  if off % 16 ≠ 0 then some (0x15, offVal off) else if !g.inSpad off 16 then some (0x11, offVal off) else none

def spansIn (g : Workgroup) (sp : List (Nat × Nat)) : Bool := sp.all fun p => g.inSpad p.1 p.2

/-- The first cause of a list. -/
def firstCause (l : List (Option Cause)) : Option Cause := l.findSome? id
def causeIf (p : Prop) [Decidable p] (k : Cause) : Option Cause := if p then some k else none

/-- The claim: 0x11 with no address. -/
def claimCause (s : State) (w : Nat) : Option Cause := causeIf (s.arrayFree w = false) (0x11, 0)

/-- The octet group of a lane: the active lanes of its octet. -/
def groupOf (act : List Lane) (l : Lane) : List Lane := act.filter fun m => octetOf m.tid = octetOf l.tid
/-- The format words of an octet group that can be read differ. -/
def diverges (sg : Sig) (x : Args) (act : List Lane) (l : Lane) : Bool :=
  known sg x l .f && (groupOf act l).any fun m => known sg x m .f && fVal x m != fVal x l

/-- The octets of some lanes, ascending, with their lanes. -/
def byOctet (ls : List Lane) : List (Nat × List Lane) :=
  (distinct' (ls.map fun l => octetOf l.tid)).map fun o => (o, ls.filter fun l => octetOf l.tid = o)
where
  distinct' (os : List Nat) : List Nat := (List.range 256).filter fun o => os.contains o

/-! ### Octet by octet (R182, R192, R341) -/

/-- A cause of a lane other than a register that is pending or cannot be read: it stops the whole formed warp (R182, R192).
(DEDUCED, log 101.) -/
def mxHard (cause : List Lane → Lane → Option Cause) (ls : List Lane) : Bool :=
  ls.any fun l => (cause (ls.filter (·.act)) l).any fun k => k.1 != 0x02 && k.1 != 0x13

/-- The lanes whose execution a lane shares: the active ones of its octet, or all where one of them stops the formed warp.
(DEDUCED, log 101.) -/
def mxUnit (cause : List Lane → Lane → Option Cause) (ls : List Lane) (l : Lane) : List Lane :=
  if mxHard cause ls then ls else groupOf (ls.filter (·.act)) l

/-- The execution of a lane is not refused. (DEDUCED, log 101.) -/
def mxGood (cause : List Lane → Lane → Option Cause) (ls : List Lane) (l : Lane) : Bool :=
  ((mxUnit cause ls l).findSome? (cause (ls.filter (·.act)))).isNone

/-- The lanes of a refused execution trap, and an inactive lane with a cause of its own. (DEDUCED, log 101.) -/
def Workgroup.mxTraps (g : Workgroup) (c : Cur) (ls : List Lane) (cause : List Lane → Lane → Option Cause) : Workgroup :=
  let act := ls.filter (·.act)
  ls.foldl (fun g l =>
    match if l.act then sharedCause (cause act) (mxUnit cause ls l) l else cause act l with
    | some k => g.trapLane c l.tid k
    | none => g) g

/-- An instruction the octet groups of a formed warp execute: `eff` is what those do that are not refused.
(DEDUCED, log 101.) -/
def perOctet (op : Nat) (more : State → Cur → Sig → List Lane → Lane → Option Cause)
    (eff : Sig → Cur → List Lane → State → State) (x : Args) (s : State) (ill : Ill := noIll) : Res :=
  issue op x s fun sg c s =>
    let ls := lanesOf s c x.ctl.pfx
    let cause (act : List Lane) (l : Lane) : Option Cause :=
      scalarCause (c.source s) op sg x c (more s c sg) act l (ill.at_ s c sg x l)
    let good := (ls.filter (·.act)).filter (mxGood cause ls)
    let s := s.modWg c.wg (·.mxTraps c ls cause)
    if good = [] then s else eff sg c good s

/-! ### Loading and flipping (R176, R177, R181) -/

/-- An `mst` reads a B-scale record. -/
def mstScaled (f : FmtWord) : Bool := f.scale != 0 && f.b.is8

/-- An invalid format word, a missing record field, a malformed record (R181). -/
def mstIll (x : Args) : Ill :=
  ⟨[.b], fun s c _ l =>
    let g := s.wgOf c.wg
    let ro := (fVal x l).toNat
    let there := !(l.t.pending.contains (.v (x.fld .f).toNat) || l.spoilt (.v (x.fld .f).toNat))
    match fmtWord? (l.t.readV x.b.toNat) with
    | none => true
    | some f => mstScaled f && (x.ctl.pfx.isNone || (there && g.recPlaced ro && !g.scaleRecOk ro true))⟩

/-- What else stops an `mst`; F counts as a source where the format needs it. -/
def mstCause (x : Args) (s : State) (c : Cur) (_sg : Sig) (act : List Lane) (_l : Lane) : Option Cause :=
  match act with
  | [] => none
  | l :: _ =>
    let g := s.wgOf c.wg
    let off := (l.t.readV x.a.toNat).toNat
    let ro := (fVal x l).toNat
    match fmtWord? (l.t.readV x.b.toNat) with
    | none => some (illegal c)
    | some f =>
      let sc := mstScaled f
      firstCause [
        causeIf (sc ∧ l.t.pending.contains (.v (x.fld .f).toNat)) (hazard c),
        causeIf (sc ∧ l.spoilt (.v (x.fld .f).toNat)) (0x13, 0),
        causeIf (off % 64 ≠ 0) (0x15, offVal off),
        if sc then recCause g ro else none,
        claimCause s c.wg,
        causeIf (!g.inSpad off 4096) (0x11, offVal off),
        causeIf (sc ∧ !spansIn g ((g.scaleRec ro).bSpan (scaleBlocks f 64))) (0x11, offVal ro)]

/-- R176: Assigns the next plane generation and queues its load into the shadow plane. -/
def execMst (x : Args) (s : State) : Res :=
  perWarp 0x1D0 (mstCause x) (fun _ c act s =>
    match act with
    | [] => s
    | l :: _ =>
      let w := l.t.readV x.b.toNat
      let gen := (s.wgOf c.wg).claimed.array.g + 1
      let sc := if (fmtWord? w).any mstScaled then some ((s.wgOf c.wg).scaleRec (fVal x l).toNat) else none
      let s := s.modWg c.wg fun g =>
        let g := g.claimed.modArray fun m => { m with g := gen, fmts := Tab.put m.fmts gen w }
        (homesOf act).foldl (fun g h => g.modHw h (·.writeS x.d.toNat (BitVec.ofNat 64 gen))) g
      (s.mxPut c.wg (act.map (·.tid)) (.load gen (l.t.readV x.a.toNat).toNat w sc)).modWg c.wg (·.startLoad)) x s
    (mstIll x)

/-- R177: Queues a flip making a loaded generation active. -/
def execMflip (x : Args) (s : State) : Res :=
  perWarp 0x1D1 (fun s c _ act _ =>
      match act with
      | [] => none
      | l :: _ =>
        let n := (sOf x l).toNat
        firstCause [claimCause s c.wg, causeIf (n = 0 ∨ (s.wgOf c.wg).array.g < n) (0x11, 0)])
    (fun _ c act s =>
      match act with
      | [] => s
      | l :: _ =>
        let n := (sOf x l).toNat
        (s.modWg c.wg fun g => g.claimed.modArray fun m => { m with flipped := max m.flipped n }).mxPut c.wg
          (act.map (·.tid)) (.flip n)) x s
where
  sOf (x : Args) (l : Lane) : W64 := l.h.readS x.a.toNat

/-! ### Streaming rows (R182 to R184) -/

/-- The A format a staging row was written in, by drains still queued too: none if never written. -/
def Workgroup.stagingFmt (g : Workgroup) (octet lane : Nat) : Option W32 :=
  g.mxq.foldl (fun acc e =>
    match e.op with
    | .bypass o _ w rows => if o = octet ∧ rows.any (·.lane = lane) then some w else acc
    | _ => acc) ((Tab.find g.staging (octet * 8 + lane)).map (·.fmt))

/-- Bits of the A fields, and of the B fields with SCALE (R59). -/
def aFields (w : W32) : Nat := bitsNat w 8 0
def bFields (w : W32) : Nat := bitsNat w 18 9

/-- The row offset of a lane names the staging. -/
def rowBypass (g : Workgroup) (f : FmtWord) (off : Nat) : Bool := (bypassElem f.k off).isSome && !g.inSpad off 1

/-- What makes the values of a lane of `mma` (`scaled` false) or `mmas` illegal. -/
def mmaIll (x : Args) (scaled : Bool) : Ill :=
  ⟨[.f], fun s c sg l =>
    let g := s.wgOf c.wg
    let w := fVal x l
    let gen := (l.h.readS x.b.toNat).toNat
    let off := (l.t.readV x.a.toNat).toNat
    let ro := (l.t.readV ((x.fld .f).toNat + 1)).toNat
    match fmtWord? w with
    | none => true
    | some f =>
      (known sg x l .b && (Tab.find g.array.fmts gen).any fun w' => bFields w' != bFields w) ||
      (if scaled then f.scale == 0 || !f.a.is8 else f.scale != 0 && f.a.is8) ||
      (known sg x l .a && rowBypass g f off &&
        !(g.stagingFmt (octetOf l.tid) (l.lane % 8)).any fun w' => aFields w' == aFields w) ||
      (scaled && g.recPlaced ro && !g.scaleRecOk ro false)⟩

/-- Its other checks. -/
def mmaCause (x : Args) (scaled : Bool) (s : State) (c : Cur) (sg : Sig) (act : List Lane) (l : Lane) : Option Cause :=
  let g := s.wgOf c.wg
  let m := g.array
  let gen := (l.h.readS x.b.toNat).toNat
  let off := (l.t.readV x.a.toNat).toNat
  let ro := (l.t.readV ((x.fld .f).toNat + 1)).toNat
  match fmtWord? (fVal x l) with
  | none => some (illegal c)
  | some f =>
    let by_ := rowBypass g f off
    firstCause [
      causeIf (diverges sg x act l) (0x03, 0),
      causeIf (!by_ ∧ off % 16 ≠ 0) (0x15, offVal off),
      if scaled then recCause g ro else none,
      claimCause s c.wg,
      causeIf (gen = 0 ∨ m.g < gen ∨ gen < m.flipped ∨ gen ≤ m.retired) (0x11, 0),
      causeIf (!by_ ∧ !g.inSpad off (f.k * f.a.bytes)) (0x11, offVal off),
      causeIf (scaled ∧ !spansIn g [(g.scaleRec ro).aSpan (l.lane % 8) (scaleBlocks f f.k)]) (0x11, offVal ro)]

def streamRows (op : Nat) (scaled : Bool) (x : Args) (s : State) : Res :=
  perOctet op (mmaCause x scaled) (fun _ c act s =>
    let s := s.modWg c.wg (·.claimed)
    (byOctet act).foldl (fun s o =>
      match o.2 with
      | [] => s
      | first :: _ =>
        let g := s.wgOf c.wg
        let rows : List MxRow := o.2.map fun l =>
          { lane := l.lane % 8, tid := l.tid, off := (l.t.readV x.a.toNat).toNat,
            scale := if scaled then some (g.scaleRec (l.t.readV ((x.fld .f).toNat + 1)).toNat) else none }
        s.mxPut c.wg (o.2.map (·.tid))
          (.pass o.1 x.d.toNat (first.h.readS x.b.toNat).toNat (fVal x first) rows)) s) x s (mmaIll x scaled)

/-- R183: Streams A rows past a plane generation into accumulator rows. -/
def execMma (x : Args) (s : State) : Res := streamRows 0x1D2 false x s
/-- R183: Block-scaled matrix pass with A scales from a scale record. -/
def execMmas (x : Args) (s : State) : Res := streamRows 0x1D3 true x s

/-! ### Clearing and draining (R186 to R188) -/

/-- R186: the rows of the octet groups' active lanes are cleared. -/
def execMzero (x : Args) (s : State) : Res :=
  perOctet 0x1D4 noCause (fun _ c act s => (byOctet act).foldl (fun s o =>
    s.mxPut c.wg (o.2.map (·.tid))
      (.zero o.1 x.d.toNat (o.2.map fun l => { lane := l.lane % 8, tid := l.tid }))) s) x s

/-- What every drain checks: validity, then the vote. -/
def drainIll (x : Args) : Ill := ⟨[.f], fun _ _ _ l => (fmtWord? (fVal x l)).isNone⟩
def drainCause (sg : Sig) (x : Args) (act : List Lane) (l : Lane) : Option Cause := causeIf (diverges sg x act l) (0x03, 0)

/-- TGT and CG of the drain control (R174). -/
def drainTgt (x : Args) : Nat := bitsNat x.b 1 0
def drainCg (x : Args) : Nat := bitsNat x.b 4 2

/-- R188: Drains accumulator rows, converted, to scratchpad. -/
def execMdr (x : Args) (s : State) : Res :=
  perOctet 0x1D5 (fun s c sg act l =>
      let off := (l.t.readV x.a.toNat).toNat
      let n := ((fmtWord? (fVal x l)).map fun f => 64 * drainBytes f (drainTgt x)).getD 0
      firstCause [drainCause sg x act l, causeIf (off % 16 ≠ 0) (0x15, offVal off),
        causeIf (!(s.wgOf c.wg).inSpad off n) (0x11, offVal off)])
    (fun _ c act s => (byOctet act).foldl (fun s o =>
      match o.2 with
      | [] => s
      | first :: _ => s.mxPut c.wg (o.2.map (·.tid)) (.drain o.1 x.d.toNat (fVal x first) (drainTgt x)
          (o.2.map fun l => { lane := l.lane % 8, tid := l.tid, off := (l.t.readV x.a.toNat).toNat,
                              mode := modeOf x.ctl.pfx l.t }))) s) x s (drainIll x)

/-- The elements of a row of a tile. -/
def Workgroup.accElem (g : Workgroup) (octet tile row col : Nat) : BitVec 48 :=
  Tab.get 0 g.acc ((octet * 4 + tile) * 512 + row * 64 + col)
def Workgroup.setAcc (g : Workgroup) (octet tile row col : Nat) (v : BitVec 48) : Workgroup :=
  { g with acc := Tab.set 0 g.acc ((octet * 4 + tile) * 512 + row * 64 + col) v }

/-- Columns `col` to `col + n − 1` of a row converted: their bytes one after another, and the flags. -/
def Workgroup.drainRow (g : Workgroup) (f : FmtWord) (tgt octet tile row col n : Nat) (mode : Mode) : List Byte × Flags :=
  let es := (List.range n).map fun j => drainElem f tgt mode (g.accElem octet tile row (col + j))
  (es.flatMap fun e => bytesOfNat e.1 (drainBytes f tgt), es.foldl (fun acc e => acc ||| e.2) 0)

/-- Registers `mdrv` writes under a format word. (DEDUCED, log 18.) -/
def drainRegs (x : Args) (w : W32) : Nat := ((fmtWord? w).map fun f => 2 * drainBytes f (drainTgt x)).getD 0

/-- The format word that decides the registers of a lane: its own, its octet group's, or the lowest active lane's. -/
def drainWord (sg : Sig) (x : Args) (act : List Lane) (l : Lane) : Option W32 :=
  let word (m : Lane) : Option W32 := if known sg x m .f then some (fVal x m) else none
  if l.act then word l
  else match groupOf act l, act with
    | m :: _, _ => word m
    | [], m :: _ => word m
    | [], [] => none

/-- The causes of `mdrv`, in the order of R341: illegal values, registers out of range, what the form has, pending
destinations, divergence, a row that cannot be read, and the trap owed for one (R187, R188, R192). (DEDUCED, log 18.) -/
def mdrvCause (src : Workgroup) (sg : Sig) (x : Args) (c : Cur) (act : List Lane) (l : Lane) : Option Cause :=
  let n := if l.act || x.z then ((drainWord sg x act l).map (drainRegs x)).getD 0 else 0
  firstCause [
    causeIf (l.act && known sg x l .f && (fmtWord? (fVal x l)).isNone) (illegal c),
    causeIf (n ≠ 0 ∧ src.hdr.budget l.hw - src.hdr.depth < x.d.toNat + n) (illegal c),
    formCause src 0x1D6 sg x 0 c l,
    causeIf ((List.range n).any fun i => l.t.pending.contains (.v (x.d.toNat + i))) (hazard c),
    if l.act then firstCause [drainCause sg x act l,
      causeIf (src.spoilt.contains (.row (octetOf l.tid) x.a.toNat (l.lane % 8))) (0x13, 0),
      (l.t.failed.find? (·.mx)).map fun f => (f.code, f.va)] else none]

/-- R188: Drains a column group of accumulator rows into vector registers. -/
def execMdrv (x : Args) (s : State) : Res :=
  issue 0x1D6 x s fun sg c s =>
    let src := c.source s
    let ls := lanesOf s c x.ctl.pfx
    let act := ls.filter (·.act)
    let cause := mdrvCause src sg x c
    let regs (n : Nat) (bs : List Byte) : List Write :=
      (List.range n).map fun i => ⟨.v (x.d.toNat + i), BitVec.ofNat 64 (natOfBytes ((bs.drop (4 * i)).take 4))⟩
    s.modWg c.wg fun g =>
      ls.foldl (fun g l =>
        match if mxGood cause ls l then drainWord sg x act l else none with
        | none => if mxGood cause ls l then g else g.modThread l.tid fun t => { t with failed := t.failed.filter fun f => !f.mx }
        | some w =>
          let n := drainRegs x w
          if l.act then
            match fmtWord? w with
            | none => g
            | some f =>
              let (bs, fl) := g.drainRow f (drainTgt x) (octetOf l.tid) x.a.toNat (l.lane % 8) (8 * drainCg x) 8
                (modeOf x.ctl.pfx l.t)
              (g.arriveAll l.tid (regs n bs)).modThread l.tid (·.raise fl)
          else if x.z && (cause act l).isNone then g.arriveAll l.tid (regs n [])
          else g) (g.mxTraps c ls cause)

/-- R188: Drains accumulator rows into the octet's bypass staging. -/
def execMbyp (x : Args) (s : State) : Res :=
  perOctet 0x1D7 (fun _ _ sg act l => drainCause sg x act l)
    (fun _ c act s => (byOctet act).foldl (fun s o =>
      match o.2 with
      | [] => s
      | first :: _ => s.mxPut c.wg (o.2.map (·.tid)) (.bypass o.1 x.d.toNat (fVal x first)
          (o.2.map fun l => { lane := l.lane % 8, tid := l.tid, mode := modeOf x.ctl.pfx l.t }))) s) x s (drainIll x)

/-! ### Inspection (R189, R190) -/

/-- R189: Tests whether an octet group's format words agree and are valid. -/
def execMvote (x : Args) (s : State) : Res :=
  let v (l : Lane) : W32 := l.t.readV x.a.toNat
  perOctet 0x1D8 noCause (fun _ c act s => act.foldl (fun s l =>
    let ok := (fmtWord? (v l)).isSome && (groupOf act l).all fun m => v m == v l
    s.modWg c.wg (·.modThread l.tid (·.writeP x.d.toNat ok))) s) x s

/-- R190: the item a selector names. (DEDUCED, log 54.) -/
def Workgroup.arrayItem (g : Workgroup) (n : Nat) : Nat :=
  match n with
  | 0 => g.array.ga
  | 1 => g.array.g
  | 2 => g.array.shadowState
  | 3 => (g.mxq.filter fun e => match e.op with | .flip _ => false | _ => true).length
  | _ => if g.matrix.isSome then 1 else 0

/-- R190: Reads matrix array state selected by a scalar. -/
def execMstat (x : Args) (s : State) : Res :=
  issue 0x1D9 x s fun sg c s =>
    let src := c.source s
    let ls := lanesOf s c x.ctl.pfx
    let cause (act : List Lane) (l : Lane) : Option Cause :=
      scalarCause src 0x1D9 sg x c (fun _ _ => none) act l
        (l.act && known sg x l .a && decide (4 < (l.h.readS x.a.toNat).toNat))
    s.shared c (if mxHard cause ls then [ls] else byHome ls) (fun _ => cause) fun s act =>
      match act with
      | [] => s
      | l :: _ => s.modWg c.wg fun g =>
        let v := BitVec.ofNat 64 (g.arrayItem (l.h.readS x.a.toNat).toNat)
        act.foldl (fun g l => g.pendAdd c l.tid (destRegs sg x) (.ready [⟨.s x.d.toNat, v⟩] 0)) g

/-! ### The array at work (R176, R177, R183, R185) -/

/-- The elements of a plane: row `k`, column `j` (R179). -/
def planeElem (f : FmtWord) (p : Plane) (k j : Nat) : FVal :=
  let b (i : Nat) : Nat := (Tab.get 0 p.bytes i).toNat
  if f.b.is8 then f.b.value (b (64 * k + j)) else f.b.value (b (128 * k + 2 * j) + 256 * b (128 * k + 2 * j + 1))

/-- One row passed: its 64 elements after the pass and the flags (R69). `a` are the A values and `sa` the A scales. -/
def passRow (f : FmtWord) (p : Plane) (a : List FVal) (sa : Option (List Nat)) (row : Nat → BitVec 48) :
    List (BitVec 48) × Flags :=
  let bs := if f.scale = 1 then 32 else 16
  let es := (List.range 64).map fun j =>
    let ts : List Term := a.zipIdx.map fun q =>
      let eb := if f.scale ≠ 0 ∧ f.b.is8 then e8 (Tab.get 0 p.scales (q.2 / bs * 64 + j)).toNat else some 0
      let ea := match sa with | none => some 0 | some l => e8 (l.getD (q.2 / bs) 0)
      { a := q.1, w := planeElem f p q.2 j, e := do let x ← ea; let y ← eb; pure (x + y) }
    if f.s48 then passS48 (row j) ts else passW48 (row j) ts
  (es.map (·.1), es.foldl (fun acc e => acc ||| e.2) 0)

/-- The A values of a row: from scratchpad bytes or the staging. -/
def aValues (f : FmtWord) (bs : List Byte) : List FVal :=
  (List.range f.k).map fun i => f.a.value (natOfBytes ((bs.drop (i * f.a.bytes)).take f.a.bytes))

def Workgroup.aRow (g : Workgroup) (f : FmtWord) (octet : Nat) (r : MxRow) : List FVal :=
  match bypassElem f.k r.off with
  | some e =>
    let st := (Tab.get ⟨0, []⟩ g.staging (octet * 8 + r.lane)).bytes
    aValues f ((List.range (f.k * f.a.bytes)).map fun i => Tab.get 0 st (e * f.a.bytes + i))
  | none => aValues f (g.spadBytes r.off (f.k * f.a.bytes))

/-- The octet group's passes of one operation. -/
def Workgroup.runPass (g : Workgroup) (octet tile : Nat) (fmt : W32) (rows : List MxRow) : Workgroup :=
  match fmtWord? fmt with
  | none => g
  | some f => rows.foldl (fun g r =>
    let sa := r.scale.map fun c =>
      let (at_, n) := c.aSpan r.lane (scaleBlocks f f.k)
      (g.spadBytes at_ n).map (·.toNat)
    let (vs, fl) := passRow f g.array.active (g.aRow f octet r) sa (g.accElem octet tile r.lane)
    (vs.zipIdx.foldl (fun g v => g.setAcc octet tile r.lane v.2 v.1) g).modThread r.tid (·.raise fl)) g

def Workgroup.runZero (g : Workgroup) (octet tile : Nat) (rows : List MxRow) : Workgroup :=
  rows.foldl (fun g r => (List.range 64).foldl (fun g j => g.setAcc octet tile r.lane j 0) g) g

def Workgroup.runDrain (g : Workgroup) (octet tile : Nat) (fmt : W32) (tgt : Nat) (rows : List MxRow) : Workgroup :=
  match fmtWord? fmt with
  | none => g
  | some f => rows.foldl (fun g r =>
    let (bs, fl) := g.drainRow f tgt octet tile r.lane 0 64 r.mode
    (g.spadWrite r.off bs).modThread r.tid (·.raise fl)) g

/-- The staging row holds the elements in the A format. -/
def Workgroup.runBypass (g : Workgroup) (octet tile : Nat) (fmt : W32) (rows : List MxRow) : Workgroup :=
  match fmtWord? fmt with
  | none => g
  | some f => rows.foldl (fun g r =>
    let (bs, fl) := g.drainRow f 0 octet tile r.lane 0 64 r.mode
    let st : Staging := { fmt, bytes := bs.zipIdx.foldl (fun m p => Tab.set 0 m p.2 p.1) [] }
    { g with staging := Tab.put g.staging (octet * 8 + r.lane) st }.modThread r.tid (·.raise fl)) g

/-- Rows that name the staging. -/
def MxOp.usesStaging (o : MxOp) : Option Nat :=
  match o with
  | .bypass oc .. => some oc
  | .pass oc _ _ w rows =>
    if (fmtWord? w).any fun f => rows.any fun r => (bypassElem f.k r.off).isSome then some oc else none
  | _ => none

/-- An earlier operation comes first: one tile, one octet's staging, or overlapping bytes of one thread (R185). -/
def MxEntry.before (a b : MxEntry) : Bool :=
  (a.op.tile?.isSome && a.op.tile? == b.op.tile?) || (a.op.usesStaging.isSome && a.op.usesStaging == b.op.usesStaging) ||
  (a.tids.any b.tids.contains && a.op.bytes.any fun p => b.op.bytes.any (overlaps p))

/-- Nothing before an operation holds it back. -/
def Workgroup.mxFree (g : Workgroup) (e : MxEntry) : Bool :=
  !g.afterTg e.id && (g.mxq.takeWhile fun a => a.id != e.id).all fun a => !a.before e

/-- Whether an operation can run now: a pass when its generation is active, a load when its turn came. -/
def Workgroup.mxRuns (g : Workgroup) (e : MxEntry) : Bool :=
  g.mxFree e && match e.op with
    | .pass _ _ gen _ _ => g.array.ga == gen
    | .load gen .. => g.array.shadowState == 1 && g.array.shadowGen == gen
    | .flip _ => false
    | _ => true

/-- R177: a queued flip takes effect, or has nothing left to do. (DEDUCED, log 54.) -/
def Workgroup.flipRuns (g : Workgroup) (e : MxEntry) : Bool :=
  let m := g.array
  match e.op with
  | .flip n => !g.afterTg e.id && (decide (n ≤ m.ga) || (n == m.ga + 1 && m.shadowState == 2 && m.shadowGen == n &&
      (g.mxq.takeWhile fun a => a.id != e.id).all fun a =>
        match a.op with | .pass _ _ gen _ _ => gen + 1 != n | _ => true))
  | _ => false

/-- The plane a load reads. -/
def Workgroup.loadPlane (g : Workgroup) (off : Nat) (fmt : W32) (sc : Option ScaleRec) : Plane :=
  let blocks := ((fmtWord? fmt).map fun f => scaleBlocks f 64).getD 0
  let cell (b j : Nat) : Byte :=
    match sc with
    | none => 0
    | some r => Tab.get 0 g.spad (r.addr + if r.colMajor then j * r.stride + b else b * r.stride + j)
  { fmt
    bytes := (List.range 4096).foldl (fun m i =>
      Tab.set 0 m i (if g.spadBad (off + i) 1 false then Tab.get 0 g.array.shadow.bytes i else Tab.get 0 g.spad (off + i))) []
    scales := if sc.isNone then [] else
      (List.range (blocks * 64)).foldl (fun m i => Tab.set 0 m i (cell (i / 64) (i % 64))) [] }

/-- A row reads uncorrectable data: of the active plane, its tile, its staging, the scratchpad (R192).
(DESIGN CHOICE, log 14.) -/
def Workgroup.rowSpoilt (g : Workgroup) (o : MxOp) (r : MxRow) : Bool :=
  let bad (sp : Nat × Nat) : Bool := g.spadBad sp.1 sp.2 false
  match o with
  | .pass oc t _ w _ =>
    g.spoilt.contains (.plane false) || g.spoilt.contains (.row oc t r.lane) || (fmtWord? w).any fun f =>
      (if (bypassElem f.k r.off).isSome then g.spoilt.contains (.staging oc r.lane) else bad (r.off, f.k * f.a.bytes)) ||
      r.scale.any fun c => bad (c.aSpan r.lane (scaleBlocks f f.k))
  | .drain oc t .. | .bypass oc t .. => g.spoilt.contains (.row oc t r.lane)
  | _ => false

/-- The rows of an operation, and the operation on other rows. -/
def MxOp.rows : MxOp → List MxRow
  | .pass _ _ _ _ rows | .zero _ _ rows | .drain _ _ _ _ rows | .bypass _ _ _ rows => rows
  | _ => []
def MxOp.onRows (o : MxOp) (rs : List MxRow) : MxOp :=
  match o with
  | .pass oc t gen w _ => .pass oc t gen w rs
  | .zero oc t _ => .zero oc t rs
  | .drain oc t w tgt _ => .drain oc t w tgt rs
  | .bypass oc t w _ => .bypass oc t w rs
  | o => o

/-- The threads that take the data-error trap for an operation: of each row it leaves unchanged, or of a load that cannot
read its bytes (R192). (DESIGN CHOICE, log 14.) -/
def Workgroup.mxFails (g : Workgroup) (e : MxEntry) : List Nat :=
  match e.op with
  | .load .. => if e.op.bytes.any fun sp => g.spadBad sp.1 sp.2 false then e.tids else []
  | o => (o.rows.filter (g.rowSpoilt o)).map (·.tid)

/-- What an operation that has run makes good, and where a flip takes a plane's error. -/
def Workgroup.mxMends (g : Workgroup) (e : MxEntry) : Workgroup :=
  let without (p : Spoilt → Bool) : Workgroup := { g with spoilt := g.spoilt.filter fun b => !p b }
  match e.op with
  | .load .. => without (· == .plane true)
  | .flip n => if n ≤ g.array.ga then g else
      { g with spoilt := (g.spoilt.filter (· != .plane false)).map fun b => if b = .plane true then .plane false else b }
  | .zero o t rows => without fun b => rows.any fun r => b == .row o t r.lane
  | .bypass o _ _ rows => without fun b => rows.any fun r => b == .staging o r.lane
  | _ => g

/-- An operation leaves the queue with its effect, but on rows that uncorrectable data stops. -/
def Workgroup.mxRun (g : Workgroup) (e : MxEntry) : Workgroup :=
  let fails := g.mxFails e
  let e := { e with op := e.op.onRows (e.op.rows.filter fun r => !g.rowSpoilt e.op r) }
  let g' := { g.mxMends e with mxq := g.mxq.filter fun a => a.id != e.id }
  let g' := fails.foldl (fun g t => g.modThread t (·.fail ⟨e.id, 0x13, 0, true⟩)) g'
  (match e.op with
   | .load _ off fmt sc => g'.modArray fun m => { m with shadow := g.loadPlane off fmt sc, shadowState := 2 }
   | .flip n =>
     if n ≤ g.array.ga then g'
     else (g'.modArray fun m => { m with ga := n, active := m.shadow, shadow := {}, shadowState := 0 }).startLoad
   | .pass o t _ w rows => g'.runPass o t w rows
   | .zero o t rows => g'.runZero o t rows
   | .drain o t w tgt rows => g'.runDrain o t w tgt rows
   | .bypass o t w rows => g'.runBypass o t w rows).mxDone

/-- The first operation of the core's workgroups that `ok` picks; the array is awake (R265). -/
def State.findMx (s : State) (core : Nat) (ok : Workgroup → MxEntry → Bool) : Option (Nat × MxEntry) :=
  if !s.awake (arrayUnit core) then none
  else s.wgs.findSome? fun p =>
    if p.2.core = core && p.2.status != .parked then (p.2.mxq.find? (ok p.2)).map fun e => (p.1, e) else none

/-- A step of the array of a core: the first operation `ok` picks runs. -/
def State.stepMx (s : State) (core : Nat) (ok : Workgroup → MxEntry → Bool) : State :=
  match s.findMx core ok with
  | some (w, e) =>
    let s := ((s.wgOf w).mxFails e).foldl (fun s _ => s.logCore core (s.wgOf w).ctx.asid 0x13) s
    (s.modWg w (·.mxRun e)).settleAll
  | none => s

def isLoad (o : MxOp) : Bool := match o with | .load .. => true | _ => false
def isPass (o : MxOp) : Bool := match o with | .pass .. => true | _ => false

def loadReady (g : Workgroup) (e : MxEntry) : Bool := isLoad e.op && g.mxRuns e
def passReady (g : Workgroup) (e : MxEntry) : Bool := isPass e.op && g.mxRuns e
def otherReady (g : Workgroup) (e : MxEntry) : Bool := !isLoad e.op && !isPass e.op && g.mxRuns e

/-- R176: every byte of a plane and of its scales has been read. -/
def execPlaneLoadDone (core : Nat) (s : State) : Res := .next (s.stepMx core loadReady)
/-- R177. -/
def execFlipTakeEffect (core : Nat) (s : State) : Res := .next (s.stepMx core Workgroup.flipRuns)
/-- R183. -/
def execMatrixPass (core op : Nat) (s : State) : Res := .next (s.stepMx core fun g e => e.id = op && passReady g e)
/-- R185: a clear or a drain. -/
def execMatrixOperationComplete (core op : Nat) (s : State) : Res :=
  .next (s.stepMx core fun g e => e.id = op && otherReady g e)

end Sys2Proof.Machine
end

