-- ==== Sys2Proof/Machine/Engine.lean ====
section
/-! DEFINITION. The meanings of the engine instructions, opcodes 0x1E0 to 0x1EF (R193 to R201): accepting a command, and
`erel`, `ecan` and `estat`. What the engines do with their commands is in `EngineWork` and `EngineEvents`. -/

namespace Sys2Proof.Machine

def State.modCmd (s : State) (w h : Nat) (f : Cmd → Cmd) : State :=
  s.modWg w fun g => { g with cmds := Tab.modify g.cmds h f }

/-- The handle slots of a core that are free (R195). (DESIGN CHOICE, log 77.) -/
def State.freeSlots (s : State) (core : Nat) : List Nat := (List.range 1024).filter fun k => !(s.handlesUsed core).contains k

/-- The record offset of a command: the lowest lane's (R194). -/
def recordOff (x : Args) (act : List Lane) : Nat := ((act.head?).map fun l => (l.t.readV x.a.toNat).toNat).getD 0

/-- What refuses a command at issue. -/
def recordCause (x : Args) (g : Workgroup) (act : List Lane) : Option Cause :=
  let off := recordOff x act
  if off % 64 ≠ 0 then some (0x15, BitVec.ofNat 64 off)
  else if !g.inSpad off 64 then some (0x11, BitVec.ofNat 64 off)
  else if g.spadBad off 64 false then some (0x13, BitVec.ofNat 64 off)
  else none

/-- The log of a record that is uncorrectable (R347). (DESIGN CHOICE, logs 14, 46.) -/
def recordNote (x : Args) (c : Cur) (act : List Lane) (s : State) : State :=
  let g := s.wgOf c.wg
  if (recordCause x g act).any fun k => k.1 == 0x13 then s.logCore g.core g.ctx.asid 0x13 else s

/-- The requests that come before the issue in the program order of its threads and have not been answered: the command comes
after them (R194). (DEDUCED, log 78.) -/
def Workgroup.issuersOut (g : Workgroup) (act : List Lane) : List Nat := act.flatMap fun l => (g.thread l.tid).before

/-- A handle (R195). (DESIGN CHOICE, log 9.) -/
def handleOf (slot eng seq : Nat) : Nat := slot + eng * 2 ^ 10 + seq % 2 ^ 16 * 2 ^ 12

/-- The command as it is accepted. -/
def commandOf (eng op : Nat) (x : Args) (g : Workgroup) (act : List Lane) (l : Lane) (stamp : Nat) : Cmd :=
  let off := recordOff x act
  let body := g.spadBytes off 64
  let held := (body.getD 56 0).getLsbD 0
  { eng, op, core := g.core, recOff := off, body,
    succ := if x.b = 0x40 then BitVec.ofNat 32 (natOfBytes ((body.drop 36).take 4)) else l.t.readV x.b.toNat,
    mode := modeOf x.ctl.pfx l.t, priv := l.t.priv, state := if held then .held else .queued, born := stamp, order := stamp,
    gen := g.array.g, count := if op = 0x1EA then natOfBytes ((body.drop 60).take 4) else 0, deps := g.issuersOut act }

/-- Acceptance (R194): a free slot, which one is not said; the record; the handle, pending in every lane.
(DESIGN CHOICE, logs 9, 77.) -/
def State.accept (s : State) (eng op : Nat) (x : Args) (sg : Sig) (c : Cur) (act : List Lane) : State :=
  match act with
  | [] => s
  | l :: _ =>
    let g := s.wgOf c.wg
    let (n, s) := s.draw
    let free := s.freeSlots g.core
    let slot := free.getD (n % max free.length 1) 0
    let seq := Tab.get 0 (s.coreOf g.core).seqs slot
    let h := handleOf slot eng seq
    let cmd := commandOf eng op x g act l s.nextReq
    let s := { s with nextReq := s.nextReq + 1 }
    let s := s.modCore g.core fun k => { k with seqs := Tab.put k.seqs slot (seq + 1) }
    s.modWg c.wg fun g => act.foldl (fun g l =>
      g.pendAdd c l.tid (destRegs sg x) (.ready [⟨.v x.d.toNat, BitVec.ofNat 64 h⟩] 0))
      { g with cmds := Tab.put g.cmds h cmd }

/-- An engine command, once for the formed warp. -/
def engineCommand (eng op : Nat) (x : Args) (s : State) : Res :=
  perWarp op (fun s c _ act _ => recordCause x (s.wgOf c.wg) act) (fun sg c act s => s.accept eng op x sg c act) x s
    (prep := recordNote x)

/-- R204: Issues a tensor copy command to the copy engine and returns its handle. -/
def execCpy (x : Args) (s : State) : Res := engineCommand 0 0x1E0 x s
/-- R204: Issues an indexed gather copy command. -/
def execCpyg (x : Args) (s : State) : Res := engineCommand 0 0x1E1 x s
/-- R204: Issues an indexed scatter copy command. -/
def execCpys (x : Args) (s : State) : Res := engineCommand 0 0x1E2 x s
/-- R204: Issues a fill command. -/
def execCpyf (x : Args) (s : State) : Res := engineCommand 0 0x1E3 x s
/-- R209: Issues a coordinate insert command assigning dense indices. -/
def execCeIns (x : Args) (s : State) : Res := engineCommand 1 0x1E4 x s
/-- R209: Issues a coordinate query command. -/
def execCeQry (x : Args) (s : State) : Res := engineCommand 1 0x1E5 x s
/-- R209: Issues a coordinate insert-and-accumulate command. -/
def execCeAcc (x : Args) (s : State) : Res := engineCommand 1 0x1E6 x s
/-- R211: Issues a neighbour-map build, reusing a matching existing map. -/
def execCeMap (x : Args) (s : State) : Res := engineCommand 1 0x1E7 x s
/-- R210: Issues a table clear command. -/
def execCeClr (x : Args) (s : State) : Res := engineCommand 1 0x1E8 x s
/-- R210: Issues a table seal command setting VER. -/
def execCeSeal (x : Args) (s : State) : Res := engineCommand 1 0x1E9 x s

/-- `tg` claims the array (R175), and retires the generations assigned so far for later instructions (R213). -/
def execTg (x : Args) (s : State) : Res :=
  perWarp 0x1EA (fun s c _ act _ => (recordCause x (s.wgOf c.wg) act).orElse fun _ => claimCause s c.wg)
    (fun sg c act s =>
      (s.modWg c.wg fun g => g.claimed.modArray fun m => { m with retired := m.g }).accept 2 0x1EA x sg c act) x s
    (prep := recordNote x)

/-- R360: Issues a scan listing nonzero elements or rows. -/
def execScnz (x : Args) (s : State) : Res := engineCommand 3 0x1EB x s
/-- R361: Issues a token compaction command. -/
def execSctk (x : Args) (s : State) : Res := engineCommand 3 0x1EC x s

/-! ### Handles (R199, R200) -/

/-- The handle of a lane. -/
def laneHandle (x : Args) (l : Lane) : Nat := (l.t.readV x.a.toNat).toNat

/-- A held command becomes queued, the last of its engine's queue. -/
def State.release (s : State) (w h : Nat) : State :=
  match Tab.find (s.wgOf w).cmds h with
  | some c =>
    if c.state = .held then
      { s.modCmd w h fun c => { c with state := .queued, order := s.nextReq } with nextReq := s.nextReq + 1 }
    else s
  | none => s

/-- R200: Makes a held command queued. -/
def execErel (x : Args) (s : State) : Res :=
  perLane 0x1ED noLaneCause (fun _ c l s => s.release c.wg (laneHandle x l)) x s

/-- A command that has not started ends without doing anything but what follows its payload; its handle is dead (R195).
(DEDUCED, log 67.) -/
def Cmd.cancel (c : Cmd) : Cmd :=
  match c.state with
  | .held | .queued => { c with state := .running, begun := true, ended := true, status := 0x41, deps := [], flushed := false }
  | _ => c

/-- R200: Cancels a held or queued command with status 0x41. -/
def execEcan (x : Args) (s : State) : Res :=
  perLane 0x1EE noLaneCause (fun _ c l s => s.modCmd c.wg (laneHandle x l) Cmd.cancel) x s

/-- 0 dead, 1 held, 2 queued, 3 running. -/
def handleState (g : Workgroup) (h : Nat) : Nat :=
  match (Tab.find g.cmds h).filter fun c => c.status != 0x41 with
  | none => 0
  | some c =>
    match c.state with
    | .held => 1
    | .queued => 2
    | _ => 3

/-- R200: Reads a handle's state: dead, held, queued or running. -/
def execEstat (x : Args) (s : State) : Res :=
  perLane 0x1EF noLaneCause (fun _ c l s => s.modWg c.wg fun g =>
    g.modThread l.tid (·.writeV x.d.toNat (BitVec.ofNat 32 (handleState g (laneHandle x l))))) x s

end Sys2Proof.Machine
end

