-- ==== Sys2Proof/Machine/Memory.lean ====
section
/-! DEFINITION. The meanings of the load, store, atomic, reduction, fence and seal instructions, opcodes 0x180 to 0x1B9
(R132 to R157). Each vector access issues its requests; what the homes do with them is in `Home`. -/

namespace Sys2Proof.Machine

/-! ### The shape of a vector access (R134, R135) -/

/-- The lanes of a vector memory instruction: those that trap, and those that go on. -/
structure MemLanes where
  s : State
  go : List Lane := []
  bad : List Lane := []
  pages : List Nat := []

/-- `%faultm` of each home warp with a trapping lane becomes exactly those lanes, and the lanes await a replay. -/
def State.setFaultm (s : State) (c : Cur) (bad : List Lane) : State :=
  s.modWg c.wg fun g =>
    let g := (homesOf bad).foldl (fun g h =>
      g.modHw h fun w => { w with faultm := bad.foldl (fun m l => if l.hw = h then setBit m l.lane true else m) 0 }) g
    bad.foldl (fun g l => g.modThread l.tid fun t =>
      if t.trapSlot = some c.slot then { t with memTrap := true } else t) g

/-- A vector memory instruction: every lane that meets a cause traps and changes nothing, the others complete. `more` is
what an active lane can meet; `page` the page it translates, once for each page, by `prep`, which installs the translation
or logs its failure; `note` what finding a cause logs besides; `eff` what the lanes that go on do together. -/
def vecMem (op : Nat) (more : State → Cur → Sig → Lane → Option Cause) (page : Lane → Option Nat)
    (prep : Cur → Lane → State → State) (eff : Sig → Cur → List Lane → State → State) (x : Args) (s : State)
    (note : Cur → Lane → State → State := fun _ _ s => s) (ill : Ill := noIll) (waits : Bool := false) : Res :=
  issue op x s fun sg c s =>
    let src := c.source s
    let m := (lanesOf s c x.ctl.pfx).foldl (fun (m : MemLanes) l =>
      match if ill.at_ m.s c sg x l then some (illegal c) else formCause src op sg x 0 c l with
      | some k => { m with s := m.s.modWg c.wg (·.trapLane c l.tid k), bad := m.bad ++ [l] }
      | none =>
        if l.act then
          let s' := note c l (if (page l).any m.pages.contains then m.s else prep c l m.s)
          let m := { m with pages := m.pages ++ (page l).toList }
          match more m.s c sg l, orOwed waits none l with
          | some k, _ => { m with s := s'.modWg c.wg (·.trapLane c l.tid k), bad := m.bad ++ [l] }
          | none, some k => { m with s := clearOwed c l (s'.modWg c.wg (·.trapLane c l.tid k)), bad := m.bad ++ [l] }
          | none, none => { m with s := s', go := m.go ++ [l] }
        else if x.z then { m with s := m.s.modWg c.wg (·.arriveAll l.tid (zeroWrites sg x)) }
        else m) { s }
    let s := eff sg c m.go m.s
    if m.bad = [] then s else s.setFaultm c m.bad

/-- No translation. -/
def noPage : Lane → Option Nat := fun _ => none

/-! ### Addresses (R134) -/

def vecAddr (x : Args) (k : Nat) (l : Lane) : W64 := l.t.readPair x.a.toNat + x.b.signExtend 64 * BitVec.ofNat 64 k
def scaAddr (x : Args) (k : Nat) (l : Lane) : W64 :=
  l.h.readS x.a.toNat + x.b.signExtend 64 * BitVec.ofNat 64 k + BitVec.ofNat 64 (l.lane * k)
def pairAddr (x : Args) (l : Lane) : W64 := l.t.readPair x.a.toNat
/-- A scratchpad offset, which may lie below 0. -/
def spadAddr (x : Args) (k : Nat) (l : Lane) : Int := (l.t.readV x.a.toNat).toNat + x.b.toInt * (k : Int)

/-- The page an access translates, if its address has the form of one (R134, R320). -/
def memPage (addr : Lane → W64) (align : Nat) (l : Lane) : Option Nat :=
  if (addrCause (addr l) align).isSome then none else some ((addr l).toNat / 4096)

/-- The causes of an access at an address. -/
def memCause (addr : Lane → W64) (align : Nat) (write : Bool) (s : State) (c : Cur) (_sg : Sig) (l : Lane) : Option Cause :=
  match addrCause (addr l) align with
  | some e => some e
  | none =>
    match (s.reach (c.source s) l.t write (addr l)).1 with
    | .error e => some e
    | .ok _ => none

/-- The translation is installed, or its failure logged. -/
def memPrep (addr : Lane → W64) (align : Nat) (write : Bool) (c : Cur) (l : Lane) (s : State) : State :=
  if (addrCause (addr l) align).isSome then s else (s.reach (c.source s) l.t write (addr l)).2

/-- The physical address a lane that goes on has. -/
def State.paOf (s : State) (c : Cur) (write : Bool) (va : W64) (l : Lane) : Nat :=
  match (s.reach (s.wgOf c.wg) l.t write va).1 with
  | .ok pa => pa
  | .error _ => 0

/-- The instruction is a release, which waits for earlier writes (R139). -/
def isRelease (op : Nat) (x : Args) : Bool := (releaseScope op x).isSome

/-! ### Loads (R137, R138, R141 to R143) -/

/-- The value of loaded bytes: extended to 32 bits below that size (R137). -/
def LoadFmt.value (f : LoadFmt) (bs : List Byte) : W128 :=
  let n := natOfBytes (bs.take f.size)
  if f.size < 4 ∧ f.signed then ((BitVec.ofNat (8 * f.size) n).signExtend 32).setWidth 128 else BitVec.ofNat 128 n
/-- Registers of a loaded value. -/
def LoadFmt.words (f : LoadFmt) : Nat := max 1 (f.size / 4)
def LoadFmt.writes (f : LoadFmt) (d : Nat) (bs : List Byte) : List Write := wordWrites d f.words (f.value bs)
def LoadFmt.dests (f : LoadFmt) (d : Nat) : List Dest := (List.range f.words).map fun i => .v (d + i)

/-- A request of a lane whose reply goes to register `d` on. -/
def State.ask (s : State) (c : Cur) (l : Lane) (r : Req) (deps : List Nat) (d : Nat) (f : LoadFmt) : State :=
  let (id, s) := s.newReq r deps
  s.modWg c.wg (·.pendAdd c l.tid (f.dests d) (.mem id d f))

/-- A request of a lane of the group. -/
def laneReq (s : State) (c : Cur) (l : Lane) (kind : ReqKind) (pa : Nat) (va : W64) (size : Nat) : Req :=
  let g := s.wgOf c.wg
  { by_ := .thread c.wg l.tid, kind, core := g.core, asid := g.ctx.asid, pa, va, size, data := [], state := .sent }

/-- The core's own core-weak bytes under an access, and which of them there are (R329). -/
def State.ownBytes (s : State) (core asid pa k : Nat) : List Byte × List Bool :=
  let x := Tab.get noSector (s.coreOf core).l1 (l1Key asid (sectorOf pa))
  ((List.range k).map fun i => dataByte x.data (pa % 64 + i), (List.range k).map fun i => x.weak.getLsbD (pa % 64 + i))

/-- One lane of `ld`: from the L1 or the Porch, or by a request; an acquire of die scope or wider reads at the home. -/
def loadLane (addr : Lane → W64) (f : LoadFmt) (d : Nat) (acq : Option Nat) (prom : Bool) (c : Cur) (s : State)
    (l : Lane) : State :=
  let g := s.wgOf c.wg
  let pa := s.paOf c false (addr l) l
  let far := acq.any fun sc => sc != 0
  match if far then none else s.loadHit g.core g.ctx.asid pa f.size with
  | some (bs, s) => s.modWg c.wg (·.pendAdd c l.tid (f.dests d) (.ready (f.writes d bs) 0))
  | none =>
    let r := laneReq s c l (if far then .readAlone else .read) pa (addr l) f.size
    let (own, mask) := s.ownBytes g.core g.ctx.asid pa f.size
    s.ask c l { r with acq, prom, fill := s.cacheable pa, data := own, mask } [] d f

/-- A lane's access is one that a cached copy with uncorrectable data would serve (R347). (DESIGN CHOICE, log 14.) -/
def copyBadAt (addr : Lane → W64) (f : LoadFmt) (acq : Option Nat) (s : State) (c : Cur) (l : Lane) : Bool :=
  let g := s.wgOf c.wg
  (memPage addr f.size l).isSome && !(acq.any fun sc => sc != 0) &&
    match (s.reach (c.source s) l.t false (addr l)).1 with
    | .ok pa => s.badCopy g.core g.ctx.asid pa f.size
    | .error _ => false

def loadCause (addr : Lane → W64) (f : LoadFmt) (acq : Option Nat) (s : State) (c : Cur) (sg : Sig) (l : Lane) : Option Cause :=
  (memCause addr f.size false s c sg l).orElse fun _ => if copyBadAt addr f acq s c l then some (0x13, addr l) else none

/-- The log of such a copy, and the count of a miss (R219). -/
def loadNote (addr : Lane → W64) (f : LoadFmt) (acq : Option Nat) (c : Cur) (l : Lane) (s : State) : State :=
  let g := s.wgOf c.wg
  match if (memPage addr f.size l).isSome then (s.reach (c.source s) l.t false (addr l)).1 else .error (0, 0) with
  | .ok pa =>
    if copyBadAt addr f acq s c l then s.logStop g.core g.ctx.asid pa f.size else s.countMiss c.wg pa f.size
  | .error _ => s

def vectorLoad (op : Nat) (addr : Lane → W64) (f : LoadFmt) (acq : Option Nat) (prom : Bool) (x : Args) (s : State) : Res :=
  vecMem op (loadCause addr f acq) (memPage addr f.size) (memPrep addr f.size false)
    (fun _ c ls s => ls.foldl (loadLane addr f x.d.toNat acq prom c) s) x s (loadNote addr f acq)

/-- A load with a qualifier (R42). -/
def qualLoad (op k : Nat) (x : Args) (s : State) : Res :=
  vectorLoad op (pairAddr x) ⟨k, false⟩ (if bitsNat x.b 3 2 = 1 then some (bitsNat x.b 1 0) else none) (bitAt x.b 4) x s

/-- R137: Vector load of one byte, zero-extended, relaxed at core scope. -/
def execLdN8 (x : Args) (s : State) : Res := vectorLoad 0x180 (vecAddr x 1) ⟨1, false⟩ none false x s
/-- R137: Vector load of one byte, sign-extended. -/
def execLdS8 (x : Args) (s : State) : Res := vectorLoad 0x181 (vecAddr x 1) ⟨1, true⟩ none false x s
/-- R137: Vector load of 2 bytes, zero-extended. -/
def execLdN16 (x : Args) (s : State) : Res := vectorLoad 0x182 (vecAddr x 2) ⟨2, false⟩ none false x s
/-- R137: Vector load of 2 bytes, sign-extended. -/
def execLdS16 (x : Args) (s : State) : Res := vectorLoad 0x183 (vecAddr x 2) ⟨2, true⟩ none false x s
/-- R137: Vector load of 4 bytes. -/
def execLdB32 (x : Args) (s : State) : Res := vectorLoad 0x184 (vecAddr x 4) ⟨4, false⟩ none false x s
/-- R137: Vector load of 8 bytes into a pair. -/
def execLdB64 (x : Args) (s : State) : Res := vectorLoad 0x185 (vecAddr x 8) ⟨8, false⟩ none false x s
/-- R137: Vector load of 16 bytes into a quad. -/
def execLdB128 (x : Args) (s : State) : Res := vectorLoad 0x186 (vecAddr x 16) ⟨16, false⟩ none false x s
/-- R137: Load of 4 bytes from a scalar base plus home lane times size. -/
def execLdB32S (x : Args) (s : State) : Res := vectorLoad 0x187 (scaAddr x 4) ⟨4, false⟩ none false x s
/-- R137: Load of 8 bytes from a scalar base. -/
def execLdB64S (x : Args) (s : State) : Res := vectorLoad 0x188 (scaAddr x 8) ⟨8, false⟩ none false x s
/-- R137: Load of 16 bytes from a scalar base. -/
def execLdB128S (x : Args) (s : State) : Res := vectorLoad 0x189 (scaAddr x 16) ⟨16, false⟩ none false x s
/-- R138: Qualified 4-byte load with scope, acquire and promotion. -/
def execLdB32Q (x : Args) (s : State) : Res := qualLoad 0x18A 4 x s
/-- R138: Qualified 8-byte load with scope, acquire and promotion. -/
def execLdB64Q (x : Args) (s : State) : Res := qualLoad 0x18B 8 x s

/-- R141: read at the home, after the core's own bytes there have been written through (R334). -/
def loadHome (op k : Nat) (x : Args) (s : State) : Res :=
  vecMem op (memCause (vecAddr x k) k false) (memPage (vecAddr x k) k) (memPrep (vecAddr x k) k false)
    (fun _ c ls s => ls.foldl (fun s l =>
      let pa := s.paOf c false (vecAddr x k l) l
      let (deps, s) := s.flushSector (s.wgOf c.wg).core pa
      s.ask c l (laneReq s c l .readAlone pa (vecAddr x k l) k) deps x.d.toNat ⟨k, false⟩) s) x s

/-- R141: Uncached 4-byte load served at the home. -/
def execLdncB32 (x : Args) (s : State) : Res := loadHome 0x1A2 4 x s
/-- R141: Uncached 8-byte load served at the home. -/
def execLdncB64 (x : Args) (s : State) : Res := loadHome 0x1A3 8 x s
/-- R141: Uncached 16-byte load served at the home. -/
def execLdncB128 (x : Args) (s : State) : Res := loadHome 0x1A4 16 x s

/-- The key of a sealed sector (R311): its version and address. -/
def sealedKey (version pa : Nat) : Nat := version * 2 ^ 46 + sectorOf pa

/-- A sealed sector enters an L1 (R311). -/
def State.fillSealed (s : State) (core key : Nat) (d : BitVec 512) : State :=
  (s.roomL1 core true key).modCore core fun c => { c with l1Sealed := Tab.put c.l1Sealed key d }

/-- A sealed copy in the L1, or in the Porch, which fills the L1. -/
def State.sealedHit (s : State) (core version pa : Nat) : Option (BitVec 512 × State) :=
  match Tab.find (s.coreOf core).l1Sealed (sealedKey version pa) with
  | some d => some (d, s)
  | none =>
    match Tab.find (s.dieAt (dieOfCore core)).porchSealed (sealedKey version pa) with
    | some d => some (d, s.fillSealed core (sealedKey version pa) d)
    | none => none

/-- A version above 0xFFFF (R143). -/
def versionIll (x : Args) : Ill := ⟨[.b], fun _ _ _ l => decide (0xFFFF < (l.h.readS x.b.toNat).toNat)⟩

/-- R143. -/
def loadSealed (op k : Nat) (x : Args) (s : State) : Res :=
  let v (l : Lane) : Nat := (l.h.readS x.b.toNat).toNat
  vecMem op (memCause (pairAddr x) k false) (memPage (pairAddr x) k) (memPrep (pairAddr x) k false)
    (fun _ c ls s => ls.foldl (fun s l =>
      let pa := s.paOf c false (pairAddr x l) l
      let f : LoadFmt := ⟨k, false⟩
      match s.sealedHit (s.wgOf c.wg).core (v l) pa with
      | some (d, s) =>
        let bs := (List.range k).map fun i => dataByte d (pa % 64 + i)
        s.modWg c.wg (·.pendAdd c l.tid (f.dests x.d.toNat) (.ready (f.writes x.d.toNat bs) 0))
      | none =>
        s.ask c l { laneReq s c l (.readSealed (v l)) pa (pairAddr x l) k with fill := true } [] x.d.toNat f) s) x s
    (ill := versionIll x)

/-- R143: Versioned 4-byte load of sealed bytes. -/
def execLdvB32 (x : Args) (s : State) : Res := loadSealed 0x1A5 4 x s
/-- R143: Versioned 8-byte load of sealed bytes. -/
def execLdvB64 (x : Args) (s : State) : Res := loadSealed 0x1A6 8 x s
/-- R143: Versioned 16-byte load of sealed bytes. -/
def execLdvB128 (x : Args) (s : State) : Res := loadSealed 0x1A7 16 x s

/-- R142: a hint; with no translation in a TLB, or where nothing may be read or cached, it is dropped. -/
def prefetchLane (x : Args) (c : Cur) (s : State) (l : Lane) : State :=
  let g := s.wgOf c.wg
  let va := vecAddr x 64 l
  let look (t : List Tlb) : Option Tlb := t.find? fun e => e.covers g.ctx.asid (va.toNat / 4096)
  let e := (look (s.coreOf g.core).tlb).orElse fun _ => look (s.dieAt (dieOfCore g.core)).tlb
  match if 2 ^ 48 ≤ va.toNat then none else e with
  | none => s
  | some e =>
    let pa := e.pa va.toNat
    if !e.allows (g.want l.t false) || !s.paOk pa || !s.cacheable pa || s.isBad pa ||
        (s.pathFrom (dieOfCore g.core) 0 pa).isNone then s
    else if (s.loadHit g.core g.ctx.asid (sectorOf pa * 64) 64).isSome then s
    else (s.newReq { laneReq s c l .read (sectorOf pa * 64) va 64 with fill := true } []).2

/-- R142: Hints that a 64-byte sector be brought into the L1; never traps. -/
def execPf (x : Args) (s : State) : Res :=
  vecMem 0x1A8 noLaneCause noPage (fun _ _ s => s) (fun _ c ls s => ls.foldl (prefetchLane x c) s) x s

/-! ### Stores (R137, R138) -/

/-- A write of a thread that its home has yet to acknowledge. -/
def State.track (s : State) (c : Cur) (tid req : Nat) (va : W64) (pa : Nat) : State :=
  s.modWg c.wg fun g => g.modThread tid fun t => { t with writes := t.writes ++ [⟨req, va, !s.isOwn pa⟩] }

/-- A store written through at once: performed in the L1, and on its way to its home. -/
def State.storeThrough (s : State) (c : Cur) (l : Lane) (pa : Nat) (va : W64) (bs : List Byte) : State :=
  let g := s.wgOf c.wg
  let key := l1Key g.ctx.asid (sectorOf pa)
  let s := (s.storeL1 g.core g.ctx.asid pa bs).modCore g.core fun k => k.unbuffer key (spanMask (pa % 64) bs.length)
  let (id, s) := s.newReq { laneReq s c l .write pa va bs.length with
    data := bs, huge := s.isHuge g.core g.ctx.asid va } []
  s.track c l.tid id va pa

/-- The low bytes of D. -/
def storeBytes (x : Args) (k : Nat) (l : Lane) : List Byte :=
  bytesOfNat (l.t.readVec x.d.toNat (max 1 (k / 4))).toNat k

/-- A store of some lanes in ascending home lane order; `through` of die scope or wider. -/
def vectorStore (op : Nat) (addr : Lane → W64) (k : Nat) (through : Bool) (x : Args) (s : State) : Res :=
  vecMem op (memCause addr k true) (memPage addr k) (memPrep addr k true)
    (fun _ c ls s => ls.foldl (fun s l =>
      let pa := s.paOf c true (addr l) l
      let bs := storeBytes x k l
      if through then s.storeThrough c l pa (addr l) bs
      else s.weakStore c (s.wgOf c.wg) pa (addr l) bs [l.tid]) s) x s (waits := isRelease op x)

/-- R137: Vector store of one byte as a core-weak store. -/
def execStN8 (x : Args) (s : State) : Res := vectorStore 0x18C (vecAddr x 1) 1 false x s
/-- R137: Vector store of 2 bytes. -/
def execStN16 (x : Args) (s : State) : Res := vectorStore 0x18D (vecAddr x 2) 2 false x s
/-- R137: Vector store of 4 bytes. -/
def execStB32 (x : Args) (s : State) : Res := vectorStore 0x18E (vecAddr x 4) 4 false x s
/-- R137: Vector store of 8 bytes. -/
def execStB64 (x : Args) (s : State) : Res := vectorStore 0x18F (vecAddr x 8) 8 false x s
/-- R137: Vector store of 16 bytes. -/
def execStB128 (x : Args) (s : State) : Res := vectorStore 0x190 (vecAddr x 16) 16 false x s
/-- R137: Store of 4 bytes at a scalar base plus home lane times size. -/
def execStB32S (x : Args) (s : State) : Res := vectorStore 0x191 (scaAddr x 4) 4 false x s
/-- R137: Store of 8 bytes at a scalar base. -/
def execStB64S (x : Args) (s : State) : Res := vectorStore 0x192 (scaAddr x 8) 8 false x s
/-- R137: Store of 16 bytes at a scalar base. -/
def execStB128S (x : Args) (s : State) : Res := vectorStore 0x193 (scaAddr x 16) 16 false x s
/-- R138: Qualified 4-byte store with scope and release. -/
def execStB32Q (x : Args) (s : State) : Res := vectorStore 0x194 (pairAddr x) 4 (bitsNat x.b 1 0 != 0) x s
/-- R138: Qualified 8-byte store with scope and release. -/
def execStB64Q (x : Args) (s : State) : Res := vectorStore 0x195 (pairAddr x) 8 (bitsNat x.b 1 0 != 0) x s

/-! ### Scratchpad (R140, R146) -/

/-- R134 for the scratchpad: alignment, then the allocation's bytes, then their data (R347). -/
def spadCause (k : Nat) (write : Bool) (off : Lane → Int) (s : State) (c : Cur) (_sg : Sig) (l : Lane) : Option Cause :=
  let o := off l
  let va := BitVec.ofInt 64 o
  if o % (k : Int) ≠ 0 then some (0x15, va)
  else if o < 0 ∨ !(c.source s).inSpad o.toNat k then some (0x11, va)
  else if (s.wgOf c.wg).spadBad o.toNat k write then some (0x13, va)
  else none

/-- The log of uncorrectable scratchpad data, which has no physical address. (DESIGN CHOICE, logs 14, 46.) -/
def spadNote (k : Nat) (write : Bool) (off : Lane → Int) (c : Cur) (l : Lane) (s : State) : State :=
  let g := s.wgOf c.wg
  let o := off l
  if o % (k : Int) = 0 ∧ 0 ≤ o ∧ g.spadBad o.toNat k write then s.logCore g.core g.ctx.asid 0x13 else s

def spadLoad (op : Nat) (f : LoadFmt) (x : Args) (s : State) : Res :=
  let off := spadAddr x f.size
  vecMem op (spadCause f.size false off) noPage (fun _ _ s => s)
    (fun _ c ls s => s.modWg c.wg fun g =>
      (ls.foldl (fun g l =>
        g.pendAdd c l.tid (f.dests x.d.toNat)
          (.ready (f.writes x.d.toNat (g.spadBytes (off l).toNat f.size)) 0)) g).addPasses f.size
        (ls.map fun l => (l.lane, (off l).toNat))) x s (spadNote f.size false off)

def spadStore (op k : Nat) (x : Args) (s : State) : Res :=
  let off := spadAddr x k
  vecMem op (spadCause k true off) noPage (fun _ _ s => s)
    (fun _ c ls s => s.modWg c.wg fun g =>
      (ls.foldl (fun g l => g.spadWrite (off l).toNat (storeBytes x k l)) g).addPasses k
        (ls.map fun l => (l.lane, (off l).toNat))) x s (spadNote k true off)

/-- R140: Scratchpad load of one byte, zero-extended. -/
def execLdsN8 (x : Args) (s : State) : Res := spadLoad 0x196 ⟨1, false⟩ x s
/-- R140: Scratchpad load of one byte, sign-extended. -/
def execLdsS8 (x : Args) (s : State) : Res := spadLoad 0x197 ⟨1, true⟩ x s
/-- R140: Scratchpad load of 2 bytes, zero-extended. -/
def execLdsN16 (x : Args) (s : State) : Res := spadLoad 0x198 ⟨2, false⟩ x s
/-- R140: Scratchpad load of 2 bytes, sign-extended. -/
def execLdsS16 (x : Args) (s : State) : Res := spadLoad 0x199 ⟨2, true⟩ x s
/-- R140: Scratchpad load of 4 bytes. -/
def execLdsB32 (x : Args) (s : State) : Res := spadLoad 0x19A ⟨4, false⟩ x s
/-- R140: Scratchpad load of 8 bytes. -/
def execLdsB64 (x : Args) (s : State) : Res := spadLoad 0x19B ⟨8, false⟩ x s
/-- R140: Scratchpad load of 16 bytes. -/
def execLdsB128 (x : Args) (s : State) : Res := spadLoad 0x19C ⟨16, false⟩ x s
/-- R140: Scratchpad store of one byte. -/
def execStsN8 (x : Args) (s : State) : Res := spadStore 0x19D 1 x s
/-- R140: Scratchpad store of 2 bytes. -/
def execStsN16 (x : Args) (s : State) : Res := spadStore 0x19E 2 x s
/-- R140: Scratchpad store of 4 bytes. -/
def execStsB32 (x : Args) (s : State) : Res := spadStore 0x19F 4 x s
/-- R140: Scratchpad store of 8 bytes. -/
def execStsB64 (x : Args) (s : State) : Res := spadStore 0x1A0 8 x s
/-- R140: Scratchpad store of 16 bytes. -/
def execStsB128 (x : Args) (s : State) : Res := spadStore 0x1A1 16 x s

/-! ### Atomics (R144 to R146) -/

/-- The effect of an operation on a value of `k` bytes: the new value (none: no write), and the flags. `d` is the operand;
for cas it is the compare value and `d2` the new one. -/
def amoStep (opn k : Nat) (mode : Mode) (old d d2 : Nat) : Option Nat × Flags :=
  let w := 8 * k
  let a := BitVec.ofNat w old
  let b := BitVec.ofNat w d
  match opn with
  | 0 => (some (a + b).toNat, 0)
  | 1 => let (v, f) := opAdd fp32 mode old d 0; (some v, f)
  | 2 => (some (minS a b).toNat, 0)
  | 3 => (some (maxS a b).toNat, 0)
  | 4 => (some (minN a b).toNat, 0)
  | 5 => (some (maxN a b).toNat, 0)
  | 6 => (some (a &&& b).toNat, 0)
  | 7 => (some (a ||| b).toNat, 0)
  | 8 => (some (a ^^^ b).toNat, 0)
  | 9 => (some b.toNat, 0)
  | _ => if old = d then (some d2, 0) else (none, 0)

/-- Bytes of the operands of an atomic on `k` bytes. -/
def amoOperand (opn k : Nat) : Nat := if opn = 10 then 2 * k else k

/-- Lanes on one address in order: the values they return with their flags, and the value that remains (none: never
written). -/
def amoLanes (opn k : Nat) (old : Nat) (ops : List (Mode × List Byte)) : List (Nat × Flags) × Option Nat :=
  ops.foldl (fun (acc : List (Nat × Flags) × Option Nat) o =>
    let cur := acc.2.getD old
    let (new, fl) := amoStep opn k o.1 cur (natOfBytes (o.2.take k)) (natOfBytes (o.2.drop k))
    (acc.1 ++ [(cur, fl)], match new with | some v => some v | none => acc.2)) ([], none)

/-- The addresses of some lanes, each once, in order of its lowest lane. -/
def distinct (as : List Nat) : List Nat := as.foldl (fun acc a => if acc.contains a then acc else acc ++ [a]) []

/-- One atomic for each address, its lanes in ascending home lane order. -/
def atomic (op k : Nat) (x : Args) (s : State) : Res :=
  let opn := selOpn x.b
  let w := amoOperand opn k
  let f : LoadFmt := ⟨k, false⟩
  vecMem op (memCause (pairAddr x) k true) (memPage (pairAddr x) k) (memPrep (pairAddr x) k true)
    (fun _ c ls s =>
      let at_ := ls.map fun l => (s.paOf c true (pairAddr x l) l, l)
      (distinct (at_.map (·.1))).foldl (fun s pa =>
        let here := (at_.filter fun p => p.1 = pa).map (·.2)
        match here with
        | [] => s
        | first :: _ =>
          let (deps, s) := s.flushSector (s.wgOf c.wg).core pa
          let acq := if bitAt x.b 6 then some (bitsNat x.b 5 4) else none
          let r := laneReq s c first (.amo opn (here.map fun l => (l.tid, modeOf x.ctl.pfx l.t))) pa (pairAddr x first) k
          let (id, s) := s.newReq { r with
            data := here.flatMap fun l => storeBytes x w l
            acq, huge := s.isHuge r.core r.asid r.va } deps
          here.foldl (fun s l => s.modWg c.wg (·.pendAdd c l.tid (f.dests x.d.toNat) (.mem id x.d.toNat f))) s) s) x s
    (waits := isRelease op x)

/-- R145: 32-bit atomic at the home with the selected operation, scope and ordering. -/
def execAmoB32 (x : Args) (s : State) : Res := atomic 0x1A9 4 x s
/-- R145: 64-bit atomic at the home. -/
def execAmoB64 (x : Args) (s : State) : Res := atomic 0x1AA 8 x s

/-- R146: at the bank, lanes in ascending order. -/
def atomicSpad (op k : Nat) (x : Args) (s : State) : Res :=
  let opn := selOpn x.b
  let f : LoadFmt := ⟨k, false⟩
  let off (l : Lane) : Int := (l.t.readV x.a.toNat).toNat
  vecMem op (spadCause k false off) noPage (fun _ _ s => s)
    (fun _ c ls s => s.modWg c.wg fun g =>
      (ls.foldl (fun g l =>
        let o := (off l).toNat
        let old := g.spadRead o k
        let bs := storeBytes x (amoOperand opn k) l
        let (new, fl) := amoStep opn k (modeOf x.ctl.pfx l.t) old (natOfBytes (bs.take k)) (natOfBytes (bs.drop k))
        let g := match new with | some v => g.spadWrite o (bytesOfNat v k) | none => g
        g.pendAdd c l.tid (f.dests x.d.toNat) (.ready (f.writes x.d.toNat (bytesOfNat old k)) fl)) g).addPasses k
        (ls.map fun l => (l.lane, (off l).toNat)) false) x s (spadNote k false off) (waits := isRelease op x)

/-- R146: 32-bit atomic on a scratchpad word at its bank. -/
def execAmosB32 (x : Args) (s : State) : Res := atomicSpad 0x1AB 4 x s
/-- R146: 64-bit atomic on a scratchpad word at its bank. -/
def execAmosB64 (x : Args) (s : State) : Res := atomicSpad 0x1AC 8 x s

/-! ### Reductions and window slots (R147 to R149) -/

/-- A reduction leaves for the home; every thread that contributes waits for its acknowledgement. -/
def State.sendRed (s : State) (c : Cur) (here : List Lane) (kind : ReqKind) (pa : Nat) (va : W64) (bs : List Byte) : State :=
  match here with
  | [] => s
  | first :: _ =>
    let (deps, s) := s.flushSector (s.wgOf c.wg).core pa
    let r := laneReq s c first kind pa va bs.length
    let (id, s) := s.newReq { r with data := bs, huge := s.isHuge r.core r.asid va } deps
    here.foldl (fun s l => s.track c l.tid id va pa) s

/-- R147: lanes that name one address are combined in ascending home lane order, under the mode of the lowest. -/
def reduction (op k : Nat) (x : Args) (s : State) : Res :=
  let opn := selOpn x.b
  vecMem op (memCause (pairAddr x) k true) (memPage (pairAddr x) k) (memPrep (pairAddr x) k true)
    (fun _ c ls s =>
      let at_ := ls.map fun l => (s.paOf c true (pairAddr x l) l, l)
      (distinct (at_.map (·.1))).foldl (fun s pa =>
        let here := (at_.filter fun p => p.1 = pa).map (·.2)
        match here with
        | [] => s
        | first :: rest =>
          let mode := modeOf x.ctl.pfx first.t
          let val (l : Lane) : Nat := natOfBytes (storeBytes x k l)
          let v := rest.foldl (fun acc l => (amoStep opn k mode acc (val l) 0).1.getD acc) (val first)
          s.sendRed c here (.red opn mode) pa (pairAddr x first) (bytesOfNat v k)) s) x s (waits := isRelease op x)

/-- R147: Byte reduction sent to the home after group combining. -/
def execRedN8 (x : Args) (s : State) : Res := reduction 0x1AD 1 x s
/-- R147: 32-bit reduction without return. -/
def execRedB32 (x : Args) (s : State) : Res := reduction 0x1AE 4 x s
/-- R147: 64-bit reduction without return. -/
def execRedB64 (x : Args) (s : State) : Res := reduction 0x1AF 8 x s

/-- R148: the contribution of a lane, with its flags. -/
def windowPart (x : Args) (float : Bool) (l : Lane) : Int × Flags :=
  let v := l.t.readV x.b.toNat
  windowQ ((windowExp (l.h.readS x.d.toNat)).getD 0) (if float then fp32.decode v.toNat else .ofInt v.toInt)

/-- An exponent that is none (R148, R149). -/
def windowIll (k : Fld) (x : Args) : Ill := ⟨[k], fun _ _ _ l => (windowExp (l.h.readS (x.fld k).toNat)).isNone⟩

def windowAdd (op : Nat) (float : Bool) (x : Args) (s : State) : Res :=
  vecMem op (memCause (pairAddr x) 8 true) (memPage (pairAddr x) 8) (memPrep (pairAddr x) 8 true)
    (fun _ c ls s =>
      let at_ := ls.map fun l => (s.paOf c true (pairAddr x l) l, l)
      let s := ls.foldl (fun s l =>
        s.modWg c.wg fun g => g.modThread l.tid (·.raise (windowPart x float l).2)) s
      (distinct (at_.map (·.1))).foldl (fun s pa =>
        let here := (at_.filter fun p => p.1 = pa).map (·.2)
        match here with
        | [] => s
        | first :: _ =>
          let q := (here.map fun l => (windowPart x float l).1).sum
          s.sendRed c here .redw pa (pairAddr x first) (bytesOfNat (BitVec.ofInt 64 q).toNat 8)) s) x s (ill := windowIll .d x)

/-- R148: Converts an FP32 value to a window integer and adds it into the slot. -/
def execRedwF32 (x : Args) (s : State) : Res := windowAdd 0x1B0 true x s
/-- R148: Converts a signed integer to a window integer and adds it into the slot. -/
def execRedwS32 (x : Args) (s : State) : Res := windowAdd 0x1B1 false x s

/-- R149. -/
def windowFin (op : Nat) (float : Bool) (x : Args) (s : State) : Res :=
  vecMem op (memCause (pairAddr x) 8 true) (memPage (pairAddr x) 8) (memPrep (pairAddr x) 8 true)
    (fun _ c ls s => ls.foldl (fun s l =>
      let pa := s.paOf c true (pairAddr x l) l
      let (deps, s) := s.flushSector (s.wgOf c.wg).core pa
      let e := (windowExp (l.h.readS x.b.toNat)).getD 0
      let r := laneReq s c l (.wfin float e (modeOf x.ctl.pfx l.t)) pa (pairAddr x l) 8
      s.ask c l { r with huge := s.isHuge r.core r.asid r.va } deps x.d.toNat ⟨if float then 4 else 8, false⟩) s) x s
    (ill := windowIll .b x)

/-- R149: Reads and clears a window slot, returning it rounded to FP32. -/
def execWfinF32 (x : Args) (s : State) : Res := windowFin 0x1B2 true x s
/-- R149: Reads and clears a window slot, returning a saturated 64-bit integer. -/
def execWfinS64 (x : Args) (s : State) : Res := windowFin 0x1B3 false x s

/-! ### Fences and waiting (R150 to R153) -/

/-- The core's acquire tick becomes the heartbeat (R138). -/
def State.acquire (s : State) (core : Nat) : State := s.modCore core fun k => { k with acq := s.hb }

/-- The waits are over (see `Gate`): the acquire side, at die scope too (see `answered_`), and the status of `fence.sys`
(R151); the core writes its core-weak stores through at die scope or wider (R300). (DEDUCED, log 36.) -/
def execFence (x : Args) (s : State) : Res :=
  let sc := bitsNat x.b 1 0
  perLane 0x1B4 noLaneCause (fun sg c l s =>
    let core := (s.wgOf c.wg).core
    let s := if sc = 0 then s else (s.flushCore core).2
    let s := if bitAt x.b 2 ∧ sc ≠ 0 then s.acquire core else s
    if sc = 3 then
      s.modWg c.wg fun g =>
        let ok := !(g.thread l.tid).lost
        let g := g.modThread l.tid fun t => { t with lost := false }
        if x.d = 0 then g
        else g.pendAdd c l.tid (destRegs sg x) (.ready [⟨.p x.d.toNat, (BitVec.ofBool ok).setWidth 64⟩] 0)
    else s) x s (waits := true)

/-- R152, step 3, and the places in the order of R335: one for the threads of each home warp that issued together when the
heartbeat was awaited. -/
def execFsc (x : Args) (s : State) : Res :=
  perHome 0x1B5 noCause (fun _ c act s =>
    match act with
    | [] => s
    | _ :: _ =>
      let core := (s.wgOf c.wg).core
      let s := s.acquire core
      { s with fscOrder := s.fscOrder ++ (act.map fun l => (l.t.fscTick, core, l.hw, l.t.fscStamp)).dedup }) x s (waits := true)

/-- The causes of a wait, for a lane whose value has not been read yet. -/
def waitCause (k : Nat) (x : Args) (s : State) (c : Cur) (_sg : Sig) (l : Lane) : Option Cause :=
  if l.t.passed c.slot = 0 then s.readStops (c.source s) l.t (pairAddr x l) k else none

/-- The log of what stops its read at the home or the link. -/
def waitNote (k : Nat) (x : Args) (c : Cur) (l : Lane) (s : State) : State :=
  let g := s.wgOf c.wg
  match if l.t.passed c.slot = 0 ∧ (memPage (pairAddr x) k l).isSome then (s.reach (c.source s) l.t false (pairAddr x l)).1
      else .error (0, 0) with
  | .ok pa => if (s.readStops (c.source s) l.t (pairAddr x l) k).isSome then s.logHome g.core g.ctx.asid pa else s
  | .error _ => s

/-- A lane that issues has read its value (`WADDR_POLL`), or meets what stops the read (R153). -/
def waitAddr (op k : Nat) (x : Args) (s : State) : Res :=
  vecMem op (waitCause k x) (memPage (pairAddr x) k)
    (fun c l s => if l.t.passed c.slot = 0 then memPrep (pairAddr x) k false c l s else s) (fun _ _ _ s => s) x s (waitNote k x)

/-- R153: Holds each thread until a read of its 4-byte address returns the compare value. -/
def execWaddrB32 (x : Args) (s : State) : Res := waitAddr 0x1B6 4 x s
/-- R153: Holds each thread until a read of its 8-byte address returns the compare value. -/
def execWaddrB64 (x : Args) (s : State) : Res := waitAddr 0x1B7 8 x s

/-! ### Sealing (R154, R155) -/

/-- The operands of a home warp: version, base, length. -/
def sealArgs (x : Args) (l : Lane) : W64 × W64 × W64 := (l.h.readS x.d.toNat, l.h.readS x.a.toNat, l.h.readS x.b.toNat)

/-- The form of the operands: version, base, length. -/
def sealFormOk (v b n : W64) : Bool :=
  decide (v.toNat ≤ 0xFFFF ∧ b.toNat % 256 = 0 ∧ n.toNat % 256 = 0 ∧ 0 < n.toNat ∧ n.toNat ≤ 2 ^ 32)

/-- The pieces of a range page by page: virtual address and bytes. -/
def pagePieces (base len : Nat) : List (Nat × Nat) :=
  let first := base / 4096
  (List.range ((base + len - 1) / 4096 - first + 1)).map fun i =>
    let lo := max base ((first + i) * 4096)
    let hi := min (base + len) ((first + i + 1) * 4096)
    (lo, hi - lo)

/-- The range as physical pieces, each with whether its page is of 1 GiB, or the first fault in page order.
(DEDUCED, log 55.) -/
def State.sealPieces (s : State) (g : Workgroup) (t : Thread) (base len : Nat) :
    Except Nat (List (Nat × Nat × Bool)) × State :=
  (pagePieces base len).foldl (fun (acc : Except Nat (List (Nat × Nat × Bool)) × State) p =>
    match acc.1 with
    | .error e => (.error e, acc.2)
    | .ok ps =>
      if 2 ^ 48 ≤ p.1 then (.error 0x11, acc.2)
      else
        match acc.2.reach g t false (BitVec.ofNat 64 p.1) with
        | (.error e, s) => (.error e.1, s)
        | (.ok pa, s) =>
          if s.isOwn pa then (.ok (ps ++ [(pa, p.2, s.isHuge g.core g.ctx.asid (BitVec.ofNat 64 p.1))]), s)
          else (.error 0x11, s)) (.ok [], s)

/-- A byte of the range is sealed already. -/
def State.sealedAt (s : State) (pa n : Nat) : Bool := s.seals.any fun r => decide (pa < r.pa + r.len ∧ r.pa < pa + n)

/-- The frames of a die (R296): half of the usable memory, and those that regions hold on it; a region that moves holds one
on both. (DEDUCED, log 32.) -/
def State.framesOf (s : State) : Nat := s.usz / 2
/-- (DEDUCED, log 32.) -/
def State.framesUsed (s : State) (die : Nat) : Nat :=
  (s.homes.filter fun p => match p.2 with
    | .die d _ => d == die
    | .migrating src dst .. => src == die || dst == die
    | .unhomed => false).length
/-- The frames of a die that regions hold. -/
def State.framesTaken (s : State) (die : Nat) : List Nat :=
  s.homes.filterMap fun p => match p.2 with
    | .die d f => if d = die then some f else none
    | .migrating src _ _ old new => if src = die then some old else some new
    | .unhomed => none
/-- A free frame of a die: which one is left open. (DESIGN CHOICE, log 114.) -/
def State.freeFrame (s : State) (die : Nat) : Nat × State :=
  let (n, s) := s.draw
  let taken := s.framesTaken die
  ((((List.range (taken.length + 1)).map fun i => (n + i) % max s.framesOf 1).find? fun f => !taken.contains f).getD 0, s)
/-- R297: the die that a first write chooses, or the other one where it has no free frame for the regions. (DEDUCED, log 32.) -/
def State.frameDie (s : State) (die n : Nat) : Nat :=
  if s.framesOf < s.framesUsed die + n ∧ s.framesUsed (1 - die) + n ≤ s.framesOf then 1 - die else die

/-- Copies of regions homed on the other die are remote (R299). -/
def Core.across (c : Core) (rs : List Nat) : Core :=
  { c with l1 := Tab.map (fun key (x : Sector) =>
      if rs.contains (regionOf (key % 2 ^ 46 * 64)) then { x with remote := true } else x) c.l1 }

/-- The core holds a copy of the sector, or will when a reply on its way fills its L1. -/
def State.keeps (s : State) (core sector : Nat) : Bool :=
  (Tab.keys (s.coreOf core).l1).any (fun k => k % 2 ^ 46 == sector) ||
    s.reqs.any fun p => p.2.fill && p.2.core == core && p.2.state == .replying && sectorOf p.2.pa == sector

/-- Copies that cores took while the regions were unhomed: of those of the new home's die the directory knows, those across are
remote lines (R299, R301). (DEDUCED, log 32.) -/
def State.settleCopies (s : State) (die : Nat) (rs : List Nat) : State :=
  { s with
    cores := Tab.map (fun c (k : Core) => if dieOfCore c = die then k else k.across rs) s.cores
    dir := s.dir.filterMap fun p =>
      if rs.contains (regionOf (p.1 * 64)) then
        let m := (List.range 64).foldl (fun (m : BitVec 64) i =>
          if p.2.sharers.getLsbD i && s.keeps (die * 64 + i) p.1 then m ||| BitVec.twoPow 64 i else m) 0
        let e := { p.2 with sharers := m }
        if e = { filled := e.filled } then none else some (p.1, e)
      else some p }

/-- R297: a first write homes the region: on a die, or the whole 1 GiB of its page. (DEDUCED, log 32.) -/
def State.homeRegion (s : State) (pa die : Nat) (huge : Bool) : State :=
  let r := regionOf pa
  let rs := (if huge then (List.range 512).map fun i => r / 512 * 512 + i else [r]).filter fun r =>
    match Tab.find s.homes r with
    | none | some .unhomed => true
    | _ => false
  let d := s.frameDie die rs.length
  let s := rs.foldl (fun s r =>
    let (f, s) := s.freeFrame d
    { s with homes := Tab.put s.homes r (.die d f) }) s
  if rs = [] then s else s.settleCopies d rs

/-- Physical runs: pieces joined where they continue one another on one die. -/
def joinRuns (die : Nat → Nat) : List (Nat × Nat) → List (Nat × Nat × Nat)
  | [] => []
  | (pa, n) :: rest =>
    match joinRuns die rest with
    | (d, pa', n') :: more =>
      if pa + n = pa' ∧ die pa = d then (d, pa, n + n') :: more else (die pa, pa, n) :: (d, pa', n') :: more
    | [] => [(die pa, pa, n)]

/-- The state after a `seal`, or the code that stops it (R154). (DEDUCED, log 55.) -/
def State.sealRange (s : State) (g : Workgroup) (t : Thread) (v b n : W64) : Except Nat State × State :=
  match s.sealPieces g t b.toNat n.toNat with
  | (.error e, s) => (.error e, s)
  | (.ok ps, s) =>
    if ps.any fun p => s.sealedAt p.1 p.2.1 then (.error 0x11, s)
    else
      let s1 := ps.foldl (fun s p => s.homeRegion p.1 (dieOfCore g.core) p.2.2) s
      let runs := joinRuns (fun pa => s1.dieFor pa (dieOfCore g.core)) (ps.map fun p => (p.1, p.2.1))
      let used (d : Nat) : Nat := (s.seals.filter fun r => r.die = d).length + (runs.filter fun r => r.1 = d).length
      if 512 < used 0 ∨ 512 < used 1 then (.error 0x11, s)
      else
        let id := s1.nextReq
        (.ok { s1 with
          nextReq := id + 1
          seals := s1.seals ++ runs.map fun r =>
            { id, die := r.1, pa := r.2.1, len := r.2.2, va := b, asid := g.ctx.asid, version := v.toNat, total := n.toNat } },
          s)

/-- Operands of another form (R154, R155). -/
def sealIll (x : Args) : Ill :=
  ⟨[.d, .a, .b], fun _ _ _ l => let (v, b, n) := sealArgs x l; !sealFormOk v b n⟩

def sealCause (x : Args) (s : State) (c : Cur) (_sg : Sig) (_act : List Lane) (l : Lane) : Option Cause :=
  let (v, b, n) := sealArgs x l
  match (s.sealRange (c.source s) l.t v b n).1 with
  | .error e => some (e, b)
  | .ok _ => none

def sealPrep (x : Args) (c : Cur) (act : List Lane) (s : State) : State :=
  match act with
  | [] => s
  | l :: _ =>
    let (v, b, n) := sealArgs x l
    if sealFormOk v b n then (s.sealRange (c.source s) l.t v b n).2 else s

/-- R154: Releases at system scope and marks a range sealed under a version. -/
def execSeal (x : Args) (s : State) : Res :=
  perHome 0x1B8 (sealCause x) (fun _ c act s =>
    match act with
    | [] => s
    | l :: _ =>
      let (v, b, n) := sealArgs x l
      match (s.sealRange (s.wgOf c.wg) l.t v b n).1 with
      | .ok s => s
      | .error _ => s) x s (sealPrep x) (sealIll x) true

/-- The run of a range sealed by one `seal` with these operands (R155). -/
def State.sealOf (s : State) (asid : Nat) (v b n : W64) : Option SealRun :=
  s.seals.find? fun r => r.asid == asid && r.version == v.toNat && r.va == b && r.total == n.toNat

/-- R155: Frees a sealed range's entries and makes it writable. -/
def execUnseal (x : Args) (s : State) : Res :=
  perHome 0x1B9 (fun s c _ _ l =>
      let (v, b, n) := sealArgs x l
      if (s.sealOf (c.source s).ctx.asid v b n).isNone then some (0x11, b)
      else none)
    (fun _ c act s =>
      match act with
      | [] => s
      | l :: _ =>
        let (v, b, n) := sealArgs x l
        match s.sealOf (s.wgOf c.wg).ctx.asid v b n with
        | none => s
        | some r => { s with seals := s.seals.filter fun q => q.id != r.id }) x s (ill := sealIll x)

end Sys2Proof.Machine
end

