-- ==== Sys2Proof/Machine/Sync.lean ====
section
/-! DEFINITION. The meanings of the barrier and channel instructions, opcodes 0x1C0 to 0x1C8 (R158 to R172). What ends a
wait, and the payload of `bar`, is in `Release`. -/

namespace Sys2Proof.Machine

/-- The scalar of a field in the home warp of a lane. -/
def sA (x : Args) (l : Lane) : W64 := l.h.readS x.a.toNat
def sB (x : Args) (l : Lane) : W64 := l.h.readS x.b.toNat

/-! ### Barriers (R160, R162, R163) -/

/-- Each lane takes the cause of its form, else `k`, else the trap it owes, active or not (R139); `eff` is what the others
have. -/
def State.barLanes (s : State) (c : Cur) (op : Nat) (sg : Sig) (x : Args) (k : Option Cause) : State :=
  let src := c.source s
  let base (act : List Lane) (l : Lane) : Option Cause := scalarCause src op sg x c (fun _ _ => k) act l
  s.shared c ((lanesOf s c x.ctl.pfx).map fun l => [l]) (fun _ act l => (base act l).orElse fun _ => l.t.owed) (fun s _ => s)
    (owes := fun _ act l => (base act l).isNone && l.t.owed.isSome)

/-- A thread that issues its `bar` has been released with its payload (R160); otherwise it takes the trap it owes. -/
def execBar (x : Args) (s : State) : Res := issue 0x1C0 x s fun sg c s => s.barLanes c 0x1C0 sg x none

/-- Undeclared, it traps (R163); released, each thread acquires at device scope (R162). -/
def execGbar (x : Args) (s : State) : Res :=
  issue 0x1C1 x s fun sg c s =>
    let s := if c.gathered then s.modCore (c.source s).core fun k => { k with acq := s.hb } else s
    s.barLanes c 0x1C1 sg x (if gbarOk (c.source s) then none else some (0x06, 0))

/-! ### Phase barriers (R164 to R167) -/

/-- The causes of a phase-barrier word at an offset. -/
def wordCause (g : Workgroup) (off : W64) (write : Bool := false) : Option Cause :=
  if off.toNat % 8 ≠ 0 then some (0x15, off)
  else if !g.inSpad off.toNat 8 then some (0x11, off)
  else if g.spadBad off.toNat 8 write then some (0x13, off)
  else none

/-- The log of a word that is uncorrectable (R347). (DESIGN CHOICE, logs 14, 46.) -/
def wordNote (x : Args) (write : Bool) (c : Cur) (act : List Lane) (s : State) : State :=
  match act with
  | [] => s
  | l :: _ =>
    let g := s.wgOf c.wg
    if (wordCause g (sA x l) write).any fun k => k.1 == 0x13 then s.logCore g.core g.ctx.asid 0x13 else s

/-- A count of `mbini` or `mbarv`. -/
def countOk (n : W64) : Bool := decide (1 ≤ n.toNat ∧ n.toNat ≤ 65535)

/-- A count of 0 or above 65,535 (R165). -/
def countIll (x : Args) : Ill := ⟨[.b], fun _ _ _ l => !countOk (sB x l)⟩

/-- The causes of an operation that reads a phase-barrier word: those of its place, then a malformed word (R164). -/
def pbCause (x : Args) (s : State) (c : Cur) (l : Lane) : Option Cause :=
  let g := s.wgOf c.wg
  (wordCause g (sA x l)).orElse fun _ =>
    if pbOk (BitVec.ofNat 64 (g.spadRead (sA x l).toNat 8)) then none else some (illegal c)

def Workgroup.word (g : Workgroup) (off : Nat) : W64 := BitVec.ofNat 64 (g.spadRead off 8)
def Workgroup.setWord (g : Workgroup) (off : Nat) (w : W64) : Workgroup := g.spadWrite off (bytesOfNat w.toNat 8)
def Workgroup.onePass (g : Workgroup) : Workgroup := { g with spass := g.spass + 1 }

/-- R165: an arrival of count `n`: the word after it, and whether there was a surplus. -/
def arriveWord (w : W64) (n : Nat) : W64 × Bool :=
  let exp := bitsNat w 15 0
  let arr := bitsNat w 31 16
  let ph := bitsNat w 32 32
  let sur := bitsNat w 33 33
  let word (arr ph sur : Nat) : W64 := BitVec.ofNat 64 (exp + arr * 2 ^ 16 + ph * 2 ^ 32 + sur * 2 ^ 33)
  if n < exp - arr then (word (arr + n) ph sur, false)
  else if exp - arr < n then (word 0 (1 - ph) 1, true)
  else (word 0 (1 - ph) sur, false)

/-- R165: Initialises a phase-barrier word with an expected count. -/
def execMbini (x : Args) (s : State) : Res :=
  perHome 0x1C2 (fun s c _ _ l => wordCause (s.wgOf c.wg) (sA x l) true)
    (fun _ c act s =>
      match act with
      | [] => s
      | l :: _ => s.modWg c.wg fun g => (g.setWord (sA x l).toNat (sB x l)).onePass) x s (wordNote x true) (countIll x)

/-- R165: Arrives on a phase-barrier word with a count, returning the phase parity. -/
def execMbarv (x : Args) (s : State) : Res :=
  perHome 0x1C3 (fun s c _ _ l => pbCause x s c l)
    (fun _ c act s =>
      match act with
      | [] => s
      | l :: _ => s.modWg c.wg fun g =>
        let off := (sA x l).toNat
        let w := g.word off
        let (w', surplus) := arriveWord w (sB x l).toNat
        let g := ((g.setWord off w').modHw l.hw (·.writeS x.d.toNat (BitVec.ofNat 64 (bitsNat w 32 32)))).onePass
        if surplus && g.hdr.surplus then act.foldl (fun g l => g.trapLane c l.tid (0x05, w')) g else g) x s
    (wordNote x false) (countIll x) true

/-- A lane whose wait is not over has met PH different already, or meets a cause. -/
def execMbwt (x : Args) (s : State) : Res :=
  perHome 0x1C4 (fun s c _ _ l => if l.t.passed c.slot ≠ 0 then none else pbCause x s c l)
    (fun _ c _ s => s.modWg c.wg (·.onePass)) x s
    (fun c act s => wordNote x false c (act.filter fun l => l.t.passed c.slot = 0) s) (waits := true)

/-- R166: Tests without waiting whether the phase has moved on. -/
def execMbtry (x : Args) (s : State) : Res :=
  perHome 0x1C5 (fun s c _ _ l => pbCause x s c l)
    (fun _ c act s =>
      match act with
      | [] => s
      | l :: _ => s.modWg c.wg fun g =>
        let differs := bitAt (g.word (sA x l).toNat) 32 != (sB x l).getLsbD 0
        (g.modHw l.hw (·.writeS x.d.toNat (if differs then 1 else 0))).onePass) x s (wordNote x false)

/-! ### Channels (R168 to R171) -/

/-- R168: a descriptor. -/
def chanOf (d : W64) : Chan :=
  { kind := bitsNat d 1 0, esz := bitsNat d 3 2, ldep := bitsNat d 11 8, src := bitsNat d 15 12, base := bitsNat d 51 32 }

def descOk (d : W64) : Bool :=
  let ch := chanOf d
  (ch.kind == 1 || ch.kind == 2) && ch.esz != 3 && bitsNat d 7 4 == 0 && bitsNat d 31 16 == 0 && bitsNat d 63 52 == 0 &&
  decide (3 ≤ ch.ldep) && (if ch.kind = 1 then ch.src == 0 else ch.esz == 0 && decide (ch.src ≤ 3))

/-- A channel number above 30, or a descriptor of another form (R168). -/
def bindIll (x : Args) : Ill := ⟨[.a, .b], fun _ _ _ l => decide (30 < (sB x l).toNat) || !descOk (sA x l)⟩
def chanIll (x : Args) : Ill := ⟨[.a], fun _ _ _ l => decide (30 < (sA x l).toNat)⟩

/-- R168: Binds a channel to FIFO storage under a descriptor. -/
def execChbind (x : Args) (s : State) : Res :=
  perHome 0x1C6 (fun s c _ _ l =>
      let ch := chanOf (sA x l)
      if ch.base % 16 ≠ 0 then some (0x15, BitVec.ofNat 64 ch.base)
      else if !(c.source s).inSpad ch.base (ch.depth * ch.bytes) then some (0x11, BitVec.ofNat 64 ch.base)
      else none)
    (fun _ c act s =>
      match act with
      | [] => s
      | l :: _ => s.modWg c.wg fun g =>
        let q := (sB x l).toNat
        match Tab.find g.chans q with
        | some _ => g.modHw l.hw (·.writeS x.d.toNat 1)
        | none => { g with chans := Tab.put g.chans q (chanOf (sA x l)) }.modHw l.hw (·.writeS x.d.toNat 0)) x s
    (ill := bindIll x)

/-- R169: the state of a channel. -/
def Chan.stateWord (ch : Chan) : W64 :=
  let n := ch.present
  BitVec.ofNat 64 (ch.kind + ch.esz * 4 + (if n = ch.depth then 16 else 0) + (if n = 0 then 32 else 0) + ch.ldep * 2 ^ 8 +
    ch.src * 2 ^ 12 + n * 2 ^ 16 + ch.base * 2 ^ 32)

/-- A pop or peek of the channel still waits for its element. -/
def Workgroup.chanAwaited (g : Workgroup) (q : Nat) : Bool :=
  let on (y : Src) : Bool := match y with | .elem q' _ => q' == q | .val _ => false
  g.defers.any fun p => p.2.lanes.any fun l => on l.a || on l.b || on l.f

/-- A channel unbound: elements still to be computed for it go nowhere. -/
def Workgroup.unbind (g : Workgroup) (q : Nat) : Workgroup :=
  { g with
    chans := Tab.erase g.chans q
    defers := Tab.map (fun _ d => { d with sinks := d.sinks.map fun k =>
      match k with
      | .elem q' i => .elem (if q' = q then 31 else q') i
      | .reg => .reg }) g.defers }

/-- R171: Unbinds a channel and returns the number of discarded elements. -/
def execChfree (x : Args) (s : State) : Res :=
  perHome 0x1C7 (fun s c _ _ l =>
      if (s.wgOf c.wg).chanAwaited (sA x l).toNat then some (0x11, 0)
      else none)
    (fun _ c act s =>
      match act with
      | [] => s
      | l :: _ => s.modWg c.wg fun g =>
        let n := ((Tab.find g.chans (sA x l).toNat).map Chan.present).getD 0
        (g.unbind (sA x l).toNat).modHw l.hw (·.writeS x.d.toNat (BitVec.ofNat 64 n))) x s (ill := chanIll x)

/-- R169: Reads a channel's state. -/
def execChstat (x : Args) (s : State) : Res :=
  perHome 0x1C8 noCause
    (fun _ c act s =>
      match act with
      | [] => s
      | l :: _ => s.modWg c.wg fun g =>
        g.modHw l.hw (·.writeS x.d.toNat (((Tab.find g.chans (sA x l).toNat).map Chan.stateWord).getD 0))) x s (ill := chanIll x)

end Sys2Proof.Machine
end

