-- ==== Sys2Proof/Decode.lean ====
section
/-! DEFINITION. Decoding and encoding of instruction words (R8 to R17, R38 to R43). The decoder is total: every list
of words gives an instruction or a named reason why there is none, and how many words belong to it. -/

namespace Sys2Proof

/-- Why a word is no instruction. Each of them takes the illegal-encoding trap, code 0x01, when it issues. -/
inductive DecodeErr where
  /-- R17, R40: the opcode is unassigned, or 0x1FF, or 0x000 in a word other than 0. -/
  | unassigned (op : Nat)
  /-- R17, R43, R51: a field that must hold 0 or a listed value does not. -/
  | reservedField (op : Nat)
  /-- R17: OP 0x1FE with C = 0. -/
  | loneWord
  /-- R16: the prefix's own T is 1 or its bits [1:0] are not 0. -/
  | pfxReserved
  /-- R16: a prefix is followed by another. -/
  | pfxPfx
  /-- R11, R16: a prefix stands before a J-format word. -/
  | pfxJ
  /-- R40: a prefix stands before a `nop`. -/
  | pfxNop
  /-- R16: a prefix stands in the last slot of its packet. -/
  | pfxLast
  /-- R13: a literal would lie beyond the third slot. -/
  | literalOut
  deriving DecidableEq, Repr

/-- The format of an opcode (R9); `none` where R39 assigns nothing. -/
inductive Fmt where
  | A | I | M | E | J | none
  deriving DecidableEq, Repr

/-- The format R39 and the encoding tables give each opcode. (DEDUCED, log 22.) -/
def fmtOf (op : Nat) : Fmt :=
  if op < 0x1 then .none else
  if op < 0x18 then .A else
  if op < 0x19 then .M else
  if op < 0x1A then .A else
  if op < 0x22 then .I else
  if op < 0x28 then .A else
  if op < 0x2C then .I else
  if op < 0x30 then .none else
  if op < 0x3B then .M else
  if op < 0x40 then .none else
  if op < 0x41 then .J else
  if op < 0x4D then .A else
  if op < 0x60 then .none else
  if op < 0xA0 then .A else
  if op < 0xA9 then .I else
  if op < 0xB9 then .A else
  if op < 0xC0 then .none else
  if op < 0xCC then .A else
  if op < 0xCD then .none else
  if op < 0xD0 then .I else
  if op < 0xEC then .A else
  if op < 0xF0 then .none else
  if op < 0xFF then .A else
  if op < 0x100 then .none else
  if op < 0x151 then .A else
  if op < 0x180 then .none else
  if op < 0x1A5 then .M else
  if op < 0x1A8 then .A else
  if op < 0x1B0 then .M else
  if op < 0x1B4 then .A else
  if op < 0x1B5 then .M else
  if op < 0x1B6 then .A else
  if op < 0x1B8 then .M else
  if op < 0x1BA then .A else
  if op < 0x1C0 then .none else
  if op < 0x1C1 then .I else
  if op < 0x1C9 then .A else
  if op < 0x1D0 then .none else
  if op < 0x1DA then .A else
  if op < 0x1E0 then .none else
  if op < 0x1ED then .E else
  if op < 0x1F0 then .A else
  if op < 0x1F8 then .none else
  if op < 0x1FD then .I else
  if op < 0x1FE then .A else
  .none
/-- The opcode of a word, bits [29:21] (R8). -/
def opOf (w : W32) : Nat := bitsNat w 29 21
/-- C, bit 31. -/
def chainOf (w : W32) : Bool := bitAt w 31
/-- T, bit 30. -/
def settleOf (w : W32) : Bool := bitAt w 30

/-- The fields of a prefix word (R15). -/
def pfxFields (w : W32) : Pfx :=
  { bs := bitAt w 2, z := bitAt w 3, f := w.extractLsb' 4 7, rnd := w.extractLsb' 11 3, neg := bitAt w 14,
    pred := w.extractLsb' 15 6 }

/-- The fields of a J-format word (R11). -/
def jFields (w : W32) : ArgsJ :=
  { chain := chainOf w, settle := settleOf w, pred := w.extractLsb' 15 6, neg := bitAt w 14,
    off := w.extractLsb' 0 14 }

/-- The instruction, where its fixed fields hold what they must. -/
def need (p : Prop) [Decidable p] (i : Instr) : Option Instr := if p then some i else none

/-- Row 0x00_ of the opcode map (R39). -/
noncomputable def row0x00 (col : Nat) (x : Args) : Option Instr :=
  match col with
  | 1 => some (.sadd x)
  | 2 => some (.ssub x)
  | 3 => some (.smul x)
  | 4 => some (.smulhS64 x)
  | 5 => some (.smulhN64 x)
  | 6 => some (.sdivS64 x)
  | 7 => some (.sdivN64 x)
  | 8 => some (.sremS64 x)
  | 9 => some (.sremN64 x)
  | 10 => some (.sand x)
  | 11 => some (.sor x)
  | 12 => some (.sxor x)
  | 13 => some (.sshl x)
  | 14 => some (.sshr x)
  | 15 => some (.ssra x)
  | _ => none

/-- Row 0x01_ of the opcode map (R39). -/
noncomputable def row0x01 (col : Nat) (x : Args) : Option Instr :=
  match col with
  | 0 => some (.sminS64 x)
  | 1 => some (.sminN64 x)
  | 2 => some (.smaxS64 x)
  | 3 => some (.smaxN64 x)
  | 4 => need (x.a = 0) (.smov x)
  | 5 => some (.ssel x)
  | 6 => need (x.b = 0) (.rdsr x)
  | 7 => need (x.b = 0) (.wrsr x)
  | 8 => some (.sldk x)
  | 9 => need (x.b = 0) (.smovV x)
  | 10 => some (.saddI x)
  | 11 => some (.sandI x)
  | 12 => some (.sorI x)
  | 13 => some (.sxorI x)
  | 14 => some (.sshlI x)
  | 15 => some (.sshrI x)
  | _ => none

/-- Row 0x02_ of the opcode map (R39). -/
noncomputable def row0x02 (col : Nat) (x : Args) : Option Instr :=
  match col with
  | 0 => some (.ssraI x)
  | 1 => need (x.a = 0) (.sli x)
  | 2 => some (.scmpEq x)
  | 3 => some (.scmpNe x)
  | 4 => some (.scmpLtS64 x)
  | 5 => some (.scmpLeS64 x)
  | 6 => some (.scmpLtN64 x)
  | 7 => some (.scmpLeN64 x)
  | 8 => some (.scmpEqI x)
  | 9 => some (.scmpNeI x)
  | 10 => some (.scmpLtS64I x)
  | 11 => some (.scmpLtN64I x)
  | _ => none

/-- Row 0x03_ of the opcode map (R39). -/
noncomputable def row0x03 (col : Nat) (x : Args) : Option Instr :=
  match col with
  | 0 => some (.sldN8 x)
  | 1 => some (.sldS8 x)
  | 2 => some (.sldN16 x)
  | 3 => some (.sldS16 x)
  | 4 => some (.sldN32 x)
  | 5 => some (.sldS32 x)
  | 6 => some (.sldB64 x)
  | 7 => some (.sstN8 x)
  | 8 => some (.sstN16 x)
  | 9 => some (.sstN32 x)
  | 10 => some (.sstB64 x)
  | _ => none

/-- Row 0x04_ of the opcode map (R39). -/
noncomputable def row0x04 (col : Nat) (w : W32) (x : Args) : Option Instr :=
  match col with
  | 0 => some (.br (jFields w))
  | 1 => need (x.d = 0 ∧ x.b = 0) (.bra x)
  | 2 => need (x.d = 0 ∧ x.b = 0) (.brx x)
  | 3 => need (x.a = 0) (.call x)
  | 4 => need (x.d = 0 ∧ x.b = 0) (.ret x)
  | 5 => need (x.a = 0) (.meet x)
  | 6 => need (x.a = 0 ∧ x.b = 0) (.jn x)
  | 7 => need (x.a = 0 ∧ x.b = 0) (.lv x)
  | 8 => need (x.d = 0 ∧ x.a = 0 ∧ x.b = 0) (.exit x)
  | 9 => need (x.d = 0) (.tail x)
  | 10 => need (x.d = 0 ∧ x.b = 0) (.spawn x)
  | 11 => need (x.b = 0) (.elect x)
  | 12 => need (x.d = 0 ∧ x.a = 0 ∧ x.b = 0) (.yield x)
  | _ => none

/-- Row 0x06_ of the opcode map (R39). -/
noncomputable def row0x06 (col : Nat) (x : Args) : Option Instr :=
  match col with
  | 0 => some (.vaddS32 x)
  | 1 => some (.vaddS64 x)
  | 2 => some (.vaddSatS32 x)
  | 3 => some (.vaddSatN32 x)
  | 4 => some (.vsubS32 x)
  | 5 => some (.vsubS64 x)
  | 6 => some (.vsubSatS32 x)
  | 7 => some (.vsubSatN32 x)
  | 8 => some (.vmulS32 x)
  | 9 => some (.vmulS64 x)
  | 10 => some (.vmulhS32 x)
  | 11 => some (.vmulhN32 x)
  | 12 => some (.vmadS32 x)
  | 13 => some (.vmadS64 x)
  | 14 => some (.vadcN32 x)
  | 15 => some (.vsbcN32 x)
  | _ => none

/-- Row 0x07_ of the opcode map (R39). -/
noncomputable def row0x07 (col : Nat) (x : Args) : Option Instr :=
  match col with
  | 0 => some (.vdivS32 x)
  | 1 => some (.vdivN32 x)
  | 2 => some (.vdivS64 x)
  | 3 => some (.vdivN64 x)
  | 4 => some (.vremS32 x)
  | 5 => some (.vremN32 x)
  | 6 => some (.vremS64 x)
  | 7 => some (.vremN64 x)
  | 8 => need (x.a = 0) (.vabsS32 x)
  | 9 => need (x.a = 0) (.vabsS64 x)
  | 10 => need (x.a = 0) (.vnegS32 x)
  | 11 => need (x.a = 0) (.vnegS64 x)
  | 12 => some (.vminS32 x)
  | 13 => some (.vminN32 x)
  | 14 => some (.vmaxS32 x)
  | 15 => some (.vmaxN32 x)
  | _ => none

/-- Row 0x08_ of the opcode map (R39). -/
noncomputable def row0x08 (col : Nat) (x : Args) : Option Instr :=
  match col with
  | 0 => some (.vminS64 x)
  | 1 => some (.vminN64 x)
  | 2 => some (.vmaxS64 x)
  | 3 => some (.vmaxN64 x)
  | 4 => some (.vandB32 x)
  | 5 => some (.vorB32 x)
  | 6 => some (.vxorB32 x)
  | 7 => some (.vandnB32 x)
  | 8 => some (.vandB64 x)
  | 9 => some (.vorB64 x)
  | 10 => some (.vxorB64 x)
  | 11 => some (.vandnB64 x)
  | 12 => some (.vshlB32 x)
  | 13 => some (.vshrB32 x)
  | 14 => some (.vsraB32 x)
  | 15 => some (.vrotB32 x)
  | _ => none

/-- Row 0x09_ of the opcode map (R39). -/
noncomputable def row0x09 (col : Nat) (x : Args) : Option Instr :=
  match col with
  | 0 => some (.vshlB64 x)
  | 1 => some (.vshrB64 x)
  | 2 => some (.vsraB64 x)
  | 3 => some (.vrotB64 x)
  | 4 => need (x.a = 0) (.vclzB32 x)
  | 5 => need (x.a = 0) (.vclzB64 x)
  | 6 => need (x.a = 0) (.vpopcB32 x)
  | 7 => need (x.a = 0) (.vpopcB64 x)
  | 8 => need (x.a = 0) (.vbrevB32 x)
  | 9 => need (x.a = 0) (.vbrevB64 x)
  | 10 => some (.vbfeS32 x)
  | 11 => some (.vbfeN32 x)
  | 12 => some (.vbfiB32 x)
  | 13 => some (.vleaB64 x)
  | 14 => need (x.a = 0) (.vmovB32 x)
  | 15 => need (x.a = 0) (.vmovB64 x)
  | _ => none

/-- Row 0x0A_ of the opcode map (R39). -/
noncomputable def row0x0A (col : Nat) (x : Args) : Option Instr :=
  match col with
  | 0 => some (.vaddS32I x)
  | 1 => some (.vandB32I x)
  | 2 => some (.vorB32I x)
  | 3 => some (.vxorB32I x)
  | 4 => some (.vshlB32I x)
  | 5 => some (.vshrB32I x)
  | 6 => some (.vsraB32I x)
  | 7 => some (.vrotB32I x)
  | 8 => need (x.a = 0) (.vliB32 x)
  | 9 => some (.vselB32 x)
  | 10 => some (.vselB64 x)
  | 11 => need (x.a = 0) (.vcvtS32S8 x)
  | 12 => need (x.a = 0) (.vcvtS32S16 x)
  | 13 => need (x.a = 0) (.vcvtN32N8 x)
  | 14 => need (x.a = 0) (.vcvtN32N16 x)
  | 15 => need (x.a = 0) (.vcvtS64S32 x)
  | _ => none

/-- Row 0x0B_ of the opcode map (R39). -/
noncomputable def row0x0B (col : Nat) (x : Args) : Option Instr :=
  match col with
  | 0 => need (x.a = 0) (.vcvtN64N32 x)
  | 1 => need (x.a = 0) (.vcvtS8S32 x)
  | 2 => need (x.a = 0) (.vcvtS16S32 x)
  | 3 => need (x.a = 0) (.vcvtN8N32 x)
  | 4 => need (x.a = 0) (.vcvtN16N32 x)
  | 5 => need (x.a = 0) (.vcvtS32S64 x)
  | 6 => need (x.a = 0) (.vcvtN32N64 x)
  | 7 => need (x.a = 0) (.vcvtS32N32 x)
  | 8 => need (x.a = 0) (.vcvtN32S32 x)
  | _ => none

/-- Row 0x0C_ of the opcode map (R39). -/
noncomputable def row0x0C (col : Nat) (x : Args) : Option Instr :=
  match col with
  | 0 => some (.vcmpEqB32 x)
  | 1 => some (.vcmpNeB32 x)
  | 2 => some (.vcmpLtS32 x)
  | 3 => some (.vcmpLeS32 x)
  | 4 => some (.vcmpLtN32 x)
  | 5 => some (.vcmpLeN32 x)
  | 6 => some (.vcmpEqB64 x)
  | 7 => some (.vcmpNeB64 x)
  | 8 => some (.vcmpLtS64 x)
  | 9 => some (.vcmpLeS64 x)
  | 10 => some (.vcmpLtN64 x)
  | 11 => some (.vcmpLeN64 x)
  | 13 => some (.vcmpEqB32I x)
  | 14 => some (.vcmpLtS32I x)
  | 15 => some (.vcmpLtN32I x)
  | _ => none

/-- Row 0x0D_ of the opcode map: `plop` with its truth table in the opcode (R108). -/
noncomputable def row0x0D (col : Nat) (x : Args) : Option Instr := some (.plop (BitVec.ofNat 4 col) x)

/-- Row 0x0E_ of the opcode map (R39). -/
noncomputable def row0x0E (col : Nat) (x : Args) : Option Instr :=
  match col with
  | 0 => some (.xshfB32 x)
  | 1 => some (.xshuB32 x)
  | 2 => some (.xshdB32 x)
  | 3 => some (.xbflB32 x)
  | 4 => need (x.b = 0) (.xvoteAny x)
  | 5 => need (x.b = 0) (.xvoteAll x)
  | 6 => need (x.b = 0) (.xvoteBal x)
  | 7 => need (x.b = 0) (.xmatchB32 x)
  | 8 => some (.xbcastB32 x)
  | 9 => some (.xshfB64 x)
  | 10 => some (.xbcastB64 x)
  | 11 => need (x.b = 0) (.xmatchB64 x)
  | _ => none

/-- Row 0x0F_ of the opcode map (R39). -/
noncomputable def row0x0F (col : Nat) (x : Args) : Option Instr :=
  match col with
  | 0 => need (x.b = 0) (.xredAddS32 x)
  | 1 => need (x.b = 0) (.xredMinS32 x)
  | 2 => need (x.b = 0) (.xredMaxS32 x)
  | 3 => need (x.b = 0) (.xredMinN32 x)
  | 4 => need (x.b = 0) (.xredMaxN32 x)
  | 5 => need (x.b = 0) (.xredAndB32 x)
  | 6 => need (x.b = 0) (.xredOrB32 x)
  | 7 => need (x.b = 0) (.xredXorB32 x)
  | 8 => need (x.b = 0) (.xredAddS64 x)
  | 9 => need (x.b = 0) (.xscanAddS32 x)
  | 10 => need (x.b = 0) (.xscanAddxS32 x)
  | 11 => need (x.b = 0) (.xscanMinS32 x)
  | 12 => need (x.b = 0) (.xscanMaxS32 x)
  | 13 => need (x.b = 0) (.xscanOrB32 x)
  | 14 => need (x.b = 0) (.xscanAddxS64 x)
  | _ => none

/-- Row 0x10_ of the opcode map (R39). -/
noncomputable def row0x10 (col : Nat) (x : Args) : Option Instr :=
  match col with
  | 0 => some (.ffmaF32 x)
  | 1 => some (.faddF32 x)
  | 2 => some (.fsubF32 x)
  | 3 => some (.fmulF32 x)
  | 4 => some (.fminF32 x)
  | 5 => some (.fmaxF32 x)
  | 6 => some (.fminnF32 x)
  | 7 => some (.fmaxnF32 x)
  | 8 => need (x.a = 0) (.fabsF32 x)
  | 9 => need (x.a = 0) (.fnegF32 x)
  | 10 => some (.fcpsF32 x)
  | 11 => need (x.a = 0) (.fclassF32 x)
  | 12 => need (x.a = 0) (.frndF32 x)
  | 13 => some (.fsclF32 x)
  | 14 => need (x.a = 0) (.fgetxF32 x)
  | 15 => some (.fdot2F32H2 x)
  | _ => none

/-- Row 0x11_ of the opcode map (R39). -/
noncomputable def row0x11 (col : Nat) (x : Args) : Option Instr :=
  match col with
  | 0 => some (.ffmaH2 x)
  | 1 => some (.faddH2 x)
  | 2 => some (.fsubH2 x)
  | 3 => some (.fmulH2 x)
  | 4 => some (.fminH2 x)
  | 5 => some (.fmaxH2 x)
  | 6 => some (.fminnH2 x)
  | 7 => some (.fmaxnH2 x)
  | 8 => need (x.a = 0) (.fabsH2 x)
  | 9 => need (x.a = 0) (.fnegH2 x)
  | 10 => some (.fcpsH2 x)
  | 11 => need (x.a = 0) (.fclassH2 x)
  | 12 => need (x.a = 0) (.frndH2 x)
  | 13 => some (.fsclH2 x)
  | 14 => need (x.a = 0) (.fgetxH2 x)
  | 15 => some (.fdot2F32Bh2 x)
  | _ => none

/-- Row 0x12_ of the opcode map (R39). -/
noncomputable def row0x12 (col : Nat) (x : Args) : Option Instr :=
  match col with
  | 0 => some (.ffmaBh2 x)
  | 1 => some (.faddBh2 x)
  | 2 => some (.fsubBh2 x)
  | 3 => some (.fmulBh2 x)
  | 4 => some (.fminBh2 x)
  | 5 => some (.fmaxBh2 x)
  | 6 => some (.fminnBh2 x)
  | 7 => some (.fmaxnBh2 x)
  | 8 => need (x.a = 0) (.fabsBh2 x)
  | 9 => need (x.a = 0) (.fnegBh2 x)
  | 10 => some (.fcpsBh2 x)
  | 11 => need (x.a = 0) (.fclassBh2 x)
  | 12 => need (x.a = 0) (.frndBh2 x)
  | 13 => some (.fsclBh2 x)
  | 14 => need (x.a = 0) (.fgetxBh2 x)
  | 15 => some (.fdot4F32Q8 x)
  | _ => none

/-- Row 0x13_ of the opcode map (R39). -/
noncomputable def row0x13 (col : Nat) (x : Args) : Option Instr :=
  match col with
  | 0 => some (.fcmpEqF32 x)
  | 1 => some (.fcmpNeF32 x)
  | 2 => some (.fcmpLtF32 x)
  | 3 => some (.fcmpLeF32 x)
  | 4 => some (.fcmpUnF32 x)
  | 5 => some (.fcmpOrdF32 x)
  | 6 => need (x.a = 0) (.fcvtF32F16 x)
  | 7 => need (x.a = 0) (.fcvtF32Bf16 x)
  | 8 => some (.fcvtH2F32 x)
  | 9 => some (.fcvtBh2F32 x)
  | 10 => some (.fcvtF32Q8 x)
  | 11 => some (.fcvtQ8F32 x)
  | 12 => need (x.a = 0) (.fcvtiS32F32 x)
  | 13 => need (x.a = 0) (.fcvtiN32F32 x)
  | 14 => need (x.a = 0) (.fcvtfF32S32 x)
  | 15 => need (x.a = 0) (.fcvtfF32N32 x)
  | _ => none

/-- Row 0x14_ of the opcode map (R39). -/
noncomputable def row0x14 (col : Nat) (x : Args) : Option Instr :=
  match col with
  | 0 => need (x.a = 0) (.fcvtiS64F32 x)
  | 1 => need (x.a = 0) (.fcvtiN64F32 x)
  | 2 => need (x.a = 0) (.fcvtfF32S64 x)
  | 3 => need (x.a = 0) (.fcvtfF32N64 x)
  | 4 => some (.fqntQ8F32 x)
  | 5 => some (.fdqntF32Q8 x)
  | 6 => need (x.a = 0) (.fsqrtF32 x)
  | 7 => need (x.a = 0) (.frcpF32 x)
  | 8 => need (x.a = 0) (.frsqF32 x)
  | 9 => need (x.a = 0) (.fex2F32 x)
  | 10 => need (x.a = 0) (.flg2F32 x)
  | 11 => need (x.a = 0) (.fsinF32 x)
  | 12 => need (x.a = 0) (.fcosF32 x)
  | 13 => need (x.a = 0) (.ftnhF32 x)
  | 14 => need (x.a = 0) (.ftabF32 x)
  | 15 => need (x.d = 0 ∧ x.b = 0) (.ldtab x)
  | _ => none

/-- Row 0x15_ of the opcode map (R39). -/
noncomputable def row0x15 (col : Nat) (x : Args) : Option Instr :=
  match col with
  | 0 => need (x.d = 0 ∧ x.a = 0 ∧ x.b = 0) (.swtab x)
  | _ => none

/-- Row 0x18_ of the opcode map (R39). -/
noncomputable def row0x18 (col : Nat) (x : Args) : Option Instr :=
  match col with
  | 0 => some (.ldN8 x)
  | 1 => some (.ldS8 x)
  | 2 => some (.ldN16 x)
  | 3 => some (.ldS16 x)
  | 4 => some (.ldB32 x)
  | 5 => some (.ldB64 x)
  | 6 => some (.ldB128 x)
  | 7 => some (.ldB32S x)
  | 8 => some (.ldB64S x)
  | 9 => some (.ldB128S x)
  | 10 => need (x.b &&& 0x60 = 0) (.ldB32Q x)
  | 11 => need (x.b &&& 0x60 = 0) (.ldB64Q x)
  | 12 => some (.stN8 x)
  | 13 => some (.stN16 x)
  | 14 => some (.stB32 x)
  | 15 => some (.stB64 x)
  | _ => none

/-- Row 0x19_ of the opcode map (R39). -/
noncomputable def row0x19 (col : Nat) (x : Args) : Option Instr :=
  match col with
  | 0 => some (.stB128 x)
  | 1 => some (.stB32S x)
  | 2 => some (.stB64S x)
  | 3 => some (.stB128S x)
  | 4 => need (x.b &&& 0x70 = 0) (.stB32Q x)
  | 5 => need (x.b &&& 0x70 = 0) (.stB64Q x)
  | 6 => some (.ldsN8 x)
  | 7 => some (.ldsS8 x)
  | 8 => some (.ldsN16 x)
  | 9 => some (.ldsS16 x)
  | 10 => some (.ldsB32 x)
  | 11 => some (.ldsB64 x)
  | 12 => some (.ldsB128 x)
  | 13 => some (.stsN8 x)
  | 14 => some (.stsN16 x)
  | 15 => some (.stsB32 x)
  | _ => none

/-- Row 0x1A_ of the opcode map (R39). -/
noncomputable def row0x1A (col : Nat) (x : Args) : Option Instr :=
  match col with
  | 0 => some (.stsB64 x)
  | 1 => some (.stsB128 x)
  | 2 => some (.ldncB32 x)
  | 3 => some (.ldncB64 x)
  | 4 => some (.ldncB128 x)
  | 5 => some (.ldvB32 x)
  | 6 => some (.ldvB64 x)
  | 7 => some (.ldvB128 x)
  | 8 => need (x.d = 0) (.pf x)
  | 9 => some (.amoB32 x)
  | 10 => some (.amoB64 x)
  | 11 => some (.amosB32 x)
  | 12 => some (.amosB64 x)
  | 13 => some (.redN8 x)
  | 14 => some (.redB32 x)
  | 15 => some (.redB64 x)
  | _ => none

/-- Row 0x1B_ of the opcode map (R39). -/
noncomputable def row0x1B (col : Nat) (x : Args) : Option Instr :=
  match col with
  | 0 => some (.redwF32 x)
  | 1 => some (.redwS32 x)
  | 2 => some (.wfinF32 x)
  | 3 => some (.wfinS64 x)
  | 4 => need (x.a = 0 ∧ x.b &&& 0x70 = 0) (.fence x)
  | 5 => need (x.d = 0 ∧ x.a = 0 ∧ x.b = 0) (.fsc x)
  | 6 => need (x.b &&& 0x60 = 0) (.waddrB32 x)
  | 7 => need (x.b &&& 0x60 = 0) (.waddrB64 x)
  | 8 => some (.seal x)
  | 9 => some (.unseal x)
  | _ => none

/-- Row 0x1C_ of the opcode map (R39). -/
noncomputable def row0x1C (col : Nat) (x : Args) : Option Instr :=
  match col with
  | 0 => need (x.b &&& 0x60 = 0) (.bar x)
  | 1 => need (x.d = 0 ∧ x.a = 0 ∧ x.b = 0) (.gbar x)
  | 2 => need (x.d = 0) (.mbini x)
  | 3 => some (.mbarv x)
  | 4 => need (x.d = 0) (.mbwt x)
  | 5 => some (.mbtry x)
  | 6 => some (.chbind x)
  | 7 => need (x.b = 0) (.chfree x)
  | 8 => need (x.b = 0) (.chstat x)
  | _ => none

/-- Row 0x1D_ of the opcode map (R39). -/
noncomputable def row0x1D (col : Nat) (x : Args) : Option Instr :=
  match col with
  | 0 => some (.mst x)
  | 1 => need (x.d = 0 ∧ x.b = 0) (.mflip x)
  | 2 => some (.mma x)
  | 3 => some (.mmas x)
  | 4 => need (x.a = 0 ∧ x.b = 0) (.mzero x)
  | 5 => need (x.b &&& 0x7c = 0) (.mdr x)
  | 6 => need (x.b &&& 0x60 = 0) (.mdrv x)
  | 7 => need (x.a = 0 ∧ x.b = 0) (.mbyp x)
  | 8 => need (x.b = 0) (.mvote x)
  | 9 => need (x.b = 0) (.mstat x)
  | _ => none

/-- Row 0x1E_ of the opcode map (R39). -/
noncomputable def row0x1E (col : Nat) (x : Args) : Option Instr :=
  match col with
  | 0 => some (.cpy x)
  | 1 => some (.cpyg x)
  | 2 => some (.cpys x)
  | 3 => some (.cpyf x)
  | 4 => some (.ceIns x)
  | 5 => some (.ceQry x)
  | 6 => some (.ceAcc x)
  | 7 => some (.ceMap x)
  | 8 => some (.ceClr x)
  | 9 => some (.ceSeal x)
  | 10 => some (.tg x)
  | 11 => some (.scnz x)
  | 12 => some (.sctk x)
  | 13 => need (x.d = 0 ∧ x.b = 0) (.erel x)
  | 14 => need (x.d = 0 ∧ x.b = 0) (.ecan x)
  | 15 => need (x.b = 0) (.estat x)
  | _ => none

/-- Row 0x1F_ of the opcode map (R39). -/
noncomputable def row0x1F (col : Nat) (x : Args) : Option Instr :=
  match col with
  | 8 => need (x.d = 0 ∧ x.a = 0) (.trap x)
  | 9 => need (x.d = 0 ∧ x.a = 0) (.brk x)
  | 10 => (((need (x.d = 0 ∧ x.a = 0 ∧ x.b = 0) (.sret x)).or (need (x.d = 0 ∧ x.a = 0 ∧ x.b = 1) (.rply x))).or (need (x.d = 0 ∧ x.a = 0 ∧ x.b = 2) (.park x))).or (need (x.d = 0 ∧ x.a = 0 ∧ x.b = 3) (.rst x))
  | 11 => (need (x.a = 0 ∧ x.b = 0) (.flane x)).or (need (x.b = 1) (.perf x))
  | 12 => (need (x.b = 0) (.rdpr x)).or (need (x.b = 1) (.wrpr x))
  | 13 => need (x.d = 0) (.tlbi x)
  | _ => none
/-- The map of R39: the instruction of opcode `op` with fields `x`, read from word `w`. -/
noncomputable def ofOp (op : Nat) (w : W32) (x : Args) : Option Instr :=
  match op / 16 with
  | 0 => row0x00 (op % 16) x
  | 1 => row0x01 (op % 16) x
  | 2 => row0x02 (op % 16) x
  | 3 => row0x03 (op % 16) x
  | 4 => row0x04 (op % 16) w x
  | 6 => row0x06 (op % 16) x
  | 7 => row0x07 (op % 16) x
  | 8 => row0x08 (op % 16) x
  | 9 => row0x09 (op % 16) x
  | 10 => row0x0A (op % 16) x
  | 11 => row0x0B (op % 16) x
  | 12 => row0x0C (op % 16) x
  | 13 => row0x0D (op % 16) x
  | 14 => row0x0E (op % 16) x
  | 15 => row0x0F (op % 16) x
  | 16 => row0x10 (op % 16) x
  | 17 => row0x11 (op % 16) x
  | 18 => row0x12 (op % 16) x
  | 19 => row0x13 (op % 16) x
  | 20 => row0x14 (op % 16) x
  | 21 => row0x15 (op % 16) x
  | 24 => row0x18 (op % 16) x
  | 25 => row0x19 (op % 16) x
  | 26 => row0x1A (op % 16) x
  | 27 => row0x1B (op % 16) x
  | 28 => row0x1C (op % 16) x
  | 29 => row0x1D (op % 16) x
  | 30 => row0x1E (op % 16) x
  | 31 => row0x1F (op % 16) x
  | _ => none

/-- What the words at one place of a packet are: how many of them belong together, the C bit that governs the word
after them, their T bit, the opcode and fields of the instruction word, and what already makes it no instruction. -/
structure Layout where
  size : Nat
  chain : Bool
  settle : Bool
  /-- the instruction word itself. -/
  w : W32
  x : Args
  err : Option DecodeErr
  deriving DecidableEq, Repr

/-- Takes a literal word where one is claimed (R13). -/
def takeLit (claim : Bool) (ws : List W32) : Option (Option W32 × List W32) :=
  if claim then
    match ws with
    | [] => none
    | l :: rest => some (some l, rest)
  else some (none, ws)

/-- The literals of fields A, B and F in that order, and the words after them (R13). (DEDUCED, log 16.) -/
def takeLits (ca cb cf : Bool) (ws : List W32) : Option ((Option W32 × Option W32 × Option W32) × List W32) := do
  let (la, ws) ← takeLit ca ws
  let (lb, ws) ← takeLit cb ws
  let (lf, ws) ← takeLit cf ws
  return ((la, lb, lf), ws)

/-- Whether format `f` has a field A that can claim a literal (R13). -/
def Fmt.claimsA : Fmt → Bool
  | .A | .I | .M | .E => true
  | .J | .none => false
/-- Whether format `f` has a field B that can claim a literal (R13). -/
def Fmt.claimsB : Fmt → Bool
  | .A | .E => true
  | .I | .M | .J | .none => false

/-- Whether the words are no instruction whatever the fields say: the prefix's reserved bits (R16), what a prefix
cannot modify (R40), and words that are no instruction (R17, R40). -/
def layoutErr (pw : Option W32) (w : W32) : Option DecodeErr :=
  match pw with
  | some p =>
    if settleOf p ∨ bitsNat p 1 0 ≠ 0 then some .pfxReserved
    else if w = 0 then some .pfxNop
    else if opOf w = 0x1FE then some .pfxPfx
    else if fmtOf (opOf w) = .J then some .pfxJ
    else if fmtOf (opOf w) = .none then some (.unassigned (opOf w))
    else none
  | none =>
    if w = 0 then none
    else if opOf w = 0x1FE then some .loneWord
    else if fmtOf (opOf w) = .none then some (.unassigned (opOf w))
    else none

/-- The fields of word `w` with the prefix and the literals around it (R9, R13, R15). -/
def argsOf (pw : Option W32) (w : W32) (la lb lf : Option W32) : Args :=
  { ctl := { chain := chainOf w, settle := settleOf w, pfx := pw.map pfxFields, la, lb, lf },
    d := w.extractLsb' 14 7, a := w.extractLsb' 7 7, b := w.extractLsb' 0 7 }

/-- The instruction word `w`, with the prefix word before it if there is one, and the words after it.
(DEDUCED, log 22.) -/
def layoutBody (pw : Option W32) (w : W32) (rest : List W32) : Layout × List W32 :=
  let n := pw.toList.length + 1
  let f := fmtOf (opOf w)
  let x := argsOf pw w none none none
  match takeLits (f.claimsA && x.a == litField) (f.claimsB && x.b == litField)
      ((x.ctl.pfx.map (·.f)).getD 0 == litField) rest with
  | none =>
    ({ size := n + rest.length, chain := false, settle := settleOf w, w, x, err := some .literalOut }, [])
  | some ((la, lb, lf), rest') =>
    ({ size := n + (rest.length - rest'.length), chain := chainOf w, settle := settleOf w, w,
       x := argsOf pw w la lb lf, err := layoutErr pw w }, rest')

/-- The words of the first instruction of the remaining words of a packet, and the words after it. Of a prefix before a
prefix, the first word alone is illegal (R16). (DEDUCED, log 109.) -/
def layoutOne : List W32 → Option (Layout × List W32)
  | [] => none
  | w :: rest =>
    if opOf w = 0x1FE ∧ chainOf w then
      match rest with
      | [] => some ({ size := 1, chain := true, settle := false, w, x := argsOf none w none none none,
                      err := some .pfxLast }, [])
      | w' :: rest' =>
        if opOf w' = 0x1FE ∧ chainOf w' then
          some ({ size := 1, chain := true, settle := false, w, x := argsOf none w none none none,
                  err := some .pfxPfx }, w' :: rest')
        else some (layoutBody (some w) w' rest')
    else some (layoutBody none w rest)

/-- The instruction of one layout, or the reason why there is none. Not compiled, because Lean's runtime holds at most
244 constructors with fields; Lean's kernel evaluates it like every other definition here. -/
noncomputable def Layout.instr (l : Layout) : Except DecodeErr Instr :=
  match l.err with
  | some e => .error e
  | none =>
    if l.w = 0 then .ok .nop
    else
      match ofOp (opOf l.w) l.w l.x with
      | some i => .ok i
      | none => .error (.reservedField (opOf l.w))

/-- The first instruction of the words, and the words after it. -/
noncomputable def decode (ws : List W32) : Option (Except DecodeErr Instr × List W32) :=
  (layoutOne ws).map fun p => (p.1.instr, p.2)

/-- The words of a byte string, little-endian (R8). -/
def wordsOfBytes : List Byte → List W32
  | b0 :: b1 :: b2 :: b3 :: rest => (b3 ++ b2 ++ b1 ++ b0) :: wordsOfBytes rest
  | _ => []

/-- The bytes of a word, little-endian (R8). -/
def bytesOfWord (w : W32) : List Byte :=
  [w.extractLsb' 0 8, w.extractLsb' 8 8, w.extractLsb' 16 8, w.extractLsb' 24 8]

/-- The first instruction of a byte string. -/
noncomputable def decodeBytes (bs : List Byte) : Option (Except DecodeErr Instr × List W32) :=
  decode (wordsOfBytes bs)

/-- The instruction the decoder reads where the bits of `w` stand, the words after them being 0. -/
noncomputable def decodeTableWord (nbits w : Nat) : Option Instr :=
  let w := w % 2 ^ nbits
  match decode [BitVec.ofNat 32 w, BitVec.ofNat 32 (w >>> 32), BitVec.ofNat 32 (w >>> 64)] with
  | some (.ok i, _) => some i
  | _ => none

/-! ### The encoder -/

/-- The word of a prefix (R15). -/
def Pfx.encode (p : Pfx) : W32 :=
  (1 : BitVec 1) ++ (0 : BitVec 1) ++ (0x1FE : BitVec 9) ++ p.pred ++ BitVec.ofBool p.neg ++ p.rnd ++ p.f ++
    BitVec.ofBool p.z ++ BitVec.ofBool p.bs ++ (0 : BitVec 2)

/-- A word of format A, I, M or E (R9). -/
def Args.word (op : Nat) (x : Args) : W32 :=
  BitVec.ofBool x.ctl.chain ++ BitVec.ofBool x.ctl.settle ++ BitVec.ofNat 9 op ++ x.d ++ x.a ++ x.b

/-- A word of format J (R11). -/
def ArgsJ.word (op : Nat) (x : ArgsJ) : W32 :=
  BitVec.ofBool x.chain ++ BitVec.ofBool x.settle ++ BitVec.ofNat 9 op ++ x.pred ++ BitVec.ofBool x.neg ++ x.off

/-- The words of an instruction: prefix, word, literals A, B, F. A step of the device has no words. -/
def encode (i : Instr) : List W32 :=
  match i with
  | .nop => [0]
  | .br x => [x.word 0x40]
  | _ =>
    match i.args? with
    | some x =>
      (x.ctl.pfx.map Pfx.encode).toList ++ [x.word i.op] ++ x.ctl.la.toList ++ x.ctl.lb.toList ++ x.ctl.lf.toList
    | none => []

/-- Whether an instruction has a word at all (R39); the device's steps have none. -/
def Instr.isWord (i : Instr) : Bool :=
  match i with
  | .nop => true
  | .br _ => true
  | _ => i.args?.isSome

end Sys2Proof
end

