-- ==== Sys2Proof/Machine/Control.lean ====
section
/-! DEFINITION. The meanings of branches, meetings, `elect`, and of the instructions that end, replace and start work,
opcodes 0x040 to 0x04C (R84 to R97). -/

namespace Sys2Proof.Machine

/-! ### Branches (R84 to R86) -/

/-- A thread continues at slot 0 of a packet. -/
def State.jump (s : State) (c : Cur) (tid pkt : Nat) : State :=
  s.modWg c.wg fun g => g.modThread tid fun t => { t with pc := ⟨pkt, 0⟩ }

/-- Packet `pkt` plus a signed offset, as an unsigned 64-bit index: one below 0 lies beyond every code length. -/
def branchTarget (pkt : Nat) (off : BitVec 14) : Nat := (BitVec.ofNat 64 pkt + off.signExtend 64).toNat

/-- What a lane meets at a `br`: a predicate above p47, one that is pending or cannot be read. -/
def brCause (c : Cur) (x : ArgsJ) (t : Thread) : Option Cause :=
  if 47 < x.pred.toNat then some (illegal c)
  else if t.pending.contains (.p x.pred.toNat) then some (hazard c)
  else if t.spoilt.contains (.p x.pred.toNat) then some (0x13, 0)
  else none

/-- R85: taken in each thread where the predicate XOR NEG is 1. -/
def execBr (x : ArgsJ) (s : State) : Res :=
  onGroup s fun c =>
    (lanesOf s c none).foldl (fun s l =>
      match brCause c x l.t with
      | some k => s.modWg c.wg (·.trapLane c l.tid k)
      | none =>
        if l.t.readP x.pred.toNat != x.neg then s.jump c l.tid (branchTarget c.pc.pkt x.off) else s) s

/-- R85: Branch to the absolute packet index in a scalar register. -/
def execBra (x : Args) (s : State) : Res :=
  perLane 0x041 noLaneCause (fun _ c l s => s.jump c l.tid (l.h.readS x.a.toNat).toNat) x s
/-- R85: Per-lane branch to the packet index in a vector register. -/
def execBrx (x : Args) (s : State) : Res :=
  perLane 0x042 noLaneCause (fun _ c l s => s.jump c l.tid (l.t.readV x.a.toNat).toNat) x s
/-- The link is written before the branch. -/
def execCall (x : Args) (s : State) : Res :=
  perLane 0x043 noLaneCause (fun sg c l s =>
    (s.modWg c.wg fun g => g.modThread l.tid (·.writeV x.d.toNat (BitVec.ofNat 32 (c.pc.pkt + 1)))).jump c l.tid
      (scalarField 0x043 sg x l .b).toNat) x s
/-- R85: Branches per lane to the link in a vector register. -/
def execRet (x : Args) (s : State) : Res :=
  perLane 0x044 noLaneCause (fun _ c l s => s.jump c l.tid (l.t.readV x.a.toNat).toNat) x s

/-! ### Meetings (R87 to R91) -/

/-- Packets of the code a thread runs: of its kernel, or of the privileged handler. -/
def Workgroup.codeLen (g : Workgroup) (t : Thread) : Nat := if t.priv then g.fhLen else g.hdr.len

/-- R88. (DEDUCED, log 15.) -/
def execMeet (x : Args) (s : State) : Res :=
  perLane 0x045 (fun s c sg l =>
      let g := c.source s
      let a := scalarField 0x045 sg x l .b
      if l.t.depth = g.hdr.depth then some (0x04, a)
      else if 2 ^ 27 ≤ a.toNat ∨ g.codeLen l.t ≤ a.toNat then some (illegal c)
      else none)
    (fun sg c l s =>
      let a := (scalarField 0x045 sg x l .b).toNat
      s.modWg c.wg fun g => (g.modThread l.tid fun t =>
        { t with entries := Tab.set 0 t.entries t.depth t.meet, depth := t.depth + 1,
                 meet := meetWord a x.d.toNat }).modHw l.hw (·.setK x.d.toNat l.lane true)) x s

/-- R90. -/
def execJn (x : Args) (s : State) : Res :=
  perLane 0x046 noLaneCause (fun _ c l s => s.modWg c.wg (·.modHw l.hw (·.setK x.d.toNat l.lane true))) x s
/-- R90: Clears the issuing thread's own bit in a mask register. -/
def execLv (x : Args) (s : State) : Res :=
  perLane 0x047 noLaneCause (fun _ c l s => s.modWg c.wg (·.modHw l.hw (·.setK x.d.toNat l.lane false))) x s

/-! ### Ending and replacing (R94, R95) -/

/-- R94: Settles and ends each active thread, clearing its mask bits. -/
def execExit (x : Args) (s : State) : Res :=
  perLane 0x048 noLaneCause (fun _ c l s => s.modWg c.wg (·.endThread l.tid false)) x s (waits := true)

/-- The successor is recorded; what it needs is checked when the workgroup ends. -/
def execTail (x : Args) (s : State) : Res :=
  perLane 0x049 noLaneCause (fun _ c l s => s.modWg c.wg fun g =>
    let g := g.endThread l.tid true
    { g with tails := g.tails ++ [⟨l.h.readS x.a.toNat, l.h.readS x.b.toNat⟩] }) x s (waits := true)

/-! ### Starting (R96) -/

/-- The block at a virtual address lies in a table of a context (R249); the registered base is an address of that
context. (DEDUCED, log 38.) -/
def State.tableFor (s : State) (ctx : Ctx) (va : Nat) : Option RTable :=
  (s.tables.find? fun p =>
    decide (p.2.ctx.asid = ctx.asid ∧ p.2.ctx.root = ctx.root ∧ p.2.base ≤ va ∧ va < p.2.base + p.2.len)).map Prod.snd

/-- Its block may be armed: the table takes arming writes (R415). -/
def State.inTable (s : State) (ctx : Ctx) (va : Nat) : Bool := (s.tableFor ctx va).any fun t => !t.deregistering

/-- A word of the state table of a block. -/
def State.blockState (s : State) (pa : Nat) : Nat := s.natAt pa 4

def spawnCause (x : Args) (s : State) (c : Cur) (_sg : Sig) (_act : List Lane) (l : Lane) : Option Cause :=
  let g := c.source s
  let va := l.h.readS x.a.toNat
  match addrCause va 256 with
  | some e => some e
  | none =>
    match (s.reach g l.t true va).1 with
    | .error e => some e
    | .ok pa =>
      if !s.inTable g.ctx va.toNat ∨ s.blockState pa ≠ 0 then some (0x11, va)
      else if s.isBad pa then some (0x13, va)
      else none

/-- The translation of the block's address is installed. -/
def spawnPrep (x : Args) (c : Cur) (act : List Lane) (s : State) : State :=
  match act with
  | [] => s
  | l :: _ =>
    let va := l.h.readS x.a.toNat
    if (addrCause va 256).isSome then s
    else
      match s.reach (c.source s) l.t true va with
      | (.error _, s) => s
      | (.ok pa, s) =>
        let g := s.wgOf c.wg
        if !s.inTable g.ctx va.toNat ∨ s.blockState pa ≠ 0 then s.logFault g.core g.ctx.asid pa 1 3 0x11
        else if s.isBad pa then s.logBad g.core g.ctx.asid pa else s

/-- The release is over (R96): the block is armed at its home and the Hearth signalled. -/
def execSpawn (x : Args) (s : State) : Res :=
  perHome 0x04A (spawnCause x) (fun _ c act s =>
    match act with
    | [] => s
    | l :: _ =>
      match s.reach (s.wgOf c.wg) l.t true (l.h.readS x.a.toNat) with
      | (.error _, s) => s
      | (.ok pa, s) =>
        let s := s.applyNow pa (bytesOfNat 1 4)
        match s.tableFor (s.wgOf c.wg).ctx (l.h.readS x.a.toNat).toNat with
        | some t => s.arm t pa
        | none => s) x s (spawnPrep x) (waits := true)

/-! ### Choosing one thread, and giving way (R93, R97) -/

/-- R93: a lane waited at the `elect`. -/
def electWaited (c : Cur) (k : Nat) (l : Lane) : Bool := c.gathered || l.h.bitK k l.lane

/-- The predicate of a lane: 1 in the lowest active waiting lane of its home warp. -/
def electWins (c : Cur) (k : Nat) (ls : List Lane) (l : Lane) : Bool :=
  (ls.find? fun m => m.hw = l.hw && m.act && electWaited c k m).any fun m => m.tid = l.tid

/-- R93: Meeting operation that gives 1 to the lowest active waiting thread. -/
def execElect (x : Args) (s : State) : Res :=
  issue 0x04B x s fun sg c s =>
    let src := c.source s
    let ls := lanesOf s c x.ctl.pfx
    let good := ls.filter fun l => (formCause src 0x04B sg x 0 c l).isNone
    s.shared c (ls.map fun l => [l]) (fun s act l => scalarCause src 0x04B sg x c (fun _ l => noLaneCause s c sg l) act l)
      (fun s act => act.foldl (fun s l =>
        s.modWg c.wg (·.modThread l.tid (·.writeP x.d.toNat (electWins c x.a.toNat good l)))) s)

/-- A thread may issue: neither ended, held nor before a group that cannot issue (R229). -/
def Thread.isReady (t : Thread) : Bool := !t.ended && t.hold == .ready && t.blocked.isNone && !t.parked

/-- R97: the other PC groups that are ready when the `yield` issues. -/
def Workgroup.otherGroups (g : Workgroup) (c : Cur) : List PC :=
  ((g.threads.filter fun p => p.2.isReady && !c.lanes.contains p.1 && p.2.pc != c.pc).map fun p => p.2.pc).dedup

/-- R97: Settles and makes active threads ineligible until other groups have issued. -/
def execYield (x : Args) (s : State) : Res :=
  perLane 0x04C noLaneCause (fun _ c l s => s.modWg c.wg fun g =>
    let groups := g.otherGroups c
    g.modThread l.tid fun t => { t with hold := .yield groups 0 }) x s (waits := true)

end Sys2Proof.Machine
end

