-- ==== Sys2Proof/Machine/Fetch.lean ====
section
/-! DEFINITION. Code in memory: packets and code lines with their trailer (R18 to R20), issue groups and what makes a group
illegal (R21), and the checks of a kernel header (R26 to R28). -/

namespace Sys2Proof.Machine

/-! ### CRC-32C (R18) -/

def crcBit (c : Nat) : Nat := if c % 2 = 1 then (c / 2) ^^^ 0x82F63B78 else c / 2
def crcByte (c : Nat) (b : Byte) : Nat :=
  crcBit (crcBit (crcBit (crcBit (crcBit (crcBit (crcBit (crcBit (c ^^^ b.toNat))))))))
/-- CRC-32C of some bytes. -/
def crc32c (bs : List Byte) : Nat := (bs.foldl crcByte 0xFFFFFFFF) ^^^ 0xFFFFFFFF

/-- Bytes 60 to 63 of a line are the CRC of bytes 0 to 59. -/
def lineOk (bs : List Byte) : Bool := natOfBytes (bs.drop 60) == crc32c (bs.take 60)

/-! ### Where code lies (R19, R342) -/

/-- The code origin of a thread: of the region's handler, or of its kernel. -/
def Workgroup.origin (g : Workgroup) (t : Thread) : W64 := (if t.priv then g.fhnd else g.hdrVa) + 64
/-- The virtual address of line `n`, and the place of a packet in it. -/
def lineVa (origin : W64) (n : Nat) : W64 := origin + BitVec.ofNat 64 (n * 64)
def lineOf (pkt : Nat) : Nat := pkt / 5
def packetWords (line : List Byte) (pkt : Nat) : List W32 := wordsOfBytes ((line.drop (pkt % 5 * 12)).take 12)

/-! ### Issue groups (R21) -/

/-- The layouts of a run of words from slot `k` on, each with its slot, until C = 0 ends the group. -/
def groupFrom : Nat → Nat → List W32 → List (Nat × Layout)
  | 0, _, _ => []
  | n + 1, k, ws =>
    match layoutOne ws with
    | none => []
    | some (l, rest) => (k, l) :: if l.chain then groupFrom n (k + l.size) rest else []

/-- The group that starts at a slot of a packet's words. -/
def groupAt (ws : List W32) (slot : Nat) : List (Nat × Layout) := groupFrom 3 slot (ws.drop slot)

/-- The slot after a group. -/
def groupEnd (slot : Nat) (ls : List (Nat × Layout)) : Nat := ls.foldl (fun _ p => p.1 + p.2.size) slot

/-- The PC after the words up to `slot`. -/
def pcFrom (pkt slot : Nat) : PC := if 3 ≤ slot then ⟨pkt + 1, 0⟩ else ⟨pkt, slot⟩

/-- The end of the group that holds `slot`, the groups of the packet taken in turn from slot `k`. (DEDUCED, log 49.) -/
def groupHolding (ws : List W32) (slot : Nat) : Nat → Nat → Nat
  | 0, k => k
  | n + 1, k =>
    let e := groupEnd k (groupAt ws k)
    if slot < e ∨ e ≤ k then max e (k + 1) else groupHolding ws slot n e

/-- The pipes: 0 none, 1 S, 2 B, 3 V, 4 F, 5 M, 6 X. -/
def pipeOf (op : Nat) : Nat :=
  if op = 0 then 0
  else if op < 0x040 then 1
  else if op < 0x060 then 2
  else if op < 0x100 then 3
  else if op < 0x180 then 4
  else if op < 0x1C0 then 5
  else if op < 0x1D0 then 2
  else if op < 0x1F0 then 6
  else if 0x1F8 ≤ op ∧ op ≤ 0x1FD then 2
  else 0

/-- What an instruction names as its destination: file (0 v, 1 p, 2 s, 3 k, 4 special, 5 channel) and number. -/
def destNames (sg : Sig) (x : Args) : List (Nat × Nat) :=
  (destRegs sg x).map (fun d => match d with | .v n => (0, n) | .p n => (1, n) | .s n => (2, n)) ++
  (if Sig.writes sg then
    match sg.d with
    | .mask => [(3, x.d.toNat)]
    | .specRw => [(4, x.d.toNat)]
    | _ => (match fieldChan sg x .d with | some (q, _) => [(5, q)] | none => [])
   else [])

/-- The destinations of an instruction of a workgroup, and those in `more`. -/
def layoutDests (g : Workgroup) (more : Layout → List (Nat × Nat)) (l : Layout) : List (Nat × Nat) :=
  if l.err.isSome then []
  else match g.sig (opOf l.w) l.x with
    | some sg => destNames sg l.x ++ more l
    | none => []

def layoutPipe (l : Layout) : Nat := pipeOf (opOf l.w)

/-- Two members of a list share an element. -/
def clash {α : Type} [DecidableEq α] : List (List α) → Bool
  | [] => false
  | a :: rest => rest.any (fun b => a.any b.contains) || clash rest

/-- R17: a word that would be a prefix but for C = 0, which makes its whole group illegal. -/
def loneIn (l : Layout) : Bool := opOf l.w == 0x1FE && !chainOf l.w

/-- R21: the group is illegal; `more` names the destinations that depend on a register. -/
def groupBad (g : Workgroup) (more : Layout → List (Nat × Nat)) (ls : List (Nat × Layout)) : Bool :=
  (match ls.getLast? with | some p => p.2.chain | none => true) || (ls.any fun p => loneIn p.2) ||
  clash (ls.map fun p => if layoutPipe p.2 = 0 then [] else [layoutPipe p.2]) ||
  clash (ls.map fun p => layoutDests g more p.2)

/-! ### Fetching (R20, R319) -/

/-- The line at a virtual address: its bytes, or the code a fetch of it takes. -/
def State.fetchLine (s : State) (g : Workgroup) (priv : Bool) (va : W64) : Except Nat (List Byte) × State :=
  match s.locate g.core g.ctx.asid g.ctx.root { write := false, fetch := true, priv } va with
  | (.error e, s) => (.error e, s)
  | (.ok pa, s) =>
    if (s.pathFrom (dieOfCore g.core) 0 pa).isNone then (.error 0x14, s.logFault g.core g.ctx.asid pa 7 6 0x14)
    else if s.isBad pa then (.error 0x13, s.logBad g.core g.ctx.asid pa)
    else
      let bs := s.bytesAt pa 64
      let s := s.scrub (s.dieFor pa (dieOfCore g.core)) pa g.ctx.asid (some g.core)
      if lineOk bs then (.ok bs, s) else (.error 0x08, s)

/-- The words of a thread's packet; a packet at or beyond the code length is not there. -/
def State.fetchPacket (s : State) (g : Workgroup) (t : Thread) (pkt : Nat) : Except Cause (List W32) × State :=
  let va := lineVa (g.origin t) (lineOf pkt)
  if g.codeLen t ≤ pkt then (.error (0x08, va), s)
  else
    match s.fetchLine g t.priv va with
    | (.error e, s) => (.error (e, va), s)
    | (.ok bs, s) => (.ok (packetWords bs pkt), s)

/-- The issue group after the one that holds a slot of the kernel's code (R217). (DEDUCED, log 49.) -/
def State.groupAfter (s : State) (g : Workgroup) (p : PC) : PC :=
  match (s.fetchPacket g { noThread with priv := false } p.pkt).1 with
  | .ok ws => pcFrom p.pkt (groupHolding ws p.slot 3 0)
  | .error _ => ⟨p.pkt + 1, 0⟩

/-! ### The kernel header (R26, R28) -/

/-- Little-endian fields of a byte string. -/
def fieldAt (bs : List Byte) (i k : Nat) : Nat := natOfBytes ((bs.drop i).take k)

def roleBytes (bs : List Byte) (i : Nat) : Role :=
  { kind := fieldAt bs (16 + 4 * i) 1, warps := fieldAt bs (17 + 4 * i) 1, vregs := fieldAt bs (18 + 4 * i) 1 }

def handlerOf (n : Nat) : Option Nat := if n = 0xFFFFFFFF then none else some n

/-- The fields of a header line. -/
def headerOf (bs : List Byte) : Hdr :=
  { width := 16 * 2 ^ (fieldAt bs 4 1 % 4), vregs := fieldAt bs 5 1, depth := fieldAt bs 6 1, tiles := fieldAt bs 7 1
    spad := fieldAt bs 8 4, hwarps := fieldAt bs 12 2, gbar := (fieldAt bs 14 1).testBit 0
    surplus := (fieldAt bs 14 1).testBit 1, roles := (List.range (fieldAt bs 15 1)).map (roleBytes bs)
    entry := fieldAt bs 28 4, preempt := handlerOf (fieldAt bs 32 4), restore := handlerOf (fieldAt bs 36 4)
    len := fieldAt bs 40 4 }

/-- Octets that receive accumulator tiles (R27). -/
def Hdr.tileOctets (x : Hdr) : Nat :=
  x.width / 8 * (if x.roles = [] then x.hwarps
    else ((x.roles.filter fun r => r.kind = 2 ∨ r.kind = 3).map (·.warps)).sum)

def handlerIn (h : Option Nat) (len : Nat) : Bool := h.all fun n => decide (n < len)

/-- R28: the conditions on a kernel header. -/
def headerOk (bs : List Byte) : Bool :=
  let x := headerOf bs
  let zero (i k : Nat) : Bool := fieldAt bs i k == 0
  fieldAt bs 0 4 == 0x014B5852 && decide (fieldAt bs 4 1 ≤ 2) && decide (8 ≤ x.vregs ∧ x.vregs ≤ 64) &&
  decide (x.depth ≤ 16) && decide (x.tiles ≤ 4) && x.spad % 256 == 0 && decide (x.spad ≤ 1048576) &&
  decide (1 ≤ x.hwarps ∧ x.hwarps ≤ 2048 / x.width) && decide (fieldAt bs 14 1 < 4) && decide (fieldAt bs 15 1 ≤ 3) &&
  ((List.range 3).all fun i =>
    if i < x.roles.length then
      let r := roleBytes bs i
      decide (1 ≤ r.kind ∧ r.kind ≤ 3) && decide (1 ≤ r.warps) && zero (19 + 4 * i) 1 &&
      decide (x.depth + 4 ≤ r.vregs ∧ r.vregs ≤ x.vregs)
    else zero (16 + 4 * i) 4) &&
  (if x.roles = [] then decide (x.depth + 4 ≤ x.vregs) else (x.roles.map (·.warps)).sum == x.hwarps) &&
  decide (x.tileOctets * x.tiles ≤ 64) && decide (1 ≤ x.len) && decide (x.entry < x.len) &&
  handlerIn x.preempt x.len && handlerIn x.restore x.len && zero 44 16 && lineOk bs

/-- R342: what is checked of a privileged handler's header: magic, entry, code length and check. -/
def handlerHeaderOk (bs : List Byte) : Bool :=
  let x := headerOf bs
  fieldAt bs 0 4 == 0x014B5852 && decide (1 ≤ x.len) && decide (x.entry < x.len) && lineOk bs

end Sys2Proof.Machine
end

