-- ==== Sys2Proof/Machine/System.lean ====
section
/-! DEFINITION. The meanings of `nop` and of the system instructions, opcodes 0x1F8 to 0x1FD (R215 to R221). -/

namespace Sys2Proof.Machine

/-- R17. -/
def execNop (s : State) : Res := .next s

/-! ### Software traps (R216) -/

/-- R216: Raises software trap code 0x21 with the trap number in tval. -/
def execTrap (x : Args) (s : State) : Res :=
  perLane 0x1F8 (fun _ _ _ _ => some (0x21, x.b.setWidth 64)) (fun _ _ _ s => s) x s
/-- R216: Raises breakpoint code 0x20 with the tag in tval. -/
def execBrk (x : Args) (s : State) : Res :=
  perLane 0x1F9 (fun _ _ _ _ => some (0x20, x.b.setWidth 64)) (fun _ _ _ s => s) x s

/-! ### Leaving a handler (R44, R217) -/

/-- A privileged instruction outside a privileged handler. (DEDUCED, log 102.) -/
def privCause (l : Lane) : Option Cause := if l.t.priv then none else some (0x11, 0)

/-- The fields of `tpos`. -/
def Thread.trapPc (t : Thread) : PC := ⟨bitsNat t.tpos 26 0, bitsNat t.tpos 28 27⟩
/-- The packet and slot of `tpos`, and whether AT names a packet (R220). (DEDUCED, log 49.) -/
def Thread.trapAt (t : Thread) : Bool := bitAt t.tpos 29

/-- Where a thread goes on after its trap. (DEDUCED, log 49.) -/
def State.trapNext (s : State) (g : Workgroup) (t : Thread) : PC :=
  if t.trapAt then ⟨t.trapPc.pkt, 0⟩ else t.cont.getD (s.groupAfter g t.trapPc)

/-- R217: Ends a privileged handler and continues after the trapping group. -/
def execSret (x : Args) (s : State) : Res :=
  perLane 0x1FA (fun _ _ _ l => privCause l) (fun _ c l s =>
    s.modWg c.wg fun g => g.modThread l.tid fun t =>
      { t.leave t.again (s.trapNext g t) with memTrap := false }) x s

/-- The lane of a memory trap awaits its replay, or the trap was none. -/
def awaitsReplay (g : Workgroup) (l : Lane) (t : Thread) : Bool :=
  !t.memTrap || (g.hw l.hw).faultm.getLsbD l.lane

/-- A barrier surplus has had its effect (R340), and a replay of a whole group issues it again. (DEDUCED, log 48.) -/
def execRply (x : Args) (s : State) : Res :=
  perLane 0x1FA (fun _ _ _ l => privCause l) (fun _ c l s =>
    s.modWg c.wg fun g => g.modThread l.tid fun t =>
      if t.wholeTrap then t.leave [] t.trapPc
      else if t.tcause = 0x05 ∨ !awaitsReplay g l t then { t.leave t.again (s.trapNext g t) with memTrap := false }
      else t.leave (t.trapPc :: t.again) (s.trapNext g t)) x s

/-! ### Pre-emption handlers (R218) -/

/-- The hold a thread returns to after a pre-emption: a `yield`, which it has passed; any other it meets again (R351). -/
def Hold.kept : Hold → Hold
  | .yield groups n => .yield groups n
  | _ => .ready

/-- The thread goes on in a handler of its kernel; `%tcause` reads 0x30 in the pre-empt handler. -/
def Thread.pushFrame (user : UserMode) (entry : Nat) (t : Thread) : Thread :=
  { t with
    frames := ⟨t.user, t.pc, t.alone, t.cont, t.contSettle, t.hold.kept⟩ :: t.frames, user, pc := ⟨entry, 0⟩, alone := []
    cont := none, contSettle := false, tcause := if user = .preemptHandler then 0x30 else 0, stage := 0, hold := .ready }

/-- The end of such a handler: the thread is where it was found. -/
def Thread.popFrame (t : Thread) : Thread :=
  match t.frames with
  | [] => { t with user := .program, tcause := 0 }
  | f :: rest => { t with
      user := f.user, pc := f.pc, alone := f.alone, cont := f.cont, contSettle := f.contSettle, hold := f.hold, frames := rest
      switched := true
      tcause := if f.user = .preemptHandler then 0x30 else 0 }

/-- `park` has settled and drained (see `Gate`). -/
def execPark (x : Args) (s : State) : Res :=
  perLane 0x1FA noLaneCause (fun _ c l s =>
    s.modWg c.wg fun g => g.modThread l.tid fun t =>
      if t.priv ∨ t.user ≠ .preemptHandler then t
      else { t.popFrame with parked := g.status == .preempting }) x s (waits := true)

/-- R218: Ends the restore handler, resuming each thread where pre-emption found it. -/
def execRst (x : Args) (s : State) : Res :=
  perLane 0x1FA (fun _ _ _ l => if l.t.priv ∨ l.t.user ≠ .restoreHandler then some (0x11, 0) else none)
    (fun _ c l s => s.modWg c.wg (·.modThread l.tid Thread.popFrame)) x s

/-! ### Inspection (R219, R220) -/

/-- The bits of a home warp's lanes in the formed warp. -/
def execFlane (x : Args) (s : State) : Res :=
  perHome 0x1FB noCause (fun _ c act s =>
    match act with
    | [] => s
    | l :: _ => s.modWg c.wg fun g => g.modHw l.hw fun h =>
        h.writeK x.d.toNat (c.lanes.foldl (fun m t =>
          if g.home t = l.hw then setBit m (g.laneOf t) true else m) 0)) x s

/-- R219: Reads a selected workgroup performance counter. (DESIGN CHOICE, log 62.) -/
def execPerf (x : Args) (s : State) : Res :=
  perLane 0x1FB noLaneCause
    (fun _ c l s => s.modWg c.wg fun g =>
      let v := Tab.get 0 g.perf (l.h.readS x.a.toNat).toNat
      g.modThread l.tid (·.writeVec x.d.toNat 2 (v.setWidth 128))) x s
    (ill := ⟨[.a], fun _ _ _ l => decide (5 < (l.h.readS x.a.toNat).toNat)⟩)

/-- The value of privileged register `n`. (DESIGN CHOICE, log 11.) -/
def privValue (s : State) (g : Workgroup) (t : Thread) (n : Nat) : W64 :=
  let d := s.dieAt (dieOfCore g.core)
  let e := Tab.get {} d.log d.elix.toNat
  match n with
  | 0 => t.tpos.setWidth 64
  | 1 => t.tval
  | 2 => d.elix.setWidth 64
  | 3 => d.elcnt.setWidth 64
  | 4 => e.w0
  | 5 => e.w1
  | 6 => e.w2
  | _ => e.w3

/-- R220: Reads a privileged register. -/
def execRdpr (x : Args) (s : State) : Res :=
  perLane 0x1FC (fun _ _ _ l => privCause l) (fun _ c l s =>
    let v := privValue s (s.wgOf c.wg) l.t x.a.toNat
    s.modWg c.wg fun g => g.modThread l.tid (·.writeVec x.d.toNat (privWidth x.a) (v.setWidth 128))) x s

/-- The value `wrpr` may not write. -/
def wrprBad (n : Nat) (v : W32) : Bool := if n = 0 then bitsNat v 31 30 != 0 else decide (255 < v.toNat)

/-- A handler that moves `tpos` chooses where `sret` goes on. (DEDUCED, log 102.) -/
def execWrpr (x : Args) (s : State) : Res :=
  let v (l : Lane) : W32 := l.t.readV x.a.toNat
  perLane 0x1FC (fun _ _ _ l => privCause l) (fun _ c l s =>
    if x.d = 0 then s.modWg c.wg fun g => g.modThread l.tid fun t => { t with tpos := v l, cont := none, contSettle := false }
    else s.modDie (dieOfCore (s.wgOf c.wg).core) fun d => { d with elix := v l }) x s
    (ill := ⟨[.a], fun _ _ _ l => wrprBad x.d.toNat (v l)⟩)

/-! ### Translations removed (R221) -/

def tlbiHits (ctl : W64) (va : Nat) (e : Tlb) : Bool :=
  if bitAt ctl 17 then true
  else e.asid == bitsNat ctl 15 0 && (bitAt ctl 16 || (decide (va < 2 ^ 48) && e.covers e.asid (va / 4096)))

/-- Entries are removed from every L1 and L2 TLB of both dies. -/
def State.dropTlb (s : State) (hit : Tlb → Bool) : State :=
  { s with
    cores := Tab.map (fun _ (k : Core) => { k with tlb := k.tlb.filter fun e => !hit e }) s.cores
    dies := Tab.map (fun _ (d : Die) => { d with tlb := d.tlb.filter fun e => !hit e }) s.dies }

/-- R221: Releases at device scope and removes selected TLB entries on both dies. (DEDUCED, log 102.) -/
def execTlbi (x : Args) (s : State) : Res :=
  perHome 0x1FD (fun _ _ _ _ l => privCause l)
    (fun _ _ act s =>
      match act with
      | [] => s
      | l :: _ => s.dropTlb (tlbiHits (l.h.readS x.b.toNat) (l.h.readS x.a.toNat).toNat)) x s
    (ill := ⟨[.b], fun _ _ _ l => bitsNat (l.h.readS x.b.toNat) 63 18 != 0⟩) (waits := true)

end Sys2Proof.Machine
end

