-- ==== Sys2Proof/Machine/Vector.lean ====
section
/-! DEFINITION. The meanings of the vector integer, predicate and cross-lane instructions, opcodes 0x060 to 0x0FE
(R98 to R112). -/

namespace Sys2Proof.Machine

/-! ### Arithmetic, bits, conversions and compares (R100 to R108) -/

/-- R101: Vector 32-bit add modulo 2^32. -/
def execVaddS32 (x : Args) (s : State) : Res := lanewise 0x060 laneVaddS32 x s
/-- R101: Vector 64-bit add on pairs. -/
def execVaddS64 (x : Args) (s : State) : Res := lanewise 0x061 laneVaddS64 x s
/-- R101: Vector signed saturating add. -/
def execVaddSatS32 (x : Args) (s : State) : Res := lanewise 0x062 laneVaddSatS32 x s
/-- R101: Vector unsigned saturating add. -/
def execVaddSatN32 (x : Args) (s : State) : Res := lanewise 0x063 laneVaddSatN32 x s
/-- R101: Vector 32-bit subtract. -/
def execVsubS32 (x : Args) (s : State) : Res := lanewise 0x064 laneVsubS32 x s
/-- R101: Vector 64-bit subtract. -/
def execVsubS64 (x : Args) (s : State) : Res := lanewise 0x065 laneVsubS64 x s
/-- R101: Vector signed saturating subtract. -/
def execVsubSatS32 (x : Args) (s : State) : Res := lanewise 0x066 laneVsubSatS32 x s
/-- R101: Vector unsigned saturating subtract. -/
def execVsubSatN32 (x : Args) (s : State) : Res := lanewise 0x067 laneVsubSatN32 x s
/-- R101: Vector 32-bit low multiply. -/
def execVmulS32 (x : Args) (s : State) : Res := lanewise 0x068 laneVmulS32 x s
/-- R101: Vector 64-bit low multiply. -/
def execVmulS64 (x : Args) (s : State) : Res := lanewise 0x069 laneVmulS64 x s
/-- R101: High 32 bits of the signed vector product. -/
def execVmulhS32 (x : Args) (s : State) : Res := lanewise 0x06A laneVmulhS32 x s
/-- R101: High 32 bits of the unsigned vector product. -/
def execVmulhN32 (x : Args) (s : State) : Res := lanewise 0x06B laneVmulhN32 x s
/-- R101: Vector 32-bit multiply-add with the F addend. -/
def execVmadS32 (x : Args) (s : State) : Res := lanewise 0x06C laneVmadS32 x s
/-- R101: Vector 64-bit multiply-add with the F addend. -/
def execVmadS64 (x : Args) (s : State) : Res := lanewise 0x06D laneVmadS64 x s
/-- R101: Vector add with carry-in and carry-out in the F predicate. -/
def execVadcN32 (x : Args) (s : State) : Res := lanewise 0x06E laneVadcN32 x s
/-- R101: Vector subtract with borrow in the F predicate. -/
def execVsbcN32 (x : Args) (s : State) : Res := lanewise 0x06F laneVsbcN32 x s
/-- R101: Vector signed 32-bit division with defined special cases. -/
def execVdivS32 (x : Args) (s : State) : Res := lanewise 0x070 laneVdivS32 x s
/-- R101: Vector unsigned 32-bit division. -/
def execVdivN32 (x : Args) (s : State) : Res := lanewise 0x071 laneVdivN32 x s
/-- R101: Vector signed 64-bit division. -/
def execVdivS64 (x : Args) (s : State) : Res := lanewise 0x072 laneVdivS64 x s
/-- R101: Vector unsigned 64-bit division. -/
def execVdivN64 (x : Args) (s : State) : Res := lanewise 0x073 laneVdivN64 x s
/-- R101: Vector signed 32-bit remainder. -/
def execVremS32 (x : Args) (s : State) : Res := lanewise 0x074 laneVremS32 x s
/-- R101: Vector unsigned 32-bit remainder. -/
def execVremN32 (x : Args) (s : State) : Res := lanewise 0x075 laneVremN32 x s
/-- R101: Vector signed 64-bit remainder. -/
def execVremS64 (x : Args) (s : State) : Res := lanewise 0x076 laneVremS64 x s
/-- R101: Vector unsigned 64-bit remainder. -/
def execVremN64 (x : Args) (s : State) : Res := lanewise 0x077 laneVremN64 x s
/-- R101: Vector 32-bit absolute value. -/
def execVabsS32 (x : Args) (s : State) : Res := lanewise 0x078 laneVabsS32 x s
/-- R101: Vector 64-bit absolute value. -/
def execVabsS64 (x : Args) (s : State) : Res := lanewise 0x079 laneVabsS64 x s
/-- R101: Vector 32-bit negation. -/
def execVnegS32 (x : Args) (s : State) : Res := lanewise 0x07A laneVnegS32 x s
/-- R101: Vector 64-bit negation. -/
def execVnegS64 (x : Args) (s : State) : Res := lanewise 0x07B laneVnegS64 x s
/-- R101: Vector signed 32-bit minimum. -/
def execVminS32 (x : Args) (s : State) : Res := lanewise 0x07C laneVminS32 x s
/-- R101: Vector unsigned 32-bit minimum. -/
def execVminN32 (x : Args) (s : State) : Res := lanewise 0x07D laneVminN32 x s
/-- R101: Vector signed 32-bit maximum. -/
def execVmaxS32 (x : Args) (s : State) : Res := lanewise 0x07E laneVmaxS32 x s
/-- R101: Vector unsigned 32-bit maximum. -/
def execVmaxN32 (x : Args) (s : State) : Res := lanewise 0x07F laneVmaxN32 x s
/-- R101: Vector signed 64-bit minimum. -/
def execVminS64 (x : Args) (s : State) : Res := lanewise 0x080 laneVminS64 x s
/-- R101: Vector unsigned 64-bit minimum. -/
def execVminN64 (x : Args) (s : State) : Res := lanewise 0x081 laneVminN64 x s
/-- R101: Vector signed 64-bit maximum. -/
def execVmaxS64 (x : Args) (s : State) : Res := lanewise 0x082 laneVmaxS64 x s
/-- R101: Vector unsigned 64-bit maximum. -/
def execVmaxN64 (x : Args) (s : State) : Res := lanewise 0x083 laneVmaxN64 x s
/-- R103: Vector 32-bit and. -/
def execVandB32 (x : Args) (s : State) : Res := lanewise 0x084 laneVandB32 x s
/-- R103: Vector 32-bit or. -/
def execVorB32 (x : Args) (s : State) : Res := lanewise 0x085 laneVorB32 x s
/-- R103: Vector 32-bit exclusive or. -/
def execVxorB32 (x : Args) (s : State) : Res := lanewise 0x086 laneVxorB32 x s
/-- R103: Vector 32-bit a and not b. -/
def execVandnB32 (x : Args) (s : State) : Res := lanewise 0x087 laneVandnB32 x s
/-- R103: Vector 64-bit and. -/
def execVandB64 (x : Args) (s : State) : Res := lanewise 0x088 laneVandB64 x s
/-- R103: Vector 64-bit or. -/
def execVorB64 (x : Args) (s : State) : Res := lanewise 0x089 laneVorB64 x s
/-- R103: Vector 64-bit exclusive or. -/
def execVxorB64 (x : Args) (s : State) : Res := lanewise 0x08A laneVxorB64 x s
/-- R103: Vector 64-bit a and not b. -/
def execVandnB64 (x : Args) (s : State) : Res := lanewise 0x08B laneVandnB64 x s
/-- R103: Vector 32-bit shift left. -/
def execVshlB32 (x : Args) (s : State) : Res := lanewise 0x08C laneVshlB32 x s
/-- R103: Vector 32-bit logical shift right. -/
def execVshrB32 (x : Args) (s : State) : Res := lanewise 0x08D laneVshrB32 x s
/-- R103: Vector 32-bit arithmetic shift right. -/
def execVsraB32 (x : Args) (s : State) : Res := lanewise 0x08E laneVsraB32 x s
/-- R103: Vector 32-bit rotate left. -/
def execVrotB32 (x : Args) (s : State) : Res := lanewise 0x08F laneVrotB32 x s
/-- R103: Vector 64-bit shift left. -/
def execVshlB64 (x : Args) (s : State) : Res := lanewise 0x090 laneVshlB64 x s
/-- R103: Vector 64-bit logical shift right. -/
def execVshrB64 (x : Args) (s : State) : Res := lanewise 0x091 laneVshrB64 x s
/-- R103: Vector 64-bit arithmetic shift right. -/
def execVsraB64 (x : Args) (s : State) : Res := lanewise 0x092 laneVsraB64 x s
/-- R103: Vector 64-bit rotate left. -/
def execVrotB64 (x : Args) (s : State) : Res := lanewise 0x093 laneVrotB64 x s
/-- R103: Counts leading zeros of a 32-bit value. -/
def execVclzB32 (x : Args) (s : State) : Res := lanewise 0x094 laneVclzB32 x s
/-- R103: Counts leading zeros of a 64-bit value. -/
def execVclzB64 (x : Args) (s : State) : Res := lanewise 0x095 laneVclzB64 x s
/-- R103: Counts one bits of a 32-bit value. -/
def execVpopcB32 (x : Args) (s : State) : Res := lanewise 0x096 laneVpopcB32 x s
/-- R103: Counts one bits of a 64-bit value. -/
def execVpopcB64 (x : Args) (s : State) : Res := lanewise 0x097 laneVpopcB64 x s
/-- R103: Reverses the bits of a 32-bit value. -/
def execVbrevB32 (x : Args) (s : State) : Res := lanewise 0x098 laneVbrevB32 x s
/-- R103: Reverses the bits of a 64-bit value. -/
def execVbrevB64 (x : Args) (s : State) : Res := lanewise 0x099 laneVbrevB64 x s
/-- R104: Extracts a bit field, sign-extended. -/
def execVbfeS32 (x : Args) (s : State) : Res := lanewise 0x09A laneVbfeS32 x s
/-- R104: Extracts a bit field, zero-extended. -/
def execVbfeN32 (x : Args) (s : State) : Res := lanewise 0x09B laneVbfeN32 x s
/-- R104: Inserts a bit field of a into D. -/
def execVbfiB32 (x : Args) (s : State) : Res := lanewise 0x09C laneVbfiB32 x s
/-- R103: Adds a sign-extended 32-bit offset to a 64-bit address pair. -/
def execVleaB64 (x : Args) (s : State) : Res := lanewise 0x09D laneVleaB64 x s
/-- R103: Vector 32-bit move. -/
def execVmovB32 (x : Args) (s : State) : Res := lanewise 0x09E laneVmovB32 x s
/-- R103: Vector 64-bit move. -/
def execVmovB64 (x : Args) (s : State) : Res := lanewise 0x09F laneVmovB64 x s
/-- R101: Vector 32-bit add of a sign-extended immediate. -/
def execVaddS32I (x : Args) (s : State) : Res := lanewise 0x0A0 laneVaddS32 x s
/-- R103: Vector and with an immediate. -/
def execVandB32I (x : Args) (s : State) : Res := lanewise 0x0A1 laneVandB32 x s
/-- R103: Vector or with an immediate. -/
def execVorB32I (x : Args) (s : State) : Res := lanewise 0x0A2 laneVorB32 x s
/-- R103: Vector exclusive or with an immediate. -/
def execVxorB32I (x : Args) (s : State) : Res := lanewise 0x0A3 laneVxorB32 x s
/-- R103: Vector shift left by an immediate count. -/
def execVshlB32I (x : Args) (s : State) : Res := lanewise 0x0A4 laneVshlB32 x s
/-- R103: Vector logical shift right by an immediate count. -/
def execVshrB32I (x : Args) (s : State) : Res := lanewise 0x0A5 laneVshrB32 x s
/-- R103: Vector arithmetic shift right by an immediate count. -/
def execVsraB32I (x : Args) (s : State) : Res := lanewise 0x0A6 laneVsraB32 x s
/-- R103: Vector rotate left by an immediate count. -/
def execVrotB32I (x : Args) (s : State) : Res := lanewise 0x0A7 laneVrotB32 x s
/-- R103: Loads a sign-extended immediate into a vector register. -/
def execVliB32 (x : Args) (s : State) : Res := lanewise 0x0A8 laneVmovB32 x s
/-- R106: Per-lane 32-bit select by the F predicate. -/
def execVselB32 (x : Args) (s : State) : Res := lanewise 0x0A9 laneVselB32 x s
/-- R106: Per-lane 64-bit select by the F predicate. -/
def execVselB64 (x : Args) (s : State) : Res := lanewise 0x0AA laneVselB64 x s
/-- R105: Sign-extends a byte to 32 bits. -/
def execVcvtS32S8 (x : Args) (s : State) : Res := lanewise 0x0AB laneVcvtS32S8 x s
/-- R105: Sign-extends a half-word to 32 bits. -/
def execVcvtS32S16 (x : Args) (s : State) : Res := lanewise 0x0AC laneVcvtS32S16 x s
/-- R105: Zero-extends a byte to 32 bits. -/
def execVcvtN32N8 (x : Args) (s : State) : Res := lanewise 0x0AD laneVcvtN32N8 x s
/-- R105: Zero-extends a half-word to 32 bits. -/
def execVcvtN32N16 (x : Args) (s : State) : Res := lanewise 0x0AE laneVcvtN32N16 x s
/-- R105: Sign-extends 32 bits to a 64-bit pair. -/
def execVcvtS64S32 (x : Args) (s : State) : Res := lanewise 0x0AF laneVcvtS64S32 x s
/-- R105: Zero-extends 32 bits to a 64-bit pair. -/
def execVcvtN64N32 (x : Args) (s : State) : Res := lanewise 0x0B0 laneVcvtN64N32 x s
/-- R105: Clamps a signed value to 8 bits. -/
def execVcvtS8S32 (x : Args) (s : State) : Res := lanewise 0x0B1 laneVcvtS8S32 x s
/-- R105: Clamps a signed value to 16 bits. -/
def execVcvtS16S32 (x : Args) (s : State) : Res := lanewise 0x0B2 laneVcvtS16S32 x s
/-- R105: Clamps an unsigned value to 255. -/
def execVcvtN8N32 (x : Args) (s : State) : Res := lanewise 0x0B3 laneVcvtN8N32 x s
/-- R105: Clamps an unsigned value to 65,535. -/
def execVcvtN16N32 (x : Args) (s : State) : Res := lanewise 0x0B4 laneVcvtN16N32 x s
/-- R105: Clamps a signed 64-bit value to 32 bits. -/
def execVcvtS32S64 (x : Args) (s : State) : Res := lanewise 0x0B5 laneVcvtS32S64 x s
/-- R105: Clamps an unsigned 64-bit value to 32 bits. -/
def execVcvtN32N64 (x : Args) (s : State) : Res := lanewise 0x0B6 laneVcvtN32N64 x s
/-- R105: Clamps an unsigned value to the signed 32-bit maximum. -/
def execVcvtS32N32 (x : Args) (s : State) : Res := lanewise 0x0B7 laneVcvtS32N32 x s
/-- R105: Clamps a signed value at 0. -/
def execVcvtN32S32 (x : Args) (s : State) : Res := lanewise 0x0B8 laneVcvtN32S32 x s
/-- R107: Vector 32-bit equality compare into a predicate. -/
def execVcmpEqB32 (x : Args) (s : State) : Res := lanewise 0x0C0 laneVcmpEqB32 x s
/-- R107: Vector 32-bit inequality compare. -/
def execVcmpNeB32 (x : Args) (s : State) : Res := lanewise 0x0C1 laneVcmpNeB32 x s
/-- R107: Vector signed 32-bit less-than. -/
def execVcmpLtS32 (x : Args) (s : State) : Res := lanewise 0x0C2 laneVcmpLtS32 x s
/-- R107: Vector signed 32-bit less-or-equal. -/
def execVcmpLeS32 (x : Args) (s : State) : Res := lanewise 0x0C3 laneVcmpLeS32 x s
/-- R107: Vector unsigned 32-bit less-than. -/
def execVcmpLtN32 (x : Args) (s : State) : Res := lanewise 0x0C4 laneVcmpLtN32 x s
/-- R107: Vector unsigned 32-bit less-or-equal. -/
def execVcmpLeN32 (x : Args) (s : State) : Res := lanewise 0x0C5 laneVcmpLeN32 x s
/-- R107: Vector 64-bit equality compare. -/
def execVcmpEqB64 (x : Args) (s : State) : Res := lanewise 0x0C6 laneVcmpEqB64 x s
/-- R107: Vector 64-bit inequality compare. -/
def execVcmpNeB64 (x : Args) (s : State) : Res := lanewise 0x0C7 laneVcmpNeB64 x s
/-- R107: Vector signed 64-bit less-than. -/
def execVcmpLtS64 (x : Args) (s : State) : Res := lanewise 0x0C8 laneVcmpLtS64 x s
/-- R107: Vector signed 64-bit less-or-equal. -/
def execVcmpLeS64 (x : Args) (s : State) : Res := lanewise 0x0C9 laneVcmpLeS64 x s
/-- R107: Vector unsigned 64-bit less-than. -/
def execVcmpLtN64 (x : Args) (s : State) : Res := lanewise 0x0CA laneVcmpLtN64 x s
/-- R107: Vector unsigned 64-bit less-or-equal. -/
def execVcmpLeN64 (x : Args) (s : State) : Res := lanewise 0x0CB laneVcmpLeN64 x s
/-- R107: Vector equality compare with an immediate. -/
def execVcmpEqB32I (x : Args) (s : State) : Res := lanewise 0x0CD laneVcmpEqB32 x s
/-- R107: Vector signed less-than with an immediate. -/
def execVcmpLtS32I (x : Args) (s : State) : Res := lanewise 0x0CE laneVcmpLtS32 x s
/-- R107: Vector unsigned less-than with a sign-extended immediate. -/
def execVcmpLtN32I (x : Args) (s : State) : Res := lanewise 0x0CF laneVcmpLtN32 x s
/-- The truth table is the opcode's low four bits (R108). -/
def execPlop (t : BitVec 4) (x : Args) (s : State) : Res := lanewise (0x0D0 + t.toNat) (lanePlop t) x s

/-! ### Cross-lane operations (R109 to R112) -/

/-- R111: Shuffle from the participant of rank b after gathering the mask's threads. -/
def execXshfB32 (x : Args) (s : State) : Res := crosswise 0x0E0 crossXshf x s
/-- R111: Takes the value of the participant b ranks below. -/
def execXshuB32 (x : Args) (s : State) : Res := crosswise 0x0E1 crossXshu x s
/-- R111: Takes the value of the participant b ranks above. -/
def execXshdB32 (x : Args) (s : State) : Res := crosswise 0x0E2 crossXshd x s
/-- R111: Butterfly exchange with rank r XOR b. -/
def execXbflB32 (x : Args) (s : State) : Res := crosswise 0x0E3 crossXbfl x s
/-- R111: OR of a predicate over the participants. -/
def execXvoteAny (x : Args) (s : State) : Res := crosswise 0x0E4 crossXvoteAny x s
/-- R111: AND of a predicate over the participants. -/
def execXvoteAll (x : Args) (s : State) : Res := crosswise 0x0E5 crossXvoteAll x s
/-- R111: Home lane of the lowest participant with an equal 32-bit value. -/
def execXmatchB32 (x : Args) (s : State) : Res := crosswise 0x0E7 crossXmatch x s
/-- R111: Broadcasts the value of the rank named by rank 0. -/
def execXbcastB32 (x : Args) (s : State) : Res := crosswise 0x0E8 crossXbcast x s
/-- R111: 64-bit shuffle by rank. -/
def execXshfB64 (x : Args) (s : State) : Res := crosswise 0x0E9 crossXshf x s
/-- R111: 64-bit broadcast by rank. -/
def execXbcastB64 (x : Args) (s : State) : Res := crosswise 0x0EA crossXbcast x s
/-- R111: Home lane of the lowest participant with an equal 64-bit value. -/
def execXmatchB64 (x : Args) (s : State) : Res := crosswise 0x0EB crossXmatch x s
/-- R111: Wrapping 32-bit sum over the participants. -/
def execXredAddS32 (x : Args) (s : State) : Res := crosswise 0x0F0 (crossRed 32 (· + ·)) x s
/-- R111: Signed minimum over the participants. -/
def execXredMinS32 (x : Args) (s : State) : Res := crosswise 0x0F1 (crossRed 32 minS) x s
/-- R111: Signed maximum over the participants. -/
def execXredMaxS32 (x : Args) (s : State) : Res := crosswise 0x0F2 (crossRed 32 maxS) x s
/-- R111: Unsigned minimum over the participants. -/
def execXredMinN32 (x : Args) (s : State) : Res := crosswise 0x0F3 (crossRed 32 minN) x s
/-- R111: Unsigned maximum over the participants. -/
def execXredMaxN32 (x : Args) (s : State) : Res := crosswise 0x0F4 (crossRed 32 maxN) x s
/-- R111: Bitwise and over the participants. -/
def execXredAndB32 (x : Args) (s : State) : Res := crosswise 0x0F5 (crossRed 32 (· &&& ·)) x s
/-- R111: Bitwise or over the participants. -/
def execXredOrB32 (x : Args) (s : State) : Res := crosswise 0x0F6 (crossRed 32 (· ||| ·)) x s
/-- R111: Bitwise exclusive or over the participants. -/
def execXredXorB32 (x : Args) (s : State) : Res := crosswise 0x0F7 (crossRed 32 (· ^^^ ·)) x s
/-- R111: Wrapping 64-bit sum over the participants. -/
def execXredAddS64 (x : Args) (s : State) : Res := crosswise 0x0F8 (crossRed 64 (· + ·)) x s
/-- R111: Inclusive 32-bit prefix sum in rank order. -/
def execXscanAddS32 (x : Args) (s : State) : Res := crosswise 0x0F9 (crossScan 32 (· + ·)) x s
/-- R111: Exclusive 32-bit prefix sum in rank order. -/
def execXscanAddxS32 (x : Args) (s : State) : Res := crosswise 0x0FA (crossScanX 32) x s
/-- R111: Inclusive signed prefix minimum. -/
def execXscanMinS32 (x : Args) (s : State) : Res := crosswise 0x0FB (crossScan 32 minS) x s
/-- R111: Inclusive signed prefix maximum. -/
def execXscanMaxS32 (x : Args) (s : State) : Res := crosswise 0x0FC (crossScan 32 maxS) x s
/-- R111: Inclusive prefix or. -/
def execXscanOrB32 (x : Args) (s : State) : Res := crosswise 0x0FD (crossScan 32 (· ||| ·)) x s
/-- R111: Exclusive 64-bit prefix sum. -/
def execXscanAddxS64 (x : Args) (s : State) : Res := crosswise 0x0FE (crossScanX 64) x s

/-- In k[h][D] each participant's bit becomes its p[A]; other bits stay (R111). -/
def execXvoteBal (x : Args) (s : State) : Res :=
  perHome 0x0E6 noCause (fun _ c act s =>
    s.modWg c.wg fun g => act.foldl (fun g l =>
      g.modHw l.hw (·.setK x.d.toNat l.lane (l.t.readP x.a.toNat))) g) x s

/-! ### What a deferred cross-lane operation computes (R170) -/

/-- The function of an opcode, for operands that arrive from a channel. -/
def crossFnOf (op : Nat) : Option CrossFn :=
  match op with
  | 0x0E0 => some crossXshf
  | 0x0E1 => some crossXshu
  | 0x0E2 => some crossXshd
  | 0x0E3 => some crossXbfl
  | 0x0E7 => some crossXmatch
  | 0x0E8 => some crossXbcast
  | 0x0E9 => some crossXshf
  | 0x0EA => some crossXbcast
  | 0x0EB => some crossXmatch
  | 0x0F0 => some (crossRed 32 (· + ·))
  | 0x0F1 => some (crossRed 32 minS)
  | 0x0F2 => some (crossRed 32 maxS)
  | 0x0F3 => some (crossRed 32 minN)
  | 0x0F4 => some (crossRed 32 maxN)
  | 0x0F5 => some (crossRed 32 (· &&& ·))
  | 0x0F6 => some (crossRed 32 (· ||| ·))
  | 0x0F7 => some (crossRed 32 (· ^^^ ·))
  | 0x0F8 => some (crossRed 64 (· + ·))
  | 0x0F9 => some (crossScan 32 (· + ·))
  | 0x0FA => some (crossScanX 32)
  | 0x0FB => some (crossScan 32 minS)
  | 0x0FC => some (crossScan 32 maxS)
  | 0x0FD => some (crossScan 32 (· ||| ·))
  | 0x0FE => some (crossScanX 64)
  | _ => none

end Sys2Proof.Machine
end

