-- ==== Sys2Proof/Machine/VectorFloat.lean ====
section
/-! DEFINITION. The meanings of the vector floating-point instructions, opcodes 0x100 to 0x150 (R113 to R131), and what a
deferred lane-by-lane operation computes (R170). -/

namespace Sys2Proof.Machine

/-! ### Arithmetic, compares, conversions and special functions (R117 to R122, R126, R127) -/
/-- R117: FP32 fused multiply-add rounded once. -/
def execFfmaF32 (x : Args) (s : State) : Res := lanewise 0x100 laneFfmaF32 x s
/-- R117: FP32 add. -/
def execFaddF32 (x : Args) (s : State) : Res := lanewise 0x101 laneFaddF32 x s
/-- R117: FP32 subtract. -/
def execFsubF32 (x : Args) (s : State) : Res := lanewise 0x102 laneFsubF32 x s
/-- R117: FP32 multiply. -/
def execFmulF32 (x : Args) (s : State) : Res := lanewise 0x103 laneFmulF32 x s
/-- R118: FP32 minimum ignoring a single NaN. -/
def execFminF32 (x : Args) (s : State) : Res := lanewise 0x104 laneFminF32 x s
/-- R118: FP32 maximum ignoring a single NaN. -/
def execFmaxF32 (x : Args) (s : State) : Res := lanewise 0x105 laneFmaxF32 x s
/-- R118: FP32 minimum propagating NaN. -/
def execFminnF32 (x : Args) (s : State) : Res := lanewise 0x106 laneFminnF32 x s
/-- R118: FP32 maximum propagating NaN. -/
def execFmaxnF32 (x : Args) (s : State) : Res := lanewise 0x107 laneFmaxnF32 x s
/-- R119: Clears the FP32 sign bit. -/
def execFabsF32 (x : Args) (s : State) : Res := lanewise 0x108 laneFabsF32 x s
/-- R119: Inverts the FP32 sign bit. -/
def execFnegF32 (x : Args) (s : State) : Res := lanewise 0x109 laneFnegF32 x s
/-- R119: Magnitude of a with the sign of b. -/
def execFcpsF32 (x : Args) (s : State) : Res := lanewise 0x10A laneFcpsF32 x s
/-- R119: Writes the FP32 class mask. -/
def execFclassF32 (x : Args) (s : State) : Res := lanewise 0x10B laneFclassF32 x s
/-- R117: Rounds FP32 to an integral value under the mode. -/
def execFrndF32 (x : Args) (s : State) : Res := lanewise 0x10C laneFrndF32 x s
/-- R117: Scales FP32 by a power of 2. -/
def execFsclF32 (x : Args) (s : State) : Res := lanewise 0x10D laneFsclF32 x s
/-- R119: Exponent of an FP32 value as FP32. -/
def execFgetxF32 (x : Args) (s : State) : Res := lanewise 0x10E laneFgetxF32 x s
/-- R120: Two-element FP16 dot product with FP32 addend, rounded once. -/
def execFdot2F32H2 (x : Args) (s : State) : Res := lanewise 0x10F laneFdot2F32H2 x s
/-- R117: Paired FP16 fused multiply-add. -/
def execFfmaH2 (x : Args) (s : State) : Res := lanewise 0x110 laneFfmaH2 x s
/-- R117: Paired FP16 add. -/
def execFaddH2 (x : Args) (s : State) : Res := lanewise 0x111 laneFaddH2 x s
/-- R117: Paired FP16 subtract. -/
def execFsubH2 (x : Args) (s : State) : Res := lanewise 0x112 laneFsubH2 x s
/-- R117: Paired FP16 multiply. -/
def execFmulH2 (x : Args) (s : State) : Res := lanewise 0x113 laneFmulH2 x s
/-- R118: Paired FP16 minimum. -/
def execFminH2 (x : Args) (s : State) : Res := lanewise 0x114 laneFminH2 x s
/-- R118: Paired FP16 maximum. -/
def execFmaxH2 (x : Args) (s : State) : Res := lanewise 0x115 laneFmaxH2 x s
/-- R118: Paired FP16 NaN-propagating minimum. -/
def execFminnH2 (x : Args) (s : State) : Res := lanewise 0x116 laneFminnH2 x s
/-- R118: Paired FP16 NaN-propagating maximum. -/
def execFmaxnH2 (x : Args) (s : State) : Res := lanewise 0x117 laneFmaxnH2 x s
/-- R119: Paired FP16 absolute value. -/
def execFabsH2 (x : Args) (s : State) : Res := lanewise 0x118 laneFabsH2 x s
/-- R119: Paired FP16 negation. -/
def execFnegH2 (x : Args) (s : State) : Res := lanewise 0x119 laneFnegH2 x s
/-- R119: Paired FP16 copy sign. -/
def execFcpsH2 (x : Args) (s : State) : Res := lanewise 0x11A laneFcpsH2 x s
/-- R119: Paired FP16 class masks. -/
def execFclassH2 (x : Args) (s : State) : Res := lanewise 0x11B laneFclassH2 x s
/-- R117: Paired FP16 round to integral. -/
def execFrndH2 (x : Args) (s : State) : Res := lanewise 0x11C laneFrndH2 x s
/-- R117: Paired FP16 scale by powers of 2. -/
def execFsclH2 (x : Args) (s : State) : Res := lanewise 0x11D laneFsclH2 x s
/-- R119: Paired FP16 exponents. -/
def execFgetxH2 (x : Args) (s : State) : Res := lanewise 0x11E laneFgetxH2 x s
/-- R120: Two-element BF16 dot product with FP32 addend. -/
def execFdot2F32Bh2 (x : Args) (s : State) : Res := lanewise 0x11F laneFdot2F32Bh2 x s
/-- R117: Paired BF16 fused multiply-add. -/
def execFfmaBh2 (x : Args) (s : State) : Res := lanewise 0x120 laneFfmaBh2 x s
/-- R117: Paired BF16 add. -/
def execFaddBh2 (x : Args) (s : State) : Res := lanewise 0x121 laneFaddBh2 x s
/-- R117: Paired BF16 subtract. -/
def execFsubBh2 (x : Args) (s : State) : Res := lanewise 0x122 laneFsubBh2 x s
/-- R117: Paired BF16 multiply. -/
def execFmulBh2 (x : Args) (s : State) : Res := lanewise 0x123 laneFmulBh2 x s
/-- R118: Paired BF16 minimum. -/
def execFminBh2 (x : Args) (s : State) : Res := lanewise 0x124 laneFminBh2 x s
/-- R118: Paired BF16 maximum. -/
def execFmaxBh2 (x : Args) (s : State) : Res := lanewise 0x125 laneFmaxBh2 x s
/-- R118: Paired BF16 NaN-propagating minimum. -/
def execFminnBh2 (x : Args) (s : State) : Res := lanewise 0x126 laneFminnBh2 x s
/-- R118: Paired BF16 NaN-propagating maximum. -/
def execFmaxnBh2 (x : Args) (s : State) : Res := lanewise 0x127 laneFmaxnBh2 x s
/-- R119: Paired BF16 absolute value. -/
def execFabsBh2 (x : Args) (s : State) : Res := lanewise 0x128 laneFabsBh2 x s
/-- R119: Paired BF16 negation. -/
def execFnegBh2 (x : Args) (s : State) : Res := lanewise 0x129 laneFnegBh2 x s
/-- R119: Paired BF16 copy sign. -/
def execFcpsBh2 (x : Args) (s : State) : Res := lanewise 0x12A laneFcpsBh2 x s
/-- R119: Paired BF16 class masks. -/
def execFclassBh2 (x : Args) (s : State) : Res := lanewise 0x12B laneFclassBh2 x s
/-- R117: Paired BF16 round to integral. -/
def execFrndBh2 (x : Args) (s : State) : Res := lanewise 0x12C laneFrndBh2 x s
/-- R117: Paired BF16 scale by powers of 2. -/
def execFsclBh2 (x : Args) (s : State) : Res := lanewise 0x12D laneFsclBh2 x s
/-- R119: Paired BF16 exponents. -/
def execFgetxBh2 (x : Args) (s : State) : Res := lanewise 0x12E laneFgetxBh2 x s
/-- R120: Four-element binary8 dot product accumulated into D. -/
def execFdot4F32Q8 (x : Args) (s : State) : Res := lanewiseFmt 0x12F .f laneFdot4F32Q8 x s
/-- R121: FP32 equality compare into a predicate. -/
def execFcmpEqF32 (x : Args) (s : State) : Res := lanewise 0x130 laneFcmpEqF32 x s
/-- R121: FP32 inequality compare, true if unordered. -/
def execFcmpNeF32 (x : Args) (s : State) : Res := lanewise 0x131 laneFcmpNeF32 x s
/-- R121: FP32 less-than compare. -/
def execFcmpLtF32 (x : Args) (s : State) : Res := lanewise 0x132 laneFcmpLtF32 x s
/-- R121: FP32 less-or-equal compare. -/
def execFcmpLeF32 (x : Args) (s : State) : Res := lanewise 0x133 laneFcmpLeF32 x s
/-- R121: FP32 unordered test. -/
def execFcmpUnF32 (x : Args) (s : State) : Res := lanewise 0x134 laneFcmpUnF32 x s
/-- R121: FP32 ordered test. -/
def execFcmpOrdF32 (x : Args) (s : State) : Res := lanewise 0x135 laneFcmpOrdF32 x s
/-- R122: Widens FP16 to FP32 exactly. -/
def execFcvtF32F16 (x : Args) (s : State) : Res := lanewise 0x136 laneFcvtF32F16 x s
/-- R122: Widens BF16 to FP32 exactly. -/
def execFcvtF32Bf16 (x : Args) (s : State) : Res := lanewise 0x137 laneFcvtF32Bf16 x s
/-- R122: Narrows two FP32 values into a paired FP16 register. -/
def execFcvtH2F32 (x : Args) (s : State) : Res := lanewise 0x138 laneFcvtH2F32 x s
/-- R122: Narrows two FP32 values into a paired BF16 register. -/
def execFcvtBh2F32 (x : Args) (s : State) : Res := lanewise 0x139 laneFcvtBh2F32 x s
/-- R122: Decodes a binary8 byte to FP32 under a format word. -/
def execFcvtF32Q8 (x : Args) (s : State) : Res := lanewiseFmt 0x13A .b laneFcvtF32Q8 x s
/-- R122: Encodes FP32 to binary8 under a format word. -/
def execFcvtQ8F32 (x : Args) (s : State) : Res := lanewiseFmt 0x13B .b laneFcvtQ8F32 x s
/-- R122: FP32 to signed 32-bit integer with saturation. -/
def execFcvtiS32F32 (x : Args) (s : State) : Res := lanewise 0x13C laneFcvtiS32F32 x s
/-- R122: FP32 to unsigned 32-bit integer with saturation. -/
def execFcvtiN32F32 (x : Args) (s : State) : Res := lanewise 0x13D laneFcvtiN32F32 x s
/-- R122: Signed 32-bit integer to FP32. -/
def execFcvtfF32S32 (x : Args) (s : State) : Res := lanewise 0x13E laneFcvtfF32S32 x s
/-- R122: Unsigned 32-bit integer to FP32. -/
def execFcvtfF32N32 (x : Args) (s : State) : Res := lanewise 0x13F laneFcvtfF32N32 x s
/-- R122: FP32 to signed 64-bit integer pair. -/
def execFcvtiS64F32 (x : Args) (s : State) : Res := lanewise 0x140 laneFcvtiS64F32 x s
/-- R122: FP32 to unsigned 64-bit integer pair. -/
def execFcvtiN64F32 (x : Args) (s : State) : Res := lanewise 0x141 laneFcvtiN64F32 x s
/-- R122: Signed 64-bit integer pair to FP32. -/
def execFcvtfF32S64 (x : Args) (s : State) : Res := lanewise 0x142 laneFcvtfF32S64 x s
/-- R122: Unsigned 64-bit integer pair to FP32. -/
def execFcvtfF32N64 (x : Args) (s : State) : Res := lanewise 0x143 laneFcvtfF32N64 x s
/-- R126: Dequantises four binary8 bytes under a scale to FP32. -/
def execFdqntF32Q8 (x : Args) (s : State) : Res := lanewiseFmt 0x145 .b laneFdqntF32Q8 x s
/-- R127: Correctly rounded FP32 square root. -/
def execFsqrtF32 (x : Args) (s : State) : Res := lanewise 0x146 laneFsqrtF32 x s
/-- R127: FP32 reciprocal within 1 ulp. -/
def execFrcpF32 (x : Args) (s : State) : Res := lanewise 0x147 laneFrcpF32 x s
/-- R127: FP32 reciprocal square root. -/
def execFrsqF32 (x : Args) (s : State) : Res := lanewise 0x148 laneFrsqF32 x s
/-- R127: FP32 power of 2. -/
def execFex2F32 (x : Args) (s : State) : Res := lanewise 0x149 laneFex2F32 x s
/-- R127: FP32 base-2 logarithm. -/
def execFlg2F32 (x : Args) (s : State) : Res := lanewise 0x14A laneFlg2F32 x s
/-- R127: FP32 sine in radians. -/
def execFsinF32 (x : Args) (s : State) : Res := lanewise 0x14B laneFsinF32 x s
/-- R127: FP32 cosine in radians. -/
def execFcosF32 (x : Args) (s : State) : Res := lanewise 0x14C laneFcosF32 x s
/-- R127: FP32 hyperbolic tangent. -/
def execFtnhF32 (x : Args) (s : State) : Res := lanewise 0x14D laneFtnhF32 x s

/-! ### Block quantisation (R123 to R125) -/

/-- What a participant of an octet's block receives; the mode is that of the participant of rank 0.
(DEDUCED, log 53.) -/
def octetResult (ps : List DLane) (tid : Nat) : LaneOut :=
  match ps, ps.find? fun y => y.tid = tid with
  | first :: _, some y =>
    match vecFmt? first.input.b32 with
    | none => { v := 0 }
    | some f => quantLane f first.mode (blockExp f (ps.flatMap fun p => quadElems p.a.value)) y.a.value
  | _, _ => { v := 0 }

/-- A lane with its octet. (DEDUCED, log 53.) -/
def oneOctet (sg : Sig) (x : Args) (c : Cur) (_g : Workgroup) (k : Acc) (late : Bool) (push : Option (Nat × Nat))
    (all : List DLane) (l : Lane) (_y : DLane) : Acc :=
  let ps := all.filter fun p => octetOf p.tid = octetOf l.tid
  if ps.all DLane.ready then k.deliver c sg x l.tid late push (octetResult ps l.tid)
  else k.defer c 0x144 sg x l.tid ps push

/-- The format word differs among the participants of an octet. -/
def octetsDiffer (sg : Sig) (x : Args) (c : Cur) (ls : List Lane) (src g : Workgroup) : Bool :=
  let n := (ls.filter (·.act)).length
  let go := ls.filter fun l => l.act && (formCause g 0x144 sg x n c l).isNone
  let ws := go.zipIdx.map fun p => (octetOf p.1.tid, (fieldSrc src g 0x144 sg x p.1 go.length p.2 .b).value.setWidth 32)
  ws.any fun (a : Nat × W32) => ws.any fun b => a.1 == b.1 && a.2 != b.2

/-- Format divergence in an octet has no effect in any lane of the formed warp (R340): every participant of it traps before
any element is taken. (DEDUCED, log 53.) -/
def octetTraps (sg : Sig) (x : Args) (c : Cur) (ls : List Lane) (g : Workgroup) : Workgroup :=
  let n := (ls.filter (·.act)).length
  ls.foldl (fun g' l =>
    match (formCause g 0x144 sg x n c l).orElse fun _ => if l.act then some (0x03, 0) else none with
    | some e => g'.trapLane c l.tid e
    | none => g') g

/-- R125: Gathers an octet and quantises its 32 FP32 elements to binary8 under one scale. -/
def execFqntQ8F32 (x : Args) (s : State) : Res :=
  issue 0x144 x s fun sg c s =>
    let ls := lanesOf s c x.ctl.pfx
    let src := c.source s
    let run (g : Workgroup) : Workgroup :=
      if octetsDiffer sg x c ls src g then octetTraps sg x c ls g
      else laneGroup 0x144 sg x c ls (oneOctet sg x c) src g
    s.modWg c.wg (withFmt 0x144 .b sg x c ls run src)

/-! ### The activation table (R128 to R131) -/

/-- The quadratic of a lane, on the bank recorded in D when it issued. -/
def tabLane (g : Workgroup) (i : LaneIn) : LaneOut :=
  let at_ := i.d.toNat * 768 + tabSegment i.b32 * 3
  let coef (n : Nat) : W32 := Tab.get 0 ((g.act.map (·.coef)).getD []) (at_ + n)
  tabEval i.mode (coef 0) (coef 1) (coef 2) i.b32

/-- A workgroup without the claim traps, with no address. -/
def execFtabF32 (x : Args) (s : State) : Res :=
  issue 0x14E x s fun sg c s =>
    let src := c.source s
    let ls := lanesOf s c x.ctl.pfx
    if src.act.isSome then s.modWg c.wg (laneGroup 0x14E sg x c ls (oneLane 0x14E sg x c tabLane) src)
    else s.shared c (ls.map fun l => [l]) (fun _ act l => scalarCause src 0x14E sg x c (fun _ _ => some (0x11, 0)) act l) fun s _ => s

/-- The banks of the core are free, or the workgroup's own. -/
def State.bankFree (s : State) (w : Nat) : Bool :=
  s.wgs.all fun p => p.1 == w || p.2.core != (s.wgOf w).core || p.2.status == .parked || p.2.act.isNone

/-- The sectors of the coefficients, each with its physical address or what stops it. -/
def State.tabSector (s : State) (g : Workgroup) (t : Thread) (va : W64) (i : Nat) : Except Cause Nat × State :=
  let a := va + BitVec.ofNat 64 (64 * i)
  match s.reach g t false a with
  | (.error e, s) => (.error e, s)
  | (.ok pa, s) =>
    match s.loadStops g.core g.ctx.asid pa 64 with
    | some e => (.error (e, a), s.logStop g.core g.ctx.asid pa 64)
    | none => (.ok pa, s)

def ldtabCause (x : Args) (s : State) (c : Cur) (_sg : Sig) (act : List Lane) (_l : Lane) : Option Cause :=
  match act with
  | [] => none
  | l :: _ =>
    let va := l.h.readS x.a.toNat
    if va.toNat % 64 ≠ 0 then some (0x15, va)
    else if !s.bankFree c.wg then some (0x11, 0)
    else (List.range 48).findSome? fun i =>
      match addrCause (va + BitVec.ofNat 64 (64 * i)) 64 with
      | some e => some e
      | none => match (s.tabSector (c.source s) l.t va i).1 with | .error e => some e | .ok _ => none

/-- The bytes of the coefficients that can be read, and the state after their loads. -/
def State.tabBytes (s : State) (g : Workgroup) (t : Thread) (va : W64) : List (Nat × List Byte) × State :=
  (List.range 48).foldl (fun (acc : List (Nat × List Byte) × State) i =>
    match acc.2.tabSector g t va i with
    | (.error _, s) => (acc.1, s)
    | (.ok pa, s) =>
      let (bs, s) := s.loadSync g.core g.ctx.asid pa 64
      (acc.1 ++ [(i, bs)], s)) ([], s)

/-- The banks with segments loaded into the inactive one: coefficient words of the sectors read, where `keep` says so.
(DESIGN CHOICE, log 52.) -/
def ActTab.load (a : ActTab) (secs : List (Nat × List Byte)) (keep : Nat → Bool) : ActTab :=
  let bank := 1 - a.active
  let words := secs.flatMap fun p => (List.range 16).map fun j =>
    (p.1 * 16 + j, BitVec.ofNat 32 (natOfBytes ((p.2.drop (4 * j)).take 4)))
  { a with coef := words.foldl (fun m w => if keep (w.1 / 3) then Tab.set 0 m (bank * 768 + w.1) w.2 else m) a.coef }

/-- A segment whose bytes have all been read. -/
def segmentRead (secs : List (Nat × List Byte)) (n : Nat) : Bool :=
  [12 * n / 64, (12 * n + 11) / 64].all fun i => secs.any fun p => p.1 = i

/-- A load that fails after the checks of its form leaves each segment it could read old or new; which is left open.
(DESIGN CHOICE, log 52.) It claims no banks. (DEDUCED, log 112.) -/
def ldtabPrep (x : Args) (s : State) (c : Cur) (sg : Sig) (act : List Lane) : State :=
  match act with
  | [] => s
  | l :: _ =>
    let va := l.h.readS x.a.toNat
    let g := c.source s
    if va.toNat % 64 ≠ 0 ∨ !s.bankFree c.wg ∨ 2 ^ 48 ≤ va.toNat + 3072 then s
    else if (scalarCause g 0x14F sg x c (fun _ _ => none) act l).isSome then s
    else if (ldtabCause x s c sg act l).isNone then s
    else
      let (secs, s) := s.tabBytes g l.t va
      let (n, s) := s.draw
      s.modWg c.wg fun g => { g with act := g.act.map fun a => a.load secs fun k => n.testBit k && segmentRead secs k }

/-- R129: Loads 3,072 bytes of coefficients into the inactive table bank, claiming the banks if free. -/
def execLdtab (x : Args) (s : State) : Res :=
  issue 0x14F x s fun sg c s =>
    let src := c.source s
    s.shared c [lanesOf s c x.ctl.pfx] (fun s act l => scalarCause src 0x14F sg x c (ldtabCause x s c sg) act l)
      (fun s act =>
        match act with
        | [] => s
        | l :: _ =>
          let (secs, s) := s.tabBytes (s.wgOf c.wg) l.t (l.h.readS x.a.toNat)
          s.modWg c.wg fun g =>
            let a := (g.act.getD {}).load secs fun _ => true
            { g with act := some { a with last := some (1 - a.active) } })
      (fun s act => ldtabPrep x s c sg act)

/-- R130: Waits for loads and makes the last-filled table bank active. -/
def execSwtab (x : Args) (s : State) : Res :=
  perWarp 0x150 (fun s c _ _ _ => if (c.source s).act.isNone then some (0x11, 0) else none)
    (fun _ c _ s => s.modWg c.wg fun g =>
      { g with act := g.act.map fun a => { a with active := a.last.getD a.active } }) x s

/-! ### What a deferred operation computes (R170) -/
/-- Row 0x06_. -/
def laneFnRow0x06 (col : Nat) : Option (LaneIn → LaneOut) :=
  match col with
  | 0 => some laneVaddS32
  | 1 => some laneVaddS64
  | 2 => some laneVaddSatS32
  | 3 => some laneVaddSatN32
  | 4 => some laneVsubS32
  | 5 => some laneVsubS64
  | 6 => some laneVsubSatS32
  | 7 => some laneVsubSatN32
  | 8 => some laneVmulS32
  | 9 => some laneVmulS64
  | 10 => some laneVmulhS32
  | 11 => some laneVmulhN32
  | 12 => some laneVmadS32
  | 13 => some laneVmadS64
  | 14 => some laneVadcN32
  | 15 => some laneVsbcN32
  | _ => none

/-- Row 0x07_. -/
def laneFnRow0x07 (col : Nat) : Option (LaneIn → LaneOut) :=
  match col with
  | 0 => some laneVdivS32
  | 1 => some laneVdivN32
  | 2 => some laneVdivS64
  | 3 => some laneVdivN64
  | 4 => some laneVremS32
  | 5 => some laneVremN32
  | 6 => some laneVremS64
  | 7 => some laneVremN64
  | 8 => some laneVabsS32
  | 9 => some laneVabsS64
  | 10 => some laneVnegS32
  | 11 => some laneVnegS64
  | 12 => some laneVminS32
  | 13 => some laneVminN32
  | 14 => some laneVmaxS32
  | 15 => some laneVmaxN32
  | _ => none

/-- Row 0x08_. -/
def laneFnRow0x08 (col : Nat) : Option (LaneIn → LaneOut) :=
  match col with
  | 0 => some laneVminS64
  | 1 => some laneVminN64
  | 2 => some laneVmaxS64
  | 3 => some laneVmaxN64
  | 4 => some laneVandB32
  | 5 => some laneVorB32
  | 6 => some laneVxorB32
  | 7 => some laneVandnB32
  | 8 => some laneVandB64
  | 9 => some laneVorB64
  | 10 => some laneVxorB64
  | 11 => some laneVandnB64
  | 12 => some laneVshlB32
  | 13 => some laneVshrB32
  | 14 => some laneVsraB32
  | 15 => some laneVrotB32
  | _ => none

/-- Row 0x09_. -/
def laneFnRow0x09 (col : Nat) : Option (LaneIn → LaneOut) :=
  match col with
  | 0 => some laneVshlB64
  | 1 => some laneVshrB64
  | 2 => some laneVsraB64
  | 3 => some laneVrotB64
  | 4 => some laneVclzB32
  | 5 => some laneVclzB64
  | 6 => some laneVpopcB32
  | 7 => some laneVpopcB64
  | 8 => some laneVbrevB32
  | 9 => some laneVbrevB64
  | 10 => some laneVbfeS32
  | 11 => some laneVbfeN32
  | 12 => some laneVbfiB32
  | 13 => some laneVleaB64
  | 14 => some laneVmovB32
  | 15 => some laneVmovB64
  | _ => none

/-- Row 0x0A_. -/
def laneFnRow0x0A (col : Nat) : Option (LaneIn → LaneOut) :=
  match col with
  | 0 => some laneVaddS32
  | 1 => some laneVandB32
  | 2 => some laneVorB32
  | 3 => some laneVxorB32
  | 4 => some laneVshlB32
  | 5 => some laneVshrB32
  | 6 => some laneVsraB32
  | 7 => some laneVrotB32
  | 8 => some laneVmovB32
  | 9 => some laneVselB32
  | 10 => some laneVselB64
  | 11 => some laneVcvtS32S8
  | 12 => some laneVcvtS32S16
  | 13 => some laneVcvtN32N8
  | 14 => some laneVcvtN32N16
  | 15 => some laneVcvtS64S32
  | _ => none

/-- Row 0x0B_. -/
def laneFnRow0x0B (col : Nat) : Option (LaneIn → LaneOut) :=
  match col with
  | 0 => some laneVcvtN64N32
  | 1 => some laneVcvtS8S32
  | 2 => some laneVcvtS16S32
  | 3 => some laneVcvtN8N32
  | 4 => some laneVcvtN16N32
  | 5 => some laneVcvtS32S64
  | 6 => some laneVcvtN32N64
  | 7 => some laneVcvtS32N32
  | 8 => some laneVcvtN32S32
  | _ => none

/-- Row 0x0C_. -/
def laneFnRow0x0C (col : Nat) : Option (LaneIn → LaneOut) :=
  match col with
  | 0 => some laneVcmpEqB32
  | 1 => some laneVcmpNeB32
  | 2 => some laneVcmpLtS32
  | 3 => some laneVcmpLeS32
  | 4 => some laneVcmpLtN32
  | 5 => some laneVcmpLeN32
  | 6 => some laneVcmpEqB64
  | 7 => some laneVcmpNeB64
  | 8 => some laneVcmpLtS64
  | 9 => some laneVcmpLeS64
  | 10 => some laneVcmpLtN64
  | 11 => some laneVcmpLeN64
  | 13 => some laneVcmpEqB32
  | 14 => some laneVcmpLtS32
  | 15 => some laneVcmpLtN32
  | _ => none

/-- Row 0x10_. -/
def laneFnRow0x10 (col : Nat) : Option (LaneIn → LaneOut) :=
  match col with
  | 0 => some laneFfmaF32
  | 1 => some laneFaddF32
  | 2 => some laneFsubF32
  | 3 => some laneFmulF32
  | 4 => some laneFminF32
  | 5 => some laneFmaxF32
  | 6 => some laneFminnF32
  | 7 => some laneFmaxnF32
  | 8 => some laneFabsF32
  | 9 => some laneFnegF32
  | 10 => some laneFcpsF32
  | 11 => some laneFclassF32
  | 12 => some laneFrndF32
  | 13 => some laneFsclF32
  | 14 => some laneFgetxF32
  | 15 => some laneFdot2F32H2
  | _ => none

/-- Row 0x11_. -/
def laneFnRow0x11 (col : Nat) : Option (LaneIn → LaneOut) :=
  match col with
  | 0 => some laneFfmaH2
  | 1 => some laneFaddH2
  | 2 => some laneFsubH2
  | 3 => some laneFmulH2
  | 4 => some laneFminH2
  | 5 => some laneFmaxH2
  | 6 => some laneFminnH2
  | 7 => some laneFmaxnH2
  | 8 => some laneFabsH2
  | 9 => some laneFnegH2
  | 10 => some laneFcpsH2
  | 11 => some laneFclassH2
  | 12 => some laneFrndH2
  | 13 => some laneFsclH2
  | 14 => some laneFgetxH2
  | 15 => some laneFdot2F32Bh2
  | _ => none

/-- Row 0x12_. -/
def laneFnRow0x12 (col : Nat) : Option (LaneIn → LaneOut) :=
  match col with
  | 0 => some laneFfmaBh2
  | 1 => some laneFaddBh2
  | 2 => some laneFsubBh2
  | 3 => some laneFmulBh2
  | 4 => some laneFminBh2
  | 5 => some laneFmaxBh2
  | 6 => some laneFminnBh2
  | 7 => some laneFmaxnBh2
  | 8 => some laneFabsBh2
  | 9 => some laneFnegBh2
  | 10 => some laneFcpsBh2
  | 11 => some laneFclassBh2
  | 12 => some laneFrndBh2
  | 13 => some laneFsclBh2
  | 14 => some laneFgetxBh2
  | 15 => some laneFdot4F32Q8
  | _ => none

/-- Row 0x13_. -/
def laneFnRow0x13 (col : Nat) : Option (LaneIn → LaneOut) :=
  match col with
  | 0 => some laneFcmpEqF32
  | 1 => some laneFcmpNeF32
  | 2 => some laneFcmpLtF32
  | 3 => some laneFcmpLeF32
  | 4 => some laneFcmpUnF32
  | 5 => some laneFcmpOrdF32
  | 6 => some laneFcvtF32F16
  | 7 => some laneFcvtF32Bf16
  | 8 => some laneFcvtH2F32
  | 9 => some laneFcvtBh2F32
  | 10 => some laneFcvtF32Q8
  | 11 => some laneFcvtQ8F32
  | 12 => some laneFcvtiS32F32
  | 13 => some laneFcvtiN32F32
  | 14 => some laneFcvtfF32S32
  | 15 => some laneFcvtfF32N32
  | _ => none

/-- Row 0x14_. -/
def laneFnRow0x14 (col : Nat) : Option (LaneIn → LaneOut) :=
  match col with
  | 0 => some laneFcvtiS64F32
  | 1 => some laneFcvtiN64F32
  | 2 => some laneFcvtfF32S64
  | 3 => some laneFcvtfF32N64
  | 5 => some laneFdqntF32Q8
  | 6 => some laneFsqrtF32
  | 7 => some laneFrcpF32
  | 8 => some laneFrsqF32
  | 9 => some laneFex2F32
  | 10 => some laneFlg2F32
  | 11 => some laneFsinF32
  | 12 => some laneFcosF32
  | 13 => some laneFtnhF32
  | _ => none

/-- The function of an opcode of the V or F pipe that computes lane by lane. -/
def laneFnOf (op : Nat) : Option (LaneIn → LaneOut) :=
  match op / 16 with
  | 0x06 => laneFnRow0x06 (op % 16)
  | 0x07 => laneFnRow0x07 (op % 16)
  | 0x08 => laneFnRow0x08 (op % 16)
  | 0x09 => laneFnRow0x09 (op % 16)
  | 0x0A => laneFnRow0x0A (op % 16)
  | 0x0B => laneFnRow0x0B (op % 16)
  | 0x0C => laneFnRow0x0C (op % 16)
  | 0x10 => laneFnRow0x10 (op % 16)
  | 0x11 => laneFnRow0x11 (op % 16)
  | 0x12 => laneFnRow0x12 (op % 16)
  | 0x13 => laneFnRow0x13 (op % 16)
  | 0x14 => laneFnRow0x14 (op % 16)
  | _ => none

/-- The results of a deferred computation whose operands are all there, one for each of its sinks' lanes. -/
def deferredResult (g : Workgroup) (d : Deferred) (tid : Nat) : LaneOut :=
  if d.op = 0x144 then octetResult d.lanes tid
  else
    match crossFnOf d.op with
    | some fn => crossResult g fn d.lanes tid
    | none =>
      match d.lanes.find? fun y => y.tid = tid with
      | none => { v := 0 }
      | some y => if d.op = 0x14E then tabLane g y.input else ((laneFnOf d.op).map fun f => f y.input).getD { v := 0 }

end Sys2Proof.Machine
end

