-- ==== Sys2Proof/Machine/Landing.lean ====
section
/-! DEFINITION. The Landing (R228 to R233): which formed warps issue in a clock, and what the issue of one group does
before, between and after its instructions (R20 to R25, R341, R342). -/

namespace Sys2Proof.Machine

/-! ### Entering handlers (R342, R344) -/

/-- The threads of a trap set have settled. -/
def State.trapSetReady (s : State) (w : Nat) (ts : List Nat) : Bool := ts.all fun t => s.idle w ((s.wgOf w).thread t)

/-- R342. -/
def execHandlerEntry (w set : Nat) (s : State) : Res :=
  let g := s.wgOf w
  match Tab.find g.trapSets set with
  | none => .next s
  | some ts =>
    if s.trapSetReady w ts then
      .next ((s.modWg w fun g => { g with trapSets := Tab.erase g.trapSets set }).enterHandlers w
        (ts.filter fun t => !(g.thread t).ended))
    else .next s

/-! ### Fetching (R20) -/

/-- Some threads by home warp, those at one group together. -/
def Workgroup.homeSets (g : Workgroup) (ts : List Nat) : List (List Nat) :=
  (List.range 128).flatMap fun h =>
    let mine := ts.filter fun t => g.home t = h
    ((mine.map fun t => (g.thread t).pc).dedup).map fun pc => mine.filter fun t => (g.thread t).pc = pc

/-- The trailer of a line is verified for the ready threads that fetch it; on a mismatch they trap, those of a home warp at
one group together. -/
def execFetchCodeLine (w : Nat) (origin : W64) (line : Nat) (s : State) : Res :=
  let g := s.wgOf w
  let ts := (g.threads.filter fun p =>
    !p.2.ended && !p.2.parked && p.2.hold == .ready && g.origin p.2 == origin && lineOf p.2.pc.pkt == line).map Prod.fst
  match ts with
  | [] => .next s
  | t :: _ =>
    let va := lineVa origin line
    match s.fetchLine g (g.thread t).priv va with
    | (.ok _, s) => .next s
    | (.error e, s) => .next ((g.homeSets ts).foldl (fun s ts => s.trapWhole w ts (e, va)) s)

/-! ### The issue of a group -/

/-- Registers that `mdrv` writes beyond what its form names: as many as the target or a format word of a lane that acts
fixes. (DEDUCED, log 18.) -/
def mdrvNames (g : Workgroup) (ts : List Nat) (l : Layout) : List (Nat × Nat) :=
  if opOf l.w ≠ 0x1D6 then []
  else
    let words := (ts.map (laneAt g l.x.ctl.pfx)).filterMap fun y =>
      if y.act && (g.sig 0x1D6 l.x).any (fun sg => known sg l.x y .f) then some (fVal l.x y) else none
    let n := if drainTgt l.x ≠ 0 then 8 else (words.map (drainRegs l.x)).foldl max 2
    ((List.range n).drop 2).map fun i => (0, l.x.d.toNat + i)

/-- Words that are no instruction trap in every lane (R17, R341). -/
def State.illegalAll (s : State) : State :=
  match s.cur with
  | some c => s.modWg c.wg fun g => c.lanes.foldl (fun g t => g.trapLane c t (illegal c)) g
  | none => s

/-- Elements of a channel the group pops (R22). -/
def groupPops (ls : List (Nat × Layout)) (s : State) (q : Nat) : Nat :=
  (ls.map fun p => if p.2.err.isSome then 0 else ownPops (opOf p.2.w) p.2.x s q).sum

/-- The instruction at a slot becomes the current one. -/
def State.atSlot (s : State) (k : Nat) (l : Layout) : State :=
  { s with cur := s.cur.map fun c => { c with slot := k, word := l.w } }

/-- Why the group cannot issue yet (R229). -/
def State.groupBlock (s : State) (ls : List (Nat × Layout)) : Option Block :=
  (List.range ls.length).findSome? fun i =>
    ls[i]?.bind fun p =>
      if p.2.err.isSome then none
      else (s.atSlot p.1 p.2).blockOf (opOf p.2.w) p.2.x (groupPops ls s) (groupPops (ls.take i) s)

/-- The lanes that some instruction of the group must wait for are held before it. -/
def State.gateEach (s : State) (ls : List (Nat × Layout)) : State :=
  let pass (f : Nat → Args → State → State) (s : State) : State :=
    ls.foldl (fun s p => if p.2.err.isSome then s else f (opOf p.2.w) p.2.x (s.atSlot p.1 p.2)) s
  pass gateMeets (pass gateHolds s)

/-- The conditions of issue of every instruction of the group. -/
def State.gateGroup (s : State) (ls : List (Nat × Layout)) : State :=
  let s := s.gateEach ls
  s.putBack (s.groupBlock ls)

/-- The instructions of a group in slot order. -/
def runSlots (ex : Layout → State → Res) : List (Nat × Layout) → State → Res
  | [], s => .next s
  | p :: rest, s =>
    match if p.2.err.isSome then .next (s.atSlot p.1 p.2).illegalAll else ex p.2 (s.atSlot p.1 p.2) with
    | .next s => runSlots ex rest s
    | .fault r => .fault r
    | .refused r => .refused r

/-- An issue slot of the workgroup has passed, in which a formed warp was formed for the group at `pc`: waits, the number of
the formed warp, what `yield` waits for, the counter; `busy` issue earlier in the same clock (R97, R219, R230, R233).
(DESIGN CHOICE, log 62.) -/
def Workgroup.slotPassed (g : Workgroup) (pc : PC) (fw : Nat) (lanes busy : List Nat) : Workgroup :=
  { g.count 1 1 with
    threads := Tab.map (fun t (x : Thread) =>
      if lanes.contains t then { x with wait := 0, fw, fwWith := lanes }
      else match x.hold with
        | .ready => if x.isReady && !busy.contains t then { x with wait := x.wait + 1 } else { x with wait := 0 }
        | .yield gs n => { x with wait := 0, hold := .yield (gs.filter fun p => p != pc) (n + 1) }
        | _ => { x with wait := 0 }) g.threads }

/-- A replay of a memory access has completed in a lane, which leaves `%faultm` (R217). -/
def Workgroup.replayed (g : Workgroup) (tid : Nat) : Workgroup :=
  if (g.thread tid).memTrap then
    (g.modThread tid fun t => { t with memTrap := false }).modHw (g.home tid) fun h =>
      { h with faultm := setBit h.faultm (g.laneOf tid) false }
  else g

/-- A lane that trapped in the group: where it goes on is kept, and what it still owes. (DEDUCED, log 50.) -/
def Thread.afterTrap (c : Cur) (alone settle : Bool) (t : Thread) : Thread :=
  { t with
    stage := 0, trapStamp := c.stamp, contSettle := t.contSettle || settle, switched := false
    cont := some (if t.switched then if t.alone = [] then t.pc else t.cont.getD t.pc
      else if t.pc ≠ c.next then t.pc else t.cont.getD c.next)
    again := t.again ++ (if alone && !t.switched then t.alone.drop 1 else t.alone), alone := [] }

/-- A lane that executed one instruction alone goes on with the next, or to where it goes on. (DEDUCED, log 50.) -/
def Thread.afterAlone (next : PC) (t : Thread) : Thread :=
  let target := if t.pc ≠ next then t.pc else t.cont.getD next
  match t.alone.drop 1 with
  | [] => { t with alone := [], cont := none, contSettle := false, pc := target }
  | p :: rest => { t with alone := p :: rest, cont := some target, pc := p }

/-- A lane after the group: replay and settle. (DEDUCED, log 45.) -/
def Workgroup.afterGroup (g : Workgroup) (c : Cur) (alone settle : Bool) (tid : Nat) : Workgroup :=
  let t := g.thread tid
  if t.ended then g
  else if t.trapSlot.isSome then g.modThread tid (Thread.afterTrap c alone settle)
  else
    let g := if alone then g.replayed tid else g
    g.modThread tid fun t =>
      let settle := settle || (alone && t.contSettle && (t.alone.drop 1).isEmpty)
      let t := if alone && !t.switched then t.afterAlone c.next else t
      let t := { t with stage := 0, switched := false }
      if settle ∧ t.pend ≠ [] ∧ t.hold = .ready then { t with hold := .settle } else t

/-- The end of a group: traps, and arrivals at meetings (R25, R89, R341, R342). -/
def State.endGroup (s : State) (c : Cur) (alone settle : Bool) : State :=
  let s := s.modWg c.wg fun g => c.lanes.foldl (fun g t => g.afterGroup c alone settle t) g
  let g := s.wgOf c.wg
  let trapped := c.lanes.filter fun t => (g.thread t).trapSlot.isSome && !(g.thread t).ended
  let s := if trapped = [] then s else s.takeTraps c.wg trapped
  (s.arrive c.wg (c.lanes.filter fun t => !trapped.contains t)).settleAll.unblock

/-- The operations whose participants are ordered (R93, R110, R124). -/
def gathers (op : Nat) : Bool := decide (0x0E0 ≤ op ∧ op ≤ 0x0FE) || op == 0x04B || op == 0x144

/-- The lanes that issue execute the group. -/
def State.runGroup (ex : Layout → State → Res) (s : State) (c : Cur) (alone : Bool) (ls : List (Nat × Layout)) : Res :=
  let s := (s.startLanes c).modWg c.wg (·.count 0 1)
  let s := if ls.any fun p => gathers (opOf p.2.w) then
    ((s.wgOf c.wg).homeSets c.lanes).foldl (fun s ts => s.join c.wg ts) s else s
  let snap := if ls.length ≤ 1 then none else some (s.wgOf c.wg)
  match runSlots ex ls { s with cur := some { c with checked := true, snap } } with
  | .next s =>
    let settle := ls.any fun p => p.2.settle
    .next ({ s with cur := none }.endGroup c alone settle)
  | r => r

/-- The first instruction word of a group. -/
def firstWord (ls : List (Nat × Layout)) : W64 :=
  match ls with
  | [] => 0
  | p :: _ => p.2.w.setWidth 64

/-- The group of some ready threads at one PC, whose words are `ws`. -/
def State.issueWords (ex : Layout → State → Res) (s : State) (gr : Grant) (ts : List Nat) (t : Thread) (ws : List W32) :
    Res :=
  let alone := !t.alone.isEmpty
  let all := groupAt ws t.pc.slot
  let ls : List (Nat × Layout) := if alone then all.take 1 else all
  if !alone ∧ groupBad (s.wgOf gr.wg) (mdrvNames (s.wgOf gr.wg) ts) ls then
    .next (s.trapWhole gr.wg ts (0x01, firstWord ls))
  else
    let next := pcFrom t.pc.pkt (if alone then groupHolding ws t.pc.slot 3 0 else groupEnd t.pc.slot ls)
    let c : Cur := { wg := gr.wg, lanes := ts, pc := t.pc, next, slot := 0, word := 0, released := gr.released,
                     gathered := gr.gathered, fw := gr.fw, snap := none, all := ts, stamp := s.nextReq }
    let s := s.modWg gr.wg fun g => ts.foldl (fun g i => g.modThread i fun t => { t with pc := next }) g
    let s := { s with cur := some c, nextReq := s.nextReq + 1 }.gateGroup ls
    match s.cur with
    | none => .next s
    | some c => if c.lanes = [] then .next { s with cur := none } else s.runGroup ex c alone ls

/-- The next granted formed warp issues its group. (DESIGN CHOICE, log 1.) -/
def State.issueGroup (ex : Layout → State → Res) (s : State) : Res :=
  match s.granted with
  | [] => .next s
  | gr :: rest =>
    let g := s.wgOf gr.wg
    let live := gr.tids.filter fun i => let t := g.thread i; !t.ended && !t.parked && t.hold == .ready
    let owing := live.filter fun i => (g.thread i).owedNow && (g.thread i).user != .restoreHandler
    let s := { s with granted := rest }.trapOwed gr.wg owing
    let ts := live.filter fun i => !owing.contains i
    match ts with
    | [] => .next s
    | i :: _ =>
      let t := (s.wgOf gr.wg).thread i
      match s.fetchPacket (s.wgOf gr.wg) t t.pc.pkt with
      | (.error k, s) => .next (s.trapWhole gr.wg ts k)
      | (.ok ws, s) => s.issueWords ex gr ts t ws

/-! ### Choosing formed warps (R228 to R233) -/

/-- Threads that issue one group together: the same PC in the same code, all alone or none. -/
def Thread.sameGroup (a b : Thread) : Bool := a.pc == b.pc && a.priv == b.priv && a.alone == b.alone

/-- The lower PC. -/
def PC.lt (a b : PC) : Bool := decide (a.pkt < b.pkt) || (a.pkt == b.pkt && decide (a.slot < b.slot))

/-- Ready threads that belong to no release set and issue nothing yet in this clock. -/
def Workgroup.candidates (g : Workgroup) (busy : List Nat) : List Thread :=
  (g.threads.filter fun p =>
    p.2.isReady && !busy.contains p.1 && !(g.relSets.any fun r => r.tids.contains p.1)).map Prod.snd

/-- The longest wait among the threads of a group. -/
def groupWait (cs : List Thread) (t : Thread) : Nat :=
  (cs.filter fun x => x.sameGroup t).foldl (fun m x => max m x.wait) 0

/-- R231, 2 and 3: a thread of the PC group that issues next. -/
def pickGroup (cs : List Thread) : Option Thread :=
  match bestOf (fun x b => decide (b.wait < x.wait)) (cs.filter fun x => 63 ≤ x.wait) with
  | some t => some t
  | none =>
    let level := cs.foldl (fun m x => max m x.depth) 0
    bestOf (fun x b =>
      decide (groupWait cs b < groupWait cs x) || (groupWait cs x == groupWait cs b && x.pc.lt b.pc))
      (cs.filter fun x => x.depth = level)

/-- R232: the threads of the group that fill the lanes. -/
def fillLanes (g : Workgroup) (ts : List Thread) : List Nat :=
  (List.range g.hdr.width).filterMap fun i =>
    let here := ts.filter fun t => g.laneOf t.tid = i
    match bestOf (fun x b => decide (b.wait < x.wait)) (here.filter fun t => 63 ≤ t.wait) with
    | some t => some t.tid
    | none => here.head?.map (·.tid)

/-- A release set issues when all of its threads that are left can (R231). -/
def Workgroup.setReady (g : Workgroup) (busy : List Nat) (r : RelSet) : Bool :=
  !r.tids.isEmpty && r.tids.all fun t => (g.thread t).isReady && !busy.contains t

/-- R231: the threads of the next formed warp, whether they are a release set, and whether they are gathered. -/
def Workgroup.pick (g : Workgroup) (busy : List Nat) : Option (List Nat × Bool × Bool) :=
  let live (r : RelSet) : RelSet :=
    { r with tids := r.tids.filter fun t => let x := g.thread t; !x.ended && !x.parked }
  match (g.relSets.map live).find? (g.setReady busy) with
  | some r => some (r.tids, true, r.gathered)
  | none =>
    let cs := g.candidates busy
    (pickGroup cs).map fun t => (fillLanes g (cs.filter fun x => x.sameGroup t), false, false)

/-- Its threads may issue: not saved, not ending. -/
def Workgroup.issues (g : Workgroup) : Bool := g.status == .running || g.status == .preempting

/-- R233: the number of a formed warp, and the workgroup's next number. -/
def Workgroup.number (g : Workgroup) (ts : List Nat) (released : Bool) : Nat × Workgroup :=
  let lead := g.thread (ts.headD 0)
  if !released ∧ lead.fwWith = ts then (lead.fw, g) else (g.nextFw % 128, { g with nextFw := g.nextFw + 1 })

/-- The workgroups of a core. -/
def State.resident (s : State) (core : Nat) : List (Nat × Workgroup) :=
  s.wgs.filter fun p => p.2.core = core && p.2.issues

/-- The round robin a workgroup takes part in (R228). -/
def Workgroup.turn (g : Workgroup) : Nat := g.cls * 16 + g.level

/-- R228: workgroup `a` comes before `b`: starved, by class, by level, then in turn after the bind number last served of
its class and level. (DEDUCED, log 63.) -/
def comesFirst (rr : Tab Nat) (served : List Nat) (a b : Nat × Workgroup) : Bool :=
  let key (p : Nat × Workgroup) : List Nat :=
    [if 16 ≤ p.2.starved ∧ !served.contains p.1 then 0 else 1, p.2.cls, 31 - p.2.level,
     if (Tab.find rr p.2.turn).all fun n => decide (n < p.2.boundSeq) then 0 else 1,
     p.2.boundSeq]
  decide (List.lex (key a) (key b) (fun x y => decide (x < y)) = true)

/-- The group before a thread, when nothing stops its fetch. -/
def State.groupOf (s : State) (g : Workgroup) (t : Thread) : List (Nat × Layout) :=
  match (s.fetchPacket g t t.pc.pkt).1 with
  | .ok ws => let all := groupAt ws t.pc.slot; if t.alone.isEmpty then all else all.take 1
  | .error _ => []

/-- Why some threads cannot issue their group together now (R229); of threads that are to be held before the group, that
comes first. (DEDUCED, log 63.) -/
def State.cannotIssue (s : State) (w : Nat) (ts : List Nat) (released gathered : Bool) : Option Block :=
  let g := s.wgOf w
  match ts with
  | [] => none
  | i :: _ =>
    let t := g.thread i
    let ls := s.groupOf g t
    if t.alone.isEmpty && groupBad g (mdrvNames g ts) ls then none
    else
      let s : State := { s with
        cur := some { wg := w, lanes := ts, pc := t.pc, next := t.pc, slot := 0, word := 0, released, gathered
                      fw := 0, snap := none, all := ts, stamp := s.nextReq } }
      match s.groupBlock ls with
      | none => none
      | some why => if (s.gateEach ls).cur.any fun c => c.lanes == ts then some why else none

/-- The next formed warp of a workgroup, of threads whose group can issue; those of one that cannot are not ready (R229). -/
def State.pickOf (s : State) (w : Nat) (busy : List Nat) : Nat → Option (List Nat × Bool × Bool) × State
  | 0 => (none, s)
  | n + 1 =>
    match (s.wgOf w).pick busy with
    | none => (none, s)
    | some r =>
      match s.cannotIssue w r.1 r.2.1 r.2.2 with
      | none => (some r, s)
      | some why =>
        (s.modWg w fun g => r.1.foldl (fun g t => g.modThread t fun t => { t with blocked := some why }) g).pickOf w busy n

/-- One formed warp more in this clock; `busy` are the threads that already issue in it. (DEDUCED, log 63.) -/
def State.grantOne (s : State) (core lanes : Nat) (busy : List (Nat × Nat)) : Option Grant × State :=
  let mine (w : Nat) : List Nat := (busy.filter fun b => b.1 = w).map Prod.snd
  let (picks, s) := (s.resident core).foldl (fun (a : List ((Nat × Workgroup) × (List Nat × Bool × Bool)) × State) p =>
    if p.2.hdr.width ≤ lanes then
      match a.2.pickOf p.1 (mine p.1) (p.2.threads.length + 1) with
      | (some r, s) => (a.1 ++ [(p, r)], s)
      | (none, s) => (a.1, s)
    else a) ([], s)
  match bestOf (fun a b => comesFirst (s.coreOf core).rr (busy.map Prod.fst) a.1 b.1) picks with
  | none => (none, s)
  | some ((w, _), ts, released, gathered) =>
    let (n, g) := (s.wgOf w).number ts released
    (some { wg := w, tids := ts, fw := n, released, gathered },
      (s.modWg w fun _ => g.slotPassed (g.thread (ts.headD 0)).pc n ts (mine w)).modCore core fun c =>
        { c with rr := Tab.put c.rr g.turn g.boundSeq })

/-- The formed warps of one clock, at most 64 lanes of them. (DESIGN CHOICE, log 1; DEDUCED, log 63.) -/
def State.grants (core : Nat) : Nat → Nat → List (Nat × Nat) → State → List Grant × State
  | 0, _, _, s => ([], s)
  | n + 1, lanes, busy, s =>
    match s.grantOne core lanes busy with
    | (none, s) => ([], s)
    | (some gr, s) =>
      let w := (s.wgOf gr.wg).hdr.width
      let (rest, s) := State.grants core n (lanes - w) (busy ++ gr.tids.map fun t => (gr.wg, t)) s
      (gr :: rest, s)

/-- The core and its datapath run (R265). -/
def State.datapathAwake (s : State) (core : Nat) : Bool := s.awake (coreUnit core) && s.awake (datapathUnit core)

/-- A formed warp of the core could issue. -/
def State.canIssue (s : State) (core : Nat) : Bool :=
  !s.isWaking (coreUnit core) && !s.isWaking (datapathUnit core) &&
    (s.unblock.resident core).any fun p => (p.2.pick []).isSome

/-- A clock has passed for a workgroup: clocks parked on settles, and clocks with a ready thread and no slot.
(DESIGN CHOICE, log 62.) -/
def Workgroup.clock (g : Workgroup) (served : Bool) : Workgroup :=
  let g := if g.threads.any fun p => p.2.hold == .settle || p.2.hold == .implicit then g.count 5 1 else g
  { g with starved := if served ∨ (g.pick []).isNone then 0 else g.starved + 1 }

/-- R228. The formed warps are granted; they issue one after another in the steps that follow.
(DESIGN CHOICE, logs 1, 5.) -/
def execIssueClock (core : Nat) (s : State) : Res :=
  if !s.datapathAwake core then
    .next (((s.wakeUnit (coreUnit core)).wakeUnit (datapathUnit core)).modCore core fun c => { c with clk := c.clk + 1 })
  else
  let (gs, s) := State.grants core 4 64 [] s.unblock
  let s := (s.resident core).foldl (fun s p =>
    s.modWg p.1 fun g => g.clock (gs.any fun gr => gr.wg = p.1)) s
  .next { s.modCore core (fun c => { c with clk := c.clk + 1 }) with granted := s.granted ++ gs }

/-! ### Results (R24, R170) -/

/-- A result that waits on a deferred computation is there: its registers or the element it pushes, and its flags. -/
def Workgroup.settleDeferred (g : Workgroup) (tid id : Nat) : Workgroup :=
  match Tab.find g.defers id with
  | none => g
  | some d =>
    let o := deferredResult g d tid
    let g := { g with defers := Tab.erase g.defers id }
    let g := match sigOf d.op d.x, d.sinks.head? with
      | some sg, some .reg => g.arriveAll tid (regWrites sg d.x o.v o.carry)
      | _, some (.elem q i) => g.fill q i o.v
      | _, _ => g
    g.modThread tid (·.raise o.flags)

/-- The deferred computation has all its operands. -/
def Workgroup.deferReady (g : Workgroup) (id : Nat) : Bool :=
  match Tab.find g.defers id with
  | some d => d.lanes.all DLane.ready
  | none => true

/-- The threads that hold an entry with this one: of a scalar result, all of the home warp that issued it. -/
def Workgroup.sharers (g : Workgroup) (tid : Nat) (p : Pend) : List Nat :=
  if p.dests.any fun d => match d with | .s _ => true | _ => false then
    (g.threads.filter fun q => g.home q.1 = g.home tid && q.2.pend.contains p).map Prod.fst
  else [tid]

/-- An entry leaves the pending set. -/
def Workgroup.unpend (g : Workgroup) (ts : List Nat) (p : Pend) : Workgroup :=
  ts.foldl (fun g t => g.modThread t fun t => { t with pend := t.pend.erase p }) g

/-- The lanes of the execution an entry belongs to that have not returned: each thread with its entry. -/
def Workgroup.executed (g : Workgroup) (p : Pend) : List (Nat × Pend) :=
  g.threads.flatMap fun q =>
    (q.2.pend.filter fun e => e.stamp == p.stamp && e.pkt == p.pkt && e.slot == p.slot).map fun e => (q.1, e)

/-- Every lane of the execution has its reply. -/
def Workgroup.repliesIn (g : Workgroup) (p : Pend) : Bool :=
  (g.executed p).all fun q => match q.2.src with | .mem .. => false | _ => true

/-- The trap of a reply that failed, at the instruction that asked, wherever the thread stands now (R135, R341). In a trap
already, the thread takes the two in the order of their instructions; a trap of a whole group comes again when the group
issues again. (DEDUCED, log 27.) -/
def Thread.trapLate (p : Pend) (k : Cause) (t : Thread) : Thread :=
  let now : Thread := Thread.trap p.pkt p.slot k { t with trapSlot := none }
  match t.hold with
  | .trapping _ =>
    if t.wholeTrap then
      { now with memTrap := true, trapSlot := none, trapStamp := p.stamp, cont := some t.trapPc }
    else if decide (t.trapStamp < p.stamp) || (t.trapStamp == p.stamp && decide (t.trapPc.slot < p.slot)) then
      { t with again := t.again ++ [⟨p.pkt, p.slot⟩] }
    else { now with memTrap := true, trapSlot := none, trapStamp := p.stamp, again := t.trapPc :: t.again }
  | h =>
    { now with
      memTrap := true, hold := .ready, stage := 0, trapStamp := p.stamp, cont := some (t.cont.getD t.pc)
      contSettle := t.contSettle || h == .settle, again := t.again ++ t.alone, alone := [] }

/-- The thread is in the trap of an execution, and awaits its replay. -/
def Thread.trappedAt (p : Pend) (t : Thread) : Bool :=
  t.memTrap && t.trapStamp == p.stamp && t.trapPc == ⟨p.pkt, p.slot⟩

/-- The failed replies of one execution: its lanes trap together, and `%faultm` of each home warp becomes exactly the lanes of
it that trapped (R135, R342). (DEDUCED, log 27.) -/
def State.failReplies (s : State) (w : Nat) (p : Pend) : State :=
  let g := s.wgOf w
  let fs := (g.executed p).filterMap fun q =>
    match q.2.src with
    | .failed code va => some (q.1, q.2, ((code, va) : Cause))
    | _ => none
  let new := fs.filterMap fun f => match (g.thread f.1).hold with | .trapping _ => none | _ => some f.1
  let s := s.modWg w fun g =>
    let g := fs.foldl (fun g f => g.modThread f.1 fun t =>
      { Thread.trapLate f.2.1 f.2.2 t with pend := t.pend.erase f.2.1 }) g
    ((List.range 128).filter fun h => fs.any fun f => g.home f.1 == h).foldl (fun g h =>
      let ls := (g.threads.filter fun q => g.home q.1 == h && q.2.trappedAt p).map fun q => g.laneOf q.1
      g.modHw h fun x => { x with faultm := ls.foldl (fun m i => setBit m i true) 0 }) g
  s.takeTraps w new

/-- R24: the `k`-th pending instruction of a thread returns; failed replies of one execution together, once all of its replies
are in. (DEDUCED, log 27.) -/
def execResultReturn (w tid k : Nat) (s : State) : Res :=
  let g := s.wgOf w
  let done (s : State) : Res := .next s.settleAll.unblock
  match (g.thread tid).pend[k]? with
  | none => .next s
  | some p =>
    match p.src with
    | .ready vals fl => done (s.modWg w fun g => ((g.arriveAll tid vals).modThread tid (·.raise fl)).unpend (g.sharers tid p) p)
    | .chan id => if g.deferReady id then done (s.modWg w fun g => (g.settleDeferred tid id).unpend [tid] p) else .next s
    | .failed .. => if g.repliesIn p then done (s.failReplies w p) else .next s
    | .mem .. => .next s

/-- The result can return. -/
def pendReady (g : Workgroup) (p : Pend) : Bool :=
  match p.src with
  | .ready .. => true
  | .failed .. => g.repliesIn p
  | .chan id => g.deferReady id
  | .mem .. => false

end Sys2Proof.Machine
end

