-- ==== Sys2Proof/Machine/Release.lean ====
section
/-! DEFINITION. The end of every wait: meetings (R89), `elect` (R93), cross-lane operations (R110), `fqnt` (R124), `bar` with
its payload (R160, R161), `gbar` (R162), `mbwt` (R166), `waddr` (R153) and `yield` (R97). -/

namespace Sys2Proof.Machine

/-- Threads of a workgroup that a predicate picks, ascending. -/
def Workgroup.threadsWhere (g : Workgroup) (f : Thread → Bool) : List Nat := (g.threads.filter fun p => f p.2).map Prod.fst

/-- Threads are ready again, and issue together as release sets; `gathered` when their next group held them. -/
def Workgroup.release (g : Workgroup) (sets : List (List Nat)) (gathered : Bool := true) : Workgroup :=
  let g := (sets.flatten.foldl (fun g t => g.modThread t fun t => { t with hold := .ready }) g).unset sets.flatten
  { g with relSets := g.relSets ++ (sets.filter fun r => !r.isEmpty).map fun r => ⟨r, gathered⟩ }

/-! ### Meetings (R89) -/

/-- Threads of home warp `h` held at an address with a mask, in the program or in a handler (R343). -/
def Workgroup.heldAt (g : Workgroup) (h addr mask : Nat) (priv : Bool) : List Nat :=
  g.threadsWhere fun t => g.home t.tid == h && t.priv == priv && t.hold == .meeting addr mask

/-- The release condition: every thread whose bit is set is held there. -/
def Workgroup.meetingReady (g : Workgroup) (h addr mask : Nat) (priv : Bool) : Bool :=
  let held := g.heldAt h addr mask priv
  !held.isEmpty && (g.named h mask).all held.contains

/-- A released thread pops its meeting entry. (DEDUCED, log 39.) -/
def Thread.popMeet (t : Thread) : Thread :=
  if t.depth = 0 then { t with meet := 0, hold := .ready }
  else { t with
    depth := t.depth - 1, meet := Tab.get 0 t.entries (t.depth - 1)
    entries := Tab.erase t.entries (t.depth - 1), hold := .ready }

/-- Threads held at a meeting are released, and those that stand at their next meeting arrive there. -/
def State.releaseMeeting (s : State) (w h addr mask : Nat) (priv : Bool) : State :=
  if (s.wgOf w).meetingReady h addr mask priv then
    let held := (s.wgOf w).heldAt h addr mask priv
    let s := (s.join w held).modWg w fun g =>
      let g := held.foldl (fun g t => (g.modThread t Thread.popMeet).modHw h (·.setK mask (g.laneOf t) false)) g
      (g.release [held] false).count 2 1
    (s.arrive w held).unblock
  else s

/-- R89: Threads held at a meeting address are released together once the mask condition holds. -/
def execMeetingRelease (w h addr mask : Nat) (s : State) : Res :=
  .next ((s.releaseMeeting w h addr mask false).releaseMeeting w h addr mask true)

/-! ### `elect`, cross-lane operations, `fqnt` (R93, R110, R124) -/

def Workgroup.gathered (g : Workgroup) (h : Nat) (pc : PC) (priv : Bool) (why : Hold) (mask : Nat) : Bool :=
  let held := g.heldBefore h pc priv why
  !held.isEmpty && (g.named h mask).all held.contains

/-- A release of every mask that is complete at a group, of the program's threads and of those in a handler (R343); `why`
makes the hold of a mask. -/
def State.releaseMasks (s : State) (w h : Nat) (pc : PC) (why : Nat → Hold) : State :=
  [false, true].foldl (fun s priv => (List.range 12).foldl (fun s k =>
    if (s.wgOf w).gathered h pc priv (why k) k then
      (s.modWg w fun g => (g.release [g.heldBefore h pc priv (why k)]).count 2 1).unblock
    else s) s) s

/-- R93: Waiting threads of an elect continue together, the lowest active one receiving 1. -/
def execElectRelease (w h pkt slot : Nat) (s : State) : Res := .next (s.releaseMasks w h ⟨pkt, slot⟩ .elect)
/-- R110: Held threads of a cross-lane operation are released and issue it as one formed warp. -/
def execCrossLaneRelease (w h pkt slot : Nat) (s : State) : Res := .next (s.releaseMasks w h ⟨pkt, slot⟩ .cross)

/-- Threads of an octet held before an `fqnt`. -/
def Workgroup.heldFqnt (g : Workgroup) (octet : Nat) (pc : PC) (priv : Bool) : List Nat :=
  g.threadsWhere fun t => octetOf t.tid == octet && t.pc == pc && t.priv == priv && t.hold == .fqnt

def Workgroup.fqntReady (g : Workgroup) (octet : Nat) (pc : PC) (priv : Bool) : Bool :=
  let held := g.heldFqnt octet pc priv
  !held.isEmpty && (g.octetThreads octet).all held.contains

/-- R124: An octet held at fqnt is released and issues the quantisation together. -/
def execFqntRelease (w octet pkt slot : Nat) (s : State) : Res :=
  let pc : PC := ⟨pkt, slot⟩
  .next ([false, true].foldl (fun s priv =>
    if (s.wgOf w).fqntReady octet pc priv then
      (s.modWg w fun g => (g.release [g.heldFqnt octet pc priv]).count 2 1).unblock
    else s) s)

/-! ### `bar` (R160, R161) -/

/-- What a thread held at `bar` brought: whether it was active, the selector, D and A, and its mode. -/
structure BarThread where
  tid : Nat
  act : Bool
  sel : Nat
  d : Nat
  a : Nat
  mode : Mode
  deriving DecidableEq, Repr

/-- The threads held at `bar`. -/
def Workgroup.atBar (g : Workgroup) : List BarThread :=
  g.threads.filterMap fun p =>
    match p.2.hold with
    | .bar act sel d a mode => some ⟨p.1, act, sel, d, a, mode⟩
    | _ => none

/-- Every thread that has not ended is held at a `bar`, all of them in the program or all in the same handler (R343).
(DEDUCED, log 66.) -/
def Workgroup.barReady (g : Workgroup) : Bool :=
  match g.threads.filter fun p => !p.2.ended with
  | [] => false
  | p :: rest => (p :: rest).all fun q =>
    (match q.2.hold with | .bar .. => true | _ => false) && q.2.priv == p.2.priv && q.2.user == p.2.user

def barPay (sel : Nat) : Bool := sel.testBit 4
def barScan (sel : Nat) : Bool := sel.testBit 3
def barOpn (sel : Nat) : Nat := sel % 8

/-- The step of an operation of `bar`. -/
def barStep (opn : Nat) (mode : Mode) (a c : W64) : W64 × Flags :=
  match opn with
  | 0 => (a + c, 0)
  | 1 =>
    let (v, f) := opAdd fp32 mode (a.toNat % 2 ^ 32) (c.toNat % 2 ^ 32) 0
    (BitVec.ofNat 64 (v % 2 ^ 32), f)
  | 2 => (minS a c, 0)
  | 3 => (maxS a c, 0)
  | 4 => (minN a c, 0)
  | 5 => (maxN a c, 0)
  | 6 => (a &&& c, 0)
  | _ => (a ||| c, 0)

def barIdentity (opn : Nat) : W64 :=
  match opn with
  | 2 => 0x7FFFFFFFFFFFFFFF
  | 3 => 0x8000000000000000
  | 4 => BitVec.allOnes 64
  | 6 => BitVec.allOnes 64
  | _ => 0

/-- A contributing home warp: its number, its `bar`, its contribution. -/
abbrev BarPart := Nat × BarThread × W64

/-- The contribution as the operation reads it. -/
def barRead (opn : Nat) (c : W64) : W64 := if opn = 1 then BitVec.ofNat 64 (c.toNat % 2 ^ 32) else c

/-- The contributing home warps, ascending. -/
def Workgroup.barParts (g : Workgroup) : List BarPart :=
  let bs := g.atBar
  (List.range 128).filterMap fun h =>
    let mine := bs.filter fun b => g.home b.tid = h
    match mine.find? (·.act) with
    | some b => if barPay b.sel then some (h, b, (g.hw h).readS b.a) else none
    | none => none

/-- What each contribution receives: the values before each of them and after all, with the flags so far. -/
def barPrefixes (opn : Nat) (mode : Mode) : List W64 → W64 × Flags → List (W64 × Flags) × (W64 × Flags)
  | [], acc => ([], acc)
  | c :: cs, acc =>
    let (v, f) := barStep opn mode acc.1 c
    let (l, r) := barPrefixes opn mode cs (v, acc.2 ||| f)
    (acc :: l, r)

/-- R161: the value and flags of each contributing home warp. (DEDUCED, log 66.) -/
def barResults (parts : List BarPart) : List (Nat × Nat × W64 × Flags) :=
  match parts with
  | [] => []
  | (h0, b0, c0) :: rest =>
    let opn := barOpn b0.sel
    let (pre, fin) := barPrefixes opn b0.mode (rest.map fun p => barRead opn p.2.2) (barRead opn c0, 0)
    let own := if barScan b0.sel then (barIdentity opn, 0) :: pre else (List.replicate parts.length fin)
    ((h0, b0, c0) :: rest).zip own |>.map fun p => (p.1.1, p.1.2.1.d, p.2.1, p.2.2)

/-- R160: When every live thread is held at a bar, the payload is computed and all are released. (DEDUCED, log 66.) -/
def execBarRelease (w : Nat) (s : State) : Res :=
  let g := s.wgOf w
  if g.barReady then
    .next (((s.join w (g.atBar.map (·.tid))).modWg w fun g =>
      let bs := g.atBar
      let g := (barResults g.barParts).foldl (fun g r =>
        let g := g.modHw r.1 (·.writeS r.2.1 r.2.2.1)
        bs.foldl (fun g b => if b.act ∧ g.home b.tid = r.1 then g.modThread b.tid (·.raise r.2.2.2) else g) g) g
      g.release (g.homeSets (bs.map (·.tid)))).unblock)
  else .next s

/-! ### `gbar` (R162) -/

/-- The thread is held at `gbar`. -/
def Thread.atGbar (t : Thread) : Bool := t.hold == .gbar

/-- Every thread of every workgroup of the launch is held at `gbar`, or has ended, all of them in the program or all in the same
handler (R343); the successor of a workgroup that ended by `tail` is not of the launch. (DEDUCED, log 66.) -/
def State.gbarReady (s : State) (b : Nat) : Bool :=
  let gs := s.wgs.filter fun p => p.2.block = b && !p.2.byTail
  (match Tab.find s.regions b with | some r => r.bound == r.total | none => false) &&
  let live := (gs.flatMap fun p => List.map Prod.snd p.2.threads).filter fun t => !t.ended
  gs.all (fun p => p.2.status != .parked) &&
  match live with
  | [] => false
  | t :: _ => live.all fun y => y.atGbar && y.priv == t.priv && y.user == t.user

/-- R162: When every live thread of the launch is held at gbar, all are released. -/
def execGbarRelease (b : Nat) (s : State) : Res :=
  if s.gbarReady b then
    .next ({ s with
      wgs := Tab.map (fun _ (g : Workgroup) =>
        if g.block = b ∧ !g.byTail then g.release (g.homeSets (g.threadsWhere Thread.atGbar)) else g) s.wgs
      regions := Tab.modify s.regions b fun r => { r with gbarTick := s.hb } }).unblock
  else .next s

/-! ### `mbwt` (R166) -/

/-- PH of the awaited word differs from the parity. -/
def Workgroup.phaseOver (g : Workgroup) (t : Thread) : Bool :=
  match t.hold with
  | .mbwt off par => bitAt (g.word off) 32 != par
  | _ => false

/-- R166: A write completing the awaited phase releases threads held at mbwt. -/
def execMbwtRelease (w tid : Nat) (s : State) : Res :=
  if (s.wgOf w).phaseOver ((s.wgOf w).thread tid) then
    .next (s.modWg w fun g => g.modThread tid (·.pass)).unblock
  else .next s

/-! ### `waddr` (R153) -/

/-- A promoting acquire makes the last writer of the sector write its core-weak stores through (R138); the requests it
then waits for. (DEDUCED, log 37.) -/
def State.probeWriter (s : State) (pa : Nat) : List Nat × State :=
  match (Tab.get {} s.dir (sectorOf pa)).writer with
  | some k => s.flushCore k
  | none => ([], s)

/-- The value a `waddr` reads now. (DEDUCED, log 37.) -/
def State.pollValue (s : State) (g : Workgroup) (t : Thread) (va : W64) (k : Nat) : Option (Nat × W64) :=
  match (s.reach g t false va).1 with
  | .ok pa => some (pa, BitVec.ofNat 64 (natOfBytes (s.withWeak g.core g.ctx.asid pa (s.bytesAt pa k))))
  | .error _ => none

/-- R153: The held waddr read is repeated after each write-update and at least every 16 ticks. (DEDUCED, log 37.) -/
def execWaddrPoll (w tid : Nat) (s : State) : Res :=
  let g := s.wgOf w
  let t := g.thread tid
  let put (s : State) (f : Thread → Thread) : Res := .next (s.modWg w (·.modThread tid f)).unblock
  match t.hold with
  | .waddr va k want scope acq prom _ =>
    if (s.readStops g t va k).isSome then put s fun t => { t with hold := .ready }
    else
      match s.pollValue g t va k with
      | none => .next s
      | some (pa, v) =>
        let s := (s.countAt (dieOfCore g.core) pa).scrub (s.dieFor pa (dieOfCore g.core)) pa g.ctx.asid (some g.core)
        let (deps, s) := if prom then s.probeWriter pa else ([], s)
        if v = want ∧ s.answered deps then
          let s := if acq ∧ 1 ≤ scope then s.acquire g.core else s
          put s (·.pass)
        else put s fun t => { t with hold := .waddr va k want scope acq prom s.hb }
  | _ => .next s

/-- A read is due: 16 ticks have passed, or the value has come (a write-update of the sector brings it). -/
def State.pollDue (s : State) (g : Workgroup) (t : Thread) : Bool :=
  match t.hold with
  | .waddr va k want _ _ prom last =>
    decide (last.toNat + 16 ≤ s.hb.toNat) || (!prom && (s.readStops g t va k).isSome) ||
    (!prom && (s.pollValue g t va k).any fun p => p.2 == want)
  | _ => false

/-! ### `yield` (R97) -/

/-- Every other group has issued, 64 slots have passed, or no other thread is ready. -/
def Workgroup.yieldOver (g : Workgroup) (t : Thread) : Bool :=
  match t.hold with
  | .yield groups n => groups.isEmpty || decide (64 ≤ n) || !(g.threads.any fun p => p.1 != t.tid && p.2.isReady)
  | _ => false

/-- R97: A yielding thread becomes eligible again once other groups have issued or 64 slots passed; with it the others of its
workgroup for which that holds as well. -/
def execYieldResume (w tid : Nat) (s : State) : Res :=
  let g := s.wgOf w
  if g.yieldOver (g.thread tid) then
    let ts := g.threadsWhere g.yieldOver
    .next ((s.modWg w fun g => ts.foldl (fun g t => g.modThread t fun t => { t with hold := .ready }) g).arrive w ts).unblock
  else .next s

end Sys2Proof.Machine
end

