-- ==== Sys2Proof/Machine/Home.lean ====
section
/-! DEFINITION. What the homes do with requests (R296 to R316, R333, R381): reads and multicast windows, writes and their
updates to sharers, atomics and reductions, the answers and what they do at the core, the watch on state words (R248), and
placement and migration. -/

namespace Sys2Proof.Machine

/-! ### Requests at their home -/

def State.modReq (s : State) (id : Nat) (f : Req → Req) : State := { s with reqs := Tab.modify s.reqs id f }

/-- The next number of the order of events at the homes (R303). -/
def State.tickStamp (s : State) : Nat × State := (s.nextReq, { s with nextReq := s.nextReq + 1 })

/-- The die that answers a request, which is the requester's for an unhomed region (R297). -/
def State.homeOf (s : State) (r : Req) : Nat := s.dieFor r.pa (reqRow r).1

/-- The workgroup whose access a request is. -/
def Req.workgroup (r : Req) : Option Nat :=
  match r.by_ with
  | .thread w _ | .engine w _ => some w
  | .wb _ owners => (owners.head?).map (·.wg)
  | _ => none

/-- R264: an access of a workgroup to the other die counts for its region. -/
def State.countFar (s : State) (r : Req) : State :=
  match r.workgroup with
  | none => s
  | some w =>
    let die := (reqRow r).1
    if s.isOwn r.pa ∧ s.dieFor r.pa die ≠ die then
      { s with regions := Tab.modify s.regions (s.wgOf w).block fun x =>
        if die = 0 then { x with far0 := x.far0 + 1 } else { x with far1 := x.far1 + 1 } }
    else s

/-- A request that reaches its home in a cut-over is held (R315). -/
def State.heldBack (s : State) (id pa : Nat) : State :=
  match if s.isOwn pa then Tab.find s.homes (regionOf pa) else none with
  | some (.migrating src _ true ..) => s.modDie src fun d =>
    { d with migration := d.migration.map fun m => { m with held := m.held ++ [id] } }
  | _ => s

/-- A request has reached its home. -/
def State.arriveReq (s : State) (id : Nat) : State :=
  match Tab.find s.reqs id with
  | none => s
  | some r =>
    let (n, s) := s.tickStamp
    ((s.modReq id fun r => { r with state := .arrived, stamp := n }).countAt (reqRow r).1 r.pa).countFar r |>.heldBack id r.pa

/-- No cut-over of the region is under way (R315). -/
def State.open_ (s : State) (pa : Nat) : Bool :=
  !s.isOwn pa || match Tab.find s.homes (regionOf pa) with | some (.migrating _ _ cut ..) => !cut | _ => true

/-- The first of the writes, atomics and reductions that have arrived for the sector (R381). -/
def State.isFirst (s : State) (r : Req) : Bool :=
  s.reqs.all fun p => !(p.2.state == .arrived && p.2.kind.isWrite && sectorOf p.2.pa == sectorOf r.pa &&
    decide (p.2.stamp < r.stamp))

/-- Bytes of a response. -/
def respBytes (r : Req) : Nat :=
  16 + (match r.kind with | .read | .readAlone | .readSealed _ => 64 | .write | .red .. | .redw => 0 | _ => r.data.length)

/-- The response leaves; where no way back is known the answer is there at once. -/
def State.reply (s : State) (id : Nat) : State :=
  match Tab.find s.reqs id with
  | none => s
  | some r =>
    let (n, s) := s.tickStamp
    let s := s.modReq id fun r => { r with state := .replying, stamp := n, tick := s.hb }
    let (d, row) := reqRow r
    let cls := if r.err ≠ 0 then 0 else reqClass (s.deadline r) r
    match s.pathFrom d row r.pa with
    | none => s.modReq id fun r => { r with state := .done }
    | some hops =>
      { s with
        pkts := Tab.put s.pkts s.nextPkt
          { what := .resp id, hops := backPath hops, cls, plane := r.pa / 64 % 2, bytes := respBytes r }
        nextPkt := s.nextPkt + 1 }

/-- The first byte an access reaches. -/
def Req.first (r : Req) : Nat := r.pa + (if r.mask.any id then (r.mask.takeWhile fun b => !b).length else 0)

/-- The core of a request, if it is of one. -/
def Req.core? (r : Req) : Option Nat := match r.by_ with | .thread .. | .wb .. | .engine .. => some r.core | _ => none

/-- The log entry of a request that its home refuses (R347). -/
def State.logRefusal (s : State) (r : Req) (code cls : Nat) : State :=
  if !s.isOwn r.pa then s
  else if cls = 2 then s.logData (s.homeOf r) r.first r.asid r.core?
  else s.log (s.homeOf r) (logEntry r.first (s.sliceOf r.pa) 1 cls code r.asid r.core? 0 s.hb)

/-- An error response, with its log entry at the home (R347). -/
def State.refuse (s : State) (id code cls : Nat) : State :=
  match Tab.find s.reqs id with
  | none => s
  | some r =>
    let s := s.logRefusal r code cls
    (s.modReq id fun r => { r with err := code }).reply id

/-- The bytes of a write in its sector, and which they are. -/
def Req.sectorBytes (r : Req) : BitVec 512 × BitVec 64 :=
  let o := r.pa % 64
  let m : Nat := if r.mask = [] then (2 ^ r.data.length - 1) else
    (r.mask.zipIdx).foldl (fun acc p => if p.1 then acc + 2 ^ p.2 else acc) 0
  (sectorData (List.replicate o 0 ++ r.data), BitVec.ofNat 64 (m * 2 ^ o))

/-- Bytes of the core's own later stores to a sector, which stay core-weak: in the write buffer or in writes still out. -/
def State.laterOwn (s : State) (id : Nat) (r : Req) : BitVec 64 :=
  let key := l1Key r.asid (sectorOf r.pa)
  let wb := ((s.coreOf r.core).wb.filter fun e => e.key = key).foldl (fun m e => m ||| e.mask) 0
  (s.reqs.filter fun p => p.1 ≠ id && p.2.core = r.core && p.2.asid = r.asid && p.2.kind == .write &&
    sectorOf p.2.pa = sectorOf r.pa && (match p.2.state with | .waiting _ | .sent | .arrived => true | _ => false)).foldl
    (fun m p => m ||| p.2.sectorBytes.2) wb

/-! ### Answers at the core -/

/-- The bytes a reply holds for a thread, and its flags. (DEDUCED, log 104.) -/
def Req.valueFor (r : Req) (tid : Nat) : List Byte × Flags :=
  match r.kind with
  | .amo _ lanes =>
    let i := (lanes.takeWhile fun l => l.1 != tid).length
    ((r.data.drop (i * r.size)).take r.size, r.flags.getD i 0)
  | .wfin .. => (r.data, r.flags.headD 0)
  | _ =>
    ((List.range r.size).map fun i =>
      if r.mask.getD i false then r.data.getD i 0 else dataByte r.sect (r.pa % 64 + i), 0)

/-- The code a thread's access ended with: of an atomic, its lane may have been refused alone (R145). -/
def Req.errFor (r : Req) (tid : Nat) : Nat :=
  match r.kind with
  | .amo _ lanes =>
    if r.err = 0 ∧ r.refused.getD (lanes.takeWhile fun l => l.1 != tid).length false then 0x12 else r.err
  | _ => r.err

/-- The pending instructions that waited for a reply have it. -/
def Workgroup.answer (g : Workgroup) (id : Nat) (r : Req) : Workgroup :=
  { g with threads := Tab.map (fun t (x : Thread) =>
      { x with pend := x.pend.map fun p =>
        match p.src with
        | .mem q d f =>
          if q = id then
            if r.errFor t ≠ 0 then { p with src := .failed (r.errFor t) r.va }
            else
              let (bs, fl) := r.valueFor t
              { p with src := .ready (f.writes d bs) fl }
          else p
        | _ => p }) g.threads }

/-- A write of a thread has been acknowledged, or has failed: lost on a link to a peer or the host, else owed as a trap
(R139, R151). (DEDUCED, log 28.) -/
def Thread.acked (t : Thread) (id : Nat) (lost : Bool) (err : Nat) (va : W64) : Thread :=
  if t.writes.any fun w => w.req = id then
    let t := { t with writes := t.writes.filter fun w => w.req != id }
    if err = 0 then t else if lost then { t with lost := true } else t.fail { seq := id, code := err, va }
  else t

/-- A core-weak store of a thread that failed when it was written through (R139). (DEDUCED, log 28.) -/
def Thread.weakFailed (t : Thread) (lost : Bool) (err : Nat) (o : Owner) : Thread :=
  if t.ended then t else if lost then { t with lost := true } else t.fail { seq := o.seq, code := err, va := o.va }

/-- A reply fills the L1, and the Porch for a line of the other die or of the host; a sealed line, the Porch where it is not
homed on the die (R311). -/
def State.fillFrom (s : State) (r : Req) : State :=
  match r.kind with
  | .readSealed v =>
    let key := sealedKey v r.pa
    let s := s.fillSealed r.core key r.sect
    let d := dieOfCore r.core
    if s.isOwn r.pa && s.dieFor r.pa d == d then s
    else (s.roomPorch d true (key / 4)).modDie d fun x => { x with porchSealed := Tab.put x.porchSealed key r.sect }
  | _ => s.fillCopy r.core r.asid r.pa r.sect r.tick r.stamp

/-- A payload write of an engine command has been acknowledged, or has failed: the command's status, an entry for the
element (R288), and no flags of it (R286). -/
def State.engineAnswer (s : State) (w h id pa : Nat) (r : Req) : State :=
  let fails (c : Cmd) : Bool := r.err != 0 && c.status == 0 && !c.flushed
  let s := if (Tab.find (s.wgOf w).cmds h).any fails then
      s.log (dieOfCore r.core) (logEntry pa (r.core % 64) 4 7 r.err r.asid (some r.core) 0 s.hb) else s
  s.modWg w fun g => { g with cmds := Tab.modify g.cmds h fun c =>
    { c with
      deps := c.deps.filter fun q => q != id, status := if fails c then r.err else c.status
      puts := c.puts.filter fun p => r.err == 0 || p.key != (if p.through then id else sectorOf r.pa) } }

/-- What the requester does with the answer. -/
def State.hand (s : State) (id : Nat) (r : Req) : State :=
  let lost := r.err == 0x14 && !s.isOwn r.pa
  match r.by_ with
  | .thread w _ =>
    s.modWg w fun g => { g.answer id r with
      threads := Tab.map (fun _ (t : Thread) => t.acked id lost r.err r.va) (g.answer id r).threads }
  | .wb _ owners =>
    if r.err = 0 then s
    else owners.foldl (fun s o =>
      if engineOwner ≤ o.tid then s.engineAnswer o.wg (o.tid - engineOwner) id (r.pa + o.va.toNat % 64) r
      else s.modWg o.wg fun g => g.modThread o.tid fun t => t.weakFailed lost r.err o) s
  | .engine w h => s.engineAnswer w h id r.pa r
  | .host =>
    { s with out := s.out ++ [if r.kind.isWrite then .hostWrite (r.err = 0)
        else .hostRead r.va.toNat (r.err = 0) (if r.err = 0 then (r.valueFor 0).1 else [])] }
  | .peer n => { s with out := s.out ++ [.peer n (r.err = 0) (if r.err = 0 ∧ !r.kind.isWrite then (r.valueFor 0).1 else [])] }
  | .hearth => s

/-- The answer of a request has come back. An acquire raises the tick of its core, at die scope too, since what it makes visible
may have come from the other die (R326, R329). (DEDUCED, log 36.) -/
def State.answered_ (s : State) (id : Nat) : State :=
  match Tab.find s.reqs id with
  | none => s
  | some r =>
    let s := { s with reqs := Tab.erase s.reqs id }
    let s := if r.err = 0 ∧ r.fill ∧ !r.kind.isWrite then s.fillFrom r else s
    let s := if r.err = 0 ∧ (r.acq.any fun sc => decide (1 ≤ sc)) then s.acquire r.core else s
    let s := if r.err ≠ 0 ∧ r.kind = .write ∧ r.core < 128 then
        let m := r.sectorBytes.2 &&& ~~~(s.laterOwn id r)
        s.modCore r.core fun c => { c with l1 := Tab.modify c.l1 (l1Key r.asid (sectorOf r.pa)) fun x =>
          { x with valid := x.valid &&& ~~~m, weak := x.weak &&& ~~~m } }
      else s
    ((s.hand id r).wake).unblock

/-! ### Reads (R141, R143, R306) -/

/-- Byte of a sealed range under a version. -/
def State.sealedUnder (s : State) (pa version : Nat) : Bool :=
  s.seals.any fun r => r.version == version && decide (r.pa ≤ pa ∧ pa < r.pa + r.len)

/-- An address is sealed under a version: by a seal of this device; at a peer, as that peer says. (DESIGN CHOICE, log 60.) -/
def State.isSealed (s : State) (pa version : Nat) : Bool :=
  if s.isOwn pa then s.sealedUnder pa version
  else !isHost pa && Config.peerSealed (sectorOf pa) version s.hb.toNat

/-- What stops a read at its home: code and class of the log entry. -/
def State.readError (s : State) (r : Req) : Option (Nat × Nat) :=
  match r.kind with
  | .readSealed v => if !s.isSealed r.pa v then some (0x11, 3) else if s.isBad r.pa then some (0x13, 2) else none
  | _ => if s.isBad r.pa then some (0x13, 2) else none

/-- The host holds a line it has read (R406). -/
def State.hostHas (s : State) (pa : Nat) : State :=
  let sec := sectorOf pa
  { s with dir := Tab.set {} s.dir sec { Tab.get {} s.dir sec with host := true } }

/-- A home reads a sector for a request: an error that its check data corrects is logged (R347). -/
def State.scrubFor (s : State) (r : Req) : State := s.scrub (s.homeOf r) r.first r.asid r.core?

/-- A read is served with the sector as it stands; a fill makes the core a sharer (R301). (DEDUCED, log 104.) -/
def State.readNow (s : State) (id : Nat) : State :=
  match Tab.find s.reqs id with
  | none => s
  | some r =>
    match s.readError r with
    | some (code, cls) => s.refuse id code cls
    | none =>
      let s := if r.fill then (s.scrubFor r).share r.core r.pa else s.scrubFor r
      let s := if r.by_ = .host then s.hostHas r.pa else s
      (s.modReq id fun r => { r with sect := sectorData (s.bytesAt (sectorOf r.pa * 64) 64) }).reply id

/-- A read that opens or joins a window (R306). -/
def State.windowed (s : State) (r : Req) : Bool :=
  (match r.kind with | .read | .readSealed _ => true | _ => false) && r.acq.isNone && !s.deadline r && s.isOwn r.pa

/-- A read joins the multicast window of its sector (R306). (DESIGN CHOICE, log 61.) -/
def State.joinWindow (s : State) (id : Nat) (r : Req) : State :=
  match s.windows.find? fun p => p.2.sector = sectorOf r.pa with
  | some (w, _) =>
    { s.modReq id (fun r => { r with state := .windowed w }) with
      windows := Tab.modify s.windows w fun x => { x with reqs := x.reqs ++ [id] } }
  | none =>
    let w := Tab.fresh s.windows
    { s.modReq id (fun r => { r with state := .windowed w }) with
      windows := Tab.put s.windows w { sector := sectorOf r.pa, reqs := [id], opened := s.hb } }

/-- A promoting acquire whose last writer has still to be asked (R138). -/
def State.mustProbe (s : State) (r : Req) : Bool :=
  r.prom && r.acq.isSome && (Tab.get {} s.dir (sectorOf r.pa)).writer.isSome

/-- R306: A read miss reaches the home slice and opens or joins a multicast window; a read that was lost is answered. -/
def execHomeRead (id : Nat) (s : State) : Res :=
  match Tab.find s.reqs id with
  | some r =>
    if r.state = .done ∧ !r.kind.isWrite then .next (s.answered_ id)
    else if r.state ≠ .arrived ∨ r.kind.isWrite ∨ !s.open_ r.pa then .next s
    else if s.mustProbe r then .next (s.modReq id fun r => { r with state := .probing })
    else if s.windowed r then .next (s.joinWindow id r)
    else .next (s.readNow id)
  | none => .next s

/-- The readers of one window on its home die are answered by one packet (R392); those across are answered each. In a cut-over
of the region the window stays (R315). (DESIGN CHOICE, log 61.) -/
def execMulticastWindowEnd (w : Nat) (s : State) : Res :=
  match Tab.find s.windows w with
  | none => .next s
  | some x =>
    if !s.open_ (x.sector * 64) then .next s else
    let s := { s with windows := Tab.erase s.windows w }
    let near := x.reqs.filter fun id => (Tab.find s.reqs id).any fun r => (reqRow r).1 == s.homeOf r && (s.readError r).isNone
    let far := x.reqs.filter fun id => !near.contains id
    let s := far.foldl (fun s id => s.readNow id) s
    let s := near.foldl (fun s id =>
      match Tab.find s.reqs id with
      | none => s
      | some r =>
        let s := if r.fill then (s.scrubFor r).share r.core r.pa else s.scrubFor r
        let (n, s) := s.tickStamp
        s.modReq id fun r => { r with
          sect := sectorData (s.bytesAt (sectorOf r.pa * 64) 64), state := .replying, stamp := n, tick := s.hb }) s
    match near.findSome? fun id => Tab.find s.reqs id with
    | none => .next s
    | some r =>
      let rows := (List.range 24).filter fun row =>
        near.any fun id => (Tab.find s.reqs id).any fun q => (reqRow q).2 = row
      .next { s with
        pkts := Tab.put s.pkts s.nextPkt
          { what := .multi near, hops := rows.map fun row => .hall (s.homeOf r) (64 + row) (s.sliceOf r.pa), cls := 1
            plane := r.pa / 64 % 2, bytes := 80 }
        nextPkt := s.nextPkt + 1 }

/-- The last writer writes its core-weak stores through; the acquire is read once they are acknowledged. -/
def execPromotionProbe (id : Nat) (s : State) : Res :=
  match Tab.find s.reqs id with
  | some r =>
    if r.state ≠ .probing then .next s
    else
      let (deps, s) := s.probeWriter r.pa
      if deps = [] then .next ((s.modReq id fun r => { r with prom := false }).readNow id)
      else .next (s.modReq id fun r => { r with prom := false, state := .waiting deps })
  | none => .next s

/-! ### Applying a write (R302, R309) -/

/-- The writer's L1 after its write is applied: the bytes are no longer core-weak, and stay only where they are kept
current (`keep`). (DEDUCED, log 57.) -/
def Core.applied (c : Core) (key : Nat) (m : BitVec 64) (keep : Bool) : Core :=
  { c with l1 := Tab.modify c.l1 key fun x =>
      { x with weak := x.weak &&& ~~~m, valid := if keep then x.valid else x.valid &&& ~~~(m &&& x.weak) } }

/-- Bytes of a sector that are not core-weak leave an L1. -/
def Core.dropBytes (c : Core) (sector : Nat) (m : BitVec 64) : Core :=
  { c with l1 := Tab.map (fun key (x : Sector) =>
      if key % 2 ^ 46 = sector then { x with valid := x.valid &&& (~~~m ||| x.weak) } else x) c.l1 }

/-- Copies of a remote line are dropped (an atomic's result is not cached, R309). (DEDUCED, log 57.) -/
def State.dropCopies (s : State) (die sector : Nat) (m : BitVec 64) : State :=
  let s := { s with cores := Tab.map (fun c (k : Core) => if dieOfCore c = die then k.dropBytes sector m else k) s.cores }
  s.modDie die fun d => { d with porch := Tab.modify d.porch (sector / 4) fun x =>
    { x with sects := Tab.erase x.sects (sector % 4) } }

/-- A write takes its place in H(x): memory, home, directory, copies, and the updates of the sharers.
(DEDUCED, log 57.) -/
def State.applyWrite (s : State) (id : Nat) (r : Req) (data : BitVec 512) (m : BitVec 64) : State :=
  let sec := sectorOf r.pa
  let die := (reqRow r).1
  let own := s.isOwn r.pa
  let s := if own then s.homeRegion r.pa die r.huge else s
  let remote := own && s.dieFor r.pa die != die
  let e := Tab.get {} s.dir sec
  let local_ := own && s.dieFor r.pa die == die && r.core < 128 && e.sharers.getLsbD (r.core % 64)
  let s := { s with
    mem := (List.range 64).foldl (fun t i =>
      if m.getLsbD i then Tab.set 0 t (sec * 64 + i) (dataByte data i) else t) s.mem
    bad := if m = BitVec.allOnes 64 then s.bad.filter (fun x => x != sec) else s.bad
    soft := if m = BitVec.allOnes 64 then s.soft.filter (fun x => x != sec) else s.soft
    dir := if own then Tab.set {} s.dir sec { e with writer := if r.core < 128 then some r.core else none } else s.dir }
  let key := l1Key r.asid sec
  let keep := isHost r.pa || local_ || (remote && (Tab.get noSector (s.coreOf r.core).l1 key).remote)
  let mine (c : Nat) : Bool := c == r.core || (remote && dieOfCore c == die) || isHost r.pa
  let later := s.laterOwn id r
  let s := (s.maskUpds sec m mine).cancelFills sec mine
  let s := if r.core < 128 then s.modCore r.core fun c => c.applied key (m &&& ~~~later) keep else s
  let s :=
    if remote && !(r.kind == .write) then s.dropCopies die sec m
    else { s with
      cores := Tab.map (fun c (k : Core) => if mine c then k.patch sec data m else k) s.cores
      dies := Tab.map (fun d (x : Die) => if (remote && d == die) || isHost r.pa then x.patch sec data m else x) s.dies }
  let others := if own then (coresOf (s.dieFor r.pa die) e.sharers).filter fun c => c != r.core else []
  others.foldl (fun s c =>
    { s with upds := Tab.put s.upds s.nextReq { req := id, core := c, sector := sec, data, mask := m }
             nextReq := s.nextReq + 1 }) s

/-- Bytes written at once by a unit that is no core (see `applyNow`), which home an unhomed region. -/
def State.writeAtHome (s : State) (die pa : Nat) (bs : List Byte) : State :=
  (if s.isOwn pa then s.homeRegion pa die false else s).applyNow pa bs

/-! ### The state words of blocks (R248, R250, R415) -/

/-- The registered table and the virtual address of the block at a physical address. -/
def State.blockAt (s : State) (pa : Nat) : Option (Nat × RTable × Nat) :=
  s.tables.findSome? fun p =>
    (List.range ((p.2.len + 4095) / 4096)).findSome? fun i =>
      let va := p.2.base + i * 4096 + pa % 4096 / 256 * 256
      if va < p.2.base + p.2.len ∧ s.lookup p.2.ctx va = some (pa / 256 * 256) then some (p.1, p.2, va) else none

/-- Bytes of a write lie in the state word of a block of a registered table. -/
def State.hitsState (s : State) (sector : Nat) (m : BitVec 64) : Bool :=
  sector % 4 == 0 && bitsNat m 3 0 != 0 && (s.blockAt (sector * 64)).isSome

/-- The transitions software may write. -/
def stateWriteOk (old new : Nat) (deregistering : Bool) : Bool :=
  (old == 0 && new == 1 && !deregistering) || ((old == 4 || old == 5) && new == 0)

/-- A write that touches a state word: none if it is discarded, else whether it arms the block. -/
def State.stateWrite (s : State) (sector : Nat) (data : BitVec 512) (m : BitVec 64) : Option Bool :=
  let old := sectorData (s.bytesAt (sector * 64) 64)
  let new := bitsNat (mergeData old data m) 31 0
  let dereg := (s.blockAt (sector * 64)).any fun p => p.2.1.deregistering
  if stateWriteOk (bitsNat old 31 0) new dereg then some (new == 1) else none

/-- The watch bit signals the Hearth. -/
def State.signal (s : State) (sector : Nat) : State :=
  match s.blockAt (sector * 64) with
  | some (_, t, _) => s.arm t (sector * 64)
  | none => s

/-! ### Writes (R302, R347, R406) -/

/-- What stops a write at its home. (DEDUCED, log 81.) -/
def State.writeError (s : State) (r : Req) (m : BitVec 64) : Option (Nat × Nat) :=
  if (List.range 64).any fun i => m.getLsbD i && s.sealedAt (sectorOf r.pa * 64 + i) 1 then some (0x12, 4)
  else if s.isBad r.pa && m != BitVec.allOnes 64 then some (0x13, 2)
  else none

/-- The host may hold the line: it is asked to give it up first. (DEDUCED, log 59.) -/
def State.hostHolds (s : State) (pa : Nat) : Bool :=
  s.isOwn pa && (Tab.get {} s.dir (sectorOf pa)).host

/-- The host is asked to give up a line before a write to it (R406). (DEDUCED, log 59.) -/
def State.snoop (s : State) (pa : Nat) : State :=
  let l := sectorOf pa
  if s.snoops.contains l then s else { s with snoops := s.snoops ++ [l], out := s.out ++ [.snoop l] }

/-- The bytes a write request changes, when it is its turn. -/
def State.turn (s : State) (r : Req) : Bool := r.state == .arrived && s.open_ r.pa && s.isFirst r

def State.applyReq (s : State) (id : Nat) (r : Req) (data : BitVec 512) (m : BitVec 64) : State :=
  let s := if m = BitVec.allOnes 64 then s else s.scrubFor r
  (s.applyWrite id r data m).modReq id fun r => { r with state := .applied }

/-- R302: A write reaching its home slice is applied in H(x) and forwarded to sharers. (DEDUCED, log 104.) -/
def execHomeWriteApply (id : Nat) (s : State) : Res :=
  match Tab.find s.reqs id with
  | some r =>
    let (data, m) := r.sectorBytes
    if r.kind ≠ .write ∨ !s.turn r ∨ s.hitsState (sectorOf r.pa) m then .next s
    else
      match s.writeError r m with
      | some (code, cls) => .next (s.refuse id code cls)
      | none => if s.hostHolds r.pa then .next (s.snoop r.pa) else .next (s.applyReq id r data m)
  | none => .next s

/-- R248: A write to a block's state word is checked at its home and applied or discarded. -/
def execStateWordWrite (id : Nat) (s : State) : Res :=
  match Tab.find s.reqs id with
  | some r =>
    let (data, m) := r.sectorBytes
    let sec := sectorOf r.pa
    if r.kind ≠ .write ∨ !s.turn r ∨ !s.hitsState sec m then .next s
    else
      match s.writeError r m with
      | some (code, cls) => .next (s.refuse id code cls)
      | none =>
        if s.hostHolds r.pa then .next (s.snoop r.pa)
        else
          match s.stateWrite sec data m with
          | none => .next (s.refuse id 0x11 3)
          | some arms =>
            let s := s.applyReq id r data m
            .next (if arms then s.signal sec else s)
  | none => .next s

/-- An update is applied after older updates of the sector and after a fill that was served before it (R303). -/
def State.updReady (s : State) (u : Nat) (x : Upd) : Bool :=
  (s.upds.all fun p => !(p.2.core == x.core && p.2.sector == x.sector && decide (p.1 < u))) &&
  s.reqs.all fun p => !(p.2.state == .replying && p.2.fill && p.2.core == x.core && sectorOf p.2.pa == x.sector &&
    decide (p.2.stamp < u))

/-- R302: A sharer applies forwarded bytes except its own core-weak bytes and answers. -/
def execSharerUpdate (u : Nat) (s : State) : Res :=
  match Tab.find s.upds u with
  | some x =>
    if s.updReady u x then
      .next { s.modCore x.core (fun c => c.patch x.sector x.data x.mask) with upds := Tab.erase s.upds u }
    else .next s
  | none => .next s

/-- Every sharer has answered. -/
def State.updated (s : State) (id : Nat) : Bool := s.upds.all fun p => p.2.req != id

/-- R302: The writer receives the acknowledgement after every sharer has answered; of a write that was lost, the error. -/
def execWriteAck (id : Nat) (s : State) : Res :=
  match Tab.find s.reqs id with
  | some r =>
    if r.state = .applied ∧ s.updated id then .next (s.reply id)
    else if r.state = .done ∧ r.kind.isWrite then .next (s.answered_ id)
    else .next s
  | none => .next s

/-! ### Atomics, reductions and windows (R145, R147 to R149, R381) -/

/-- What a request at the reduction unit does to `old`: the bytes of its reply, its flags, and the new value. -/
def Req.operate (r : Req) (old : Nat) : List Byte × List Flags × Option Nat :=
  match r.kind with
  | .amo opn lanes =>
    let w := amoOperand opn r.size
    let ops := lanes.zipIdx.map fun p => (p.1.2, (r.data.drop (p.2 * w)).take w)
    let (vals, new) := amoLanes opn r.size old ops
    (vals.flatMap fun v => bytesOfNat v.1 r.size, vals.map (·.2), new)
  | .red opn mode => ([], [], (amoStep opn r.size mode old (natOfBytes r.data) 0).1)
  | .redw => ([], [], some ((old + natOfBytes r.data) % 2 ^ 64))
  | .wfin f32 e mode =>
    let slot := BitVec.ofNat 64 old
    if f32 then
      let (v, f) := windowF32 mode slot e
      (bytesOfNat v.toNat 4, [f], some 0)
    else
      let (v, f) := windowS64 mode slot e
      (bytesOfNat v.toNat 8, [f], some 0)
  | _ => ([], [], none)

/-- The lanes of a `cas` that would write, if `old` stays (R145). -/
def Req.casHits (r : Req) (old : Nat) : List Bool :=
  match r.kind with
  | .amo _ lanes => (List.range lanes.length).map fun i =>
    natOfBytes ((r.data.drop (i * amoOperand 10 r.size)).take r.size) == old
  | _ => []
def Req.isCas (r : Req) : Bool := match r.kind with | .amo 10 _ => true | _ => false

/-- A `cas` on a sealed range reads in every lane; only the lanes that would write are refused (R145). (DEDUCED, log 107.) -/
def State.casSealed (s : State) (id : Nat) (r : Req) : State :=
  let old := s.natAt r.pa r.size
  let hits := r.casHits old
  let s := s.scrubFor r
  let s := if hits.any fun b => b then s.logRefusal r 0x12 4 else s
  s.modReq id fun r => { r with
    data := hits.flatMap (fun _ => bytesOfNat old r.size), flags := hits.map (fun _ => 0), refused := hits, state := .applied }

/-- R381: The home reduction unit applies one atomic, reduction or window request in arrival order. -/
def execReductionUnitApply (id : Nat) (s : State) : Res :=
  match Tab.find s.reqs id with
  | some r =>
    let o := r.pa % 64
    let m := spanMask o r.size
    let sec := sectorOf r.pa
    if !r.kind.atHome ∨ !s.turn r then .next s
    else
      match s.writeError r m with
      | some (code, cls) =>
        let isBad := s.isBad r.pa
        .next
          (if r.isCas ∧ code = 0x12 ∧ !isBad then s.casSealed id r
           else if r.isCas then s.refuse id 0x13 2
           else s.refuse id code cls)
      | none =>
        if s.hostHolds r.pa then .next (s.snoop r.pa)
        else
          let s := s.scrubFor r
          let (bs, fl, new) := r.operate (s.natAt r.pa r.size)
          let s' := s.modReq id fun r => { r with data := bs, flags := fl, state := .applied }
          match new with
          | none => .next s'
          | some v =>
            let data := sectorData (List.replicate o 0 ++ bytesOfNat v r.size)
            if s.hitsState sec m then
              match s.stateWrite sec data m with
              | none => .next (s.refuse id 0x11 3)
              | some arms =>
                let s' := s'.applyWrite id r data m
                .next (if arms then s'.signal sec else s')
            else .next (s'.applyWrite id r data m)
  | none => .next s

/-- A packet has passed its last hop. -/
def State.delivered (s : State) (what : PktWhat) : State :=
  match what with
  | .req id => s.arriveReq id
  | .resp id => s.answered_ id
  | .multi ids => ids.foldl (fun s id => s.answered_ id) s

/-! ### Time at the caches (R5, R300, R304, R310) -/

/-- The heartbeat has advanced for a thread at `fsc` (R152). -/
def Thread.tick (hb : W64) (t : Thread) : Thread :=
  match t.hold with
  | .fsc _ => { t.pass (2 - t.passed t.heldSlot) with fscTick := hb }
  | _ => t

/-- R5: The 64-bit heartbeat advances every 27.8 ns. (DESIGN CHOICE, log 5.) -/
def execHeartbeatTick (s : State) : Res :=
  let hb := s.hb + 1
  let clk0 := s.clk0 + (64 - s.clockScale)
  .next ({ s with
    hb := hb, clk0 := clk0
    cores := Tab.map (fun _ (c : Core) => { c with clk := max c.clk clk0 }) s.cores
    wgs := Tab.map (fun _ (g : Workgroup) => { g with threads := Tab.map (fun _ t => Thread.tick hb t) g.threads }) s.wgs }).unblock

/-- Write-buffer entries of a sector that are 512 clocks old. -/
def Core.timedOut (c : Core) (sector : Nat) : List WbEntry :=
  c.wb.filter fun e => sectorOf e.pa = sector && decide (e.clk + 512 ≤ c.clk)

/-- R300: A core-weak store is written through 512 ck after entering the write buffer. -/
def execWriteThroughTimeout (core sector : Nat) (s : State) : Res :=
  .next (((s.coreOf core).timedOut sector).foldl (fun s e => (s.flushEntry core e).2) s)

/-- R304: A sharer receiving a drop writes through its core-weak bytes and discards the sector.
(DESIGN CHOICE, log 29.) -/
def execDirectoryDrop (sector core : Nat) (s : State) : Res :=
  if ((Tab.get {} s.dir sector).sharers.getLsbD (core % 64)) && dieOfCore core == s.dieFor (sector * 64) (dieOfCore core) then
    .next (s.dropAt core sector)
  else .next s

/-- R310: A remote line and its L1 sectors are dropped 8,192 ticks after their fill tick. -/
def execPorchLineExpire (die line : Nat) (s : State) : Res :=
  let s := s.modDie die fun d => { d with porch := d.porch.filter fun p => !(p.1 == line && aged s.hb p.2.tick) }
  .next ((s.cores.filter fun k => dieOfCore k.1 == die).foldl (fun s k =>
    s.evict k.1 fun key => (Tab.find k.2.l1 key).any fun x => x.remote && key % 2 ^ 46 / 4 == line && aged s.hb x.tick) s)

/-- A walk for a context (R318); its fault is logged. (DEDUCED, log 96.) -/
def execPageWalk (core asid : Nat) (va : W64) (s : State) : Res :=
  match s.tables.find? fun p => p.2.ctx.asid = asid with
  | some (_, t) =>
    if 2 ^ 48 ≤ va.toNat then .next s
    else .next (s.walk core asid t.ctx.root va.toNat ⟨false, false, true⟩).2
  | none => .next s

/-! ### Placement and migration (R313 to R316) -/

/-- A page table maps a region by a leaf with N = 1, or by a page of 1 GiB. -/
def State.tablePins (s : State) (region : Nat) : Nat → Nat → Bool
  | 0, _ => false
  | l + 1, t =>
    (List.range 512).any fun i =>
      let e := BitVec.ofNat 64 (s.natAt (t + 8 * i) 8)
      let pa := bitsNat e 51 12 * 4096
      bitAt e 0 && (
        if l = 0 ∨ (bitAt e 4 ∧ l < 3) then
          s.isOwn pa && (bitAt e 6 || l == 2) &&
            decide (regionOf pa ≤ region ∧ region * 2 ^ 21 < localOf pa + 2 ^ (12 + 9 * l))
        else s.tablePins region l pa)

/-- Bytes at a virtual range of a context lie in a region. -/
def State.rangeIn (s : State) (ctx : Ctx) (base len region : Nat) : Bool :=
  len != 0 && (List.range ((base + len - 1) / 4096 - base / 4096 + 1)).any fun i =>
    (s.lookup ctx ((base / 4096 + i) * 4096)).any fun pa => s.isOwn pa && regionOf pa == region

/-! ### Blocks in memory (R245 to R247) -/

/-- A field of a block. -/
def State.rcb (s : State) (pa off k : Nat) : Nat := s.natAt (pa + off) k

/-- Blocks a table can hold. -/
def RTable.blocks (t : RTable) : Nat := t.len / 256

/-- R246: the nearest block from `pa` upwards whose bit of a group is clear. -/
def State.supplier (s : State) (t : RTable) (b : Nat) : Nat → Nat → Option Nat
  | 0, _ => none
  | n + 1, pa =>
    if !(s.rcb pa 4 4).testBit b then some pa
    else
      match s.parentOf t pa with
      | some p => s.supplier t b n p
      | none => none

/-- A block with its inheritance resolved at this moment. -/
def State.resolve (s : State) (t : RTable) (pa : Nat) : Resolved :=
  let from_ (b : Nat) : Option Nat := s.supplier t b (t.blocks + 1) pa
  let at_ (b off k d : Nat) : Nat := ((from_ b).map fun p => s.rcb p off k).getD d
  { cls := at_ 0 33 1 2, level := at_ 0 34 1 0, fdp := at_ 1 35 1 0, fhnd := BitVec.ofNat 64 (at_ 1 112 8 0),
    maxCores := at_ 2 40 2 0, maxThr := at_ 2 44 4 0, maxSpad := at_ 2 48 4 0, kernel := BitVec.ofNat 64 (at_ 3 56 8 0),
    argLen := at_ 4 52 4 0, args := BitVec.ofNat 64 (at_ 4 64 8 0), gx := at_ 5 72 4 1, gy := at_ 5 76 4 1, gz := at_ 5 80 4 1,
    aff := (List.range 4).map fun i => (at_ 6 (128 + 16 * i) 8 0, at_ 6 (136 + 16 * i) 8 0),
    period := at_ 7 192 8 0, dbud := at_ 7 200 8 0 }

/-- R314: the region stays where it is. -/
def State.pinned (s : State) (region : Nat) : Bool :=
  (s.tables.any fun p => s.tablePins region 4 p.2.ctx.root || s.rangeIn p.2.ctx p.2.base p.2.len region) ||
  (s.seals.any fun r => s.isOwn r.pa && decide (regionOf r.pa ≤ region ∧ region ≤ regionOf (r.pa + r.len - 1))) ||
  (s.wgs.any fun p => p.2.status == .parked &&
    decide (regionOf p.2.ctxAddr ≤ region ∧ region ≤ regionOf (p.2.ctxAddr + Config.contextBytes))) ||
  s.regions.any fun p => (Tab.find s.tables p.2.table).any fun t =>
    let res := if p.2.state = 3 then p.2.res else s.resolve t p.1
    res.cls == 0 && decide (1 ≤ p.2.state ∧ p.2.state ≤ 3) && res.aff.any fun a => s.rangeIn t.ctx a.1 a.2 region

/-- The region a placement unit would migrate. -/
def State.candidate (s : State) (die : Nat) : Option Nat :=
  let d := s.dieAt die
  let ok := d.counts.filter fun p =>
    (Tab.find s.homes p.1).any (fun h => match h with | .die h _ => h == die | _ => false) && decide (2 * p.2.1 + 1024 ≤ p.2.2) &&
    ((Tab.find d.migrated p.1).all fun n => decide (n + 4 ≤ d.evals)) && !s.pinned p.1
  (bestOf (fun a b => decide (b.2.2 < a.2.2)) ok).map (·.1)

/-- A migration begins, if the other die has a free frame for it; at either die it counts as the region's last.
(DEDUCED, log 32.) -/
def State.migrate (s : State) (region die : Nat) : State :=
  match Tab.find s.homes region with
  | some (.die _ old) =>
    if s.framesOf ≤ s.framesUsed (1 - die) then s
    else
      let (new, s) := s.freeFrame (1 - die)
      let last (s : State) (d : Nat) : State := s.modDie d fun x => { x with migrated := Tab.put x.migrated region x.evals }
      { (last (last s die) (1 - die)).modDie die (fun d => { d with
          migration := some { region, src := die, dst := 1 - die, held := [], cut := false } }) with
        homes := Tab.put s.homes region (.migrating die (1 - die) false old new) }
  | _ => s

/-- R313: Every 16,384 ticks the placement unit evaluates regions and halves their counts. -/
def execPlacementEvaluate (die : Nat) (s : State) : Res :=
  let s := match if (s.dieAt die).migration.isSome then none else s.candidate die with
    | none => s
    | some r => s.migrate r die
  .next (s.modDie die fun d => { d with
    evals := d.evals + 1, counts := Tab.map (fun _ p => (p.1 / 2, p.2 / 2)) d.counts })

/-- A migration in a phase. -/
def State.migrating (s : State) (cut : Bool) : Option Migration :=
  s.dies.findSome? fun p => match p.2.migration with | some m => if m.cut = cut then some m else none | none => none

/-- A cut-over is under way: nothing else happens before the region has its new home, so that what reaches it is held (R315). -/
def State.cutting (s : State) : Bool :=
  (s.migrating true).any fun m => match Tab.find s.homes m.region with | some (.migrating ..) => true | _ => false

/-- The old home applies what it accepted first: its updates are out no more. -/
def State.cutReady (s : State) (m : Migration) : Bool :=
  s.reqs.all fun p => !(s.isOwn p.2.pa && regionOf p.2.pa == m.region && p.2.state == .applied)

def inRegion (region sector : Nat) : Bool := regionOf (sector * 64) == region

/-- The requests that stand at the old home, in the order they reached it (R315). -/
def State.heldAt (s : State) (region : Nat) : List Nat :=
  let at_ (p : Nat × Req) : Bool := p.2.state == .arrived && s.isOwn p.2.pa && regionOf p.2.pa == region
  ((s.reqs.filter at_).mergeSort fun a b => decide (a.2.stamp ≤ b.2.stamp)).map Prod.fst

/-- Translations of the region and the L1 sectors of it leave both dies, and its Porch lines the new home's; fills on their way
are not kept. -/
def State.clearRegion (s : State) (m : Migration) : State :=
  let base := s.node * 2 ^ 44 + m.region * 2 ^ 21
  let here (sector : Nat) : Bool := s.isOwn (sector * 64) && inRegion m.region sector
  let s := s.dropTlb fun e => decide (e.pfn * 4096 < base + 2 ^ 21 ∧ base < (e.pfn + e.pages) * 4096)
  let s := (Tab.keys s.cores).foldl (fun s c =>
    (s.evict c fun k => here (k % 2 ^ 46)).modCore c fun k => { k with l1Sealed := k.l1Sealed.filter fun p => !here (p.1 % 2 ^ 46) }) s
  { s.modDie m.dst (fun d => { d with
      porch := d.porch.filter fun p => !here (p.1 * 4), porchSealed := d.porchSealed.filter fun p => !here (p.1 % 2 ^ 46) }) with
    reqs := Tab.map (fun _ (r : Req) =>
      if r.state = .replying ∧ s.isOwn r.pa ∧ regionOf r.pa = m.region then { r with fill := false } else r) s.reqs
    upds := s.upds.filter fun p => !(inRegion m.region p.2.sector) }

/-- R315: After the copy phase, requests are held while TLBs, sectors and slots move to the new home. -/
def execMigrationCutOver (s : State) : Res :=
  match s.migrating false with
  | none => .next s
  | some m =>
    match if s.cutReady m then Tab.find s.homes m.region else none with
    | some (.migrating src dst _ old new) =>
      let s := { s.modDie m.src (fun d => { d with
          migration := d.migration.map fun y => { y with cut := true, held := s.heldAt m.region } }) with
        homes := Tab.put s.homes m.region (.migrating src dst true old new) }
      let s := s.clearRegion m
      let keep (p : Nat × DirEntry) : Option (Nat × DirEntry) :=
        if (s.isOwn (p.1 * 64) && inRegion m.region p.1) = true then
          if p.2.writer.isNone && !p.2.host then none else some (p.1, { p.2 with sharers := 0 })
        else some p
      .next { s with dir := s.dir.filterMap keep }
    | _ => .next s

/-- A held request is served at its home now. -/
def State.serve (s : State) (id : Nat) : State :=
  [execHomeRead, execHomeWriteApply, execStateWordWrite, execReductionUnitApply].foldl (fun s f =>
    match f id s with
    | .next s => s
    | _ => s) s

/-- R315: The home map names the new die and held requests are served there in order. -/
def execMigrationDone (s : State) : Res :=
  match s.migrating true with
  | none => .next s
  | some m =>
    match Tab.find s.homes m.region with
    | some (.migrating _ dst _ _ new) =>
      let s := { s.modDie m.src (fun d => { d with migration := none, counts := Tab.erase d.counts m.region }) with
        homes := Tab.put s.homes m.region (.die dst new) }
      .next (m.held.foldl State.serve s).unblock
    | _ => .next s

end Sys2Proof.Machine
end

