-- ==== Sys2Proof/Machine/EngineWork.lean ====
section
/-! DEFINITION. What the copy engine, the scan unit and the coordinate engine do with a command (R202 to R211, R214, R283 to
R287, R359 to R361, R373 to R380): their accesses to scratchpad and memory, and their payloads. -/

namespace Sys2Proof.Machine

/-! ### Accesses of an engine (R284, R285, R288) -/

/-- What stops a command at an element: a status, with the address in memory that failed if there is one; a page that is not
present; a table that is full. -/
inductive EStop where
  | status (code : Nat) (va : Option W64)
  | missing (va : W64)
  | full
  deriving DecidableEq, Repr

/-- The result of a part of a command. -/
abbrev Eng (α : Type) := Except EStop α × State

/-- Parts one after another, up to the first that stops. -/
def engFold {α β : Type} (f : β → α → State → Eng β) : List α → β → State → Eng β
  | [], b, s => (.ok b, s)
  | a :: rest, b, s =>
    match f b a s with
    | (.ok b, s) => engFold f rest b s
    | (.error k, s) => (.error k, s)

/-- SSP and DSP of a record, and its completion scope (R196). -/
def Cmd.ssp (c : Cmd) : Bool := c.ctl.testBit 11
def Cmd.dsp (c : Cmd) : Bool := c.ctl.testBit 12
def Cmd.scope (c : Cmd) : Nat := c.ctl / 2 % 4
/-- A field of the record. -/
def Cmd.fld (c : Cmd) (i k : Nat) : Nat := fieldAt c.body i k
def Cmd.adr (c : Cmd) (i : Nat) : W64 := BitVec.ofNat 64 (c.fld i 8)

/-- The largest power of 2 that divides a size, at most 16. -/
def unitOf (n : Nat) : Nat :=
  if n % 16 = 0 then 16 else if n % 8 = 0 then 8 else if n % 4 = 0 then 4 else if n % 2 = 0 then 2 else 1

/-- The address of a failure for the error log: a scratchpad offset has none. -/
def failAt (sp : Bool) (va : W64) : Option W64 := if sp then none else some va

/-- The physical address of an access in memory: translated as for the core that issued the command. -/
def State.engLocate (s : State) (w : Nat) (c : Cmd) (write : Bool) (va : W64) : Eng Nat :=
  let g := s.wgOf w
  if 2 ^ 48 ≤ va.toNat then (.error (.status 0x11 (some va)), s)
  else
    match s.locate c.core g.ctx.asid g.ctx.root ⟨write, false, c.priv⟩ va with
    | (.error e, s) => (.error (if e = 0x10 then .missing va else .status e (some va)), s)
    | (.ok pa, s) => (.ok pa, s)

/-- The same for an access at the home, which must be within reach. -/
def State.engPage (s : State) (w : Nat) (c : Cmd) (write : Bool) (va : W64) : Eng Nat :=
  match s.engLocate w c write va with
  | (.error k, s) => (.error k, s)
  | (.ok pa, s) =>
    if (s.pathFrom (dieOfCore c.core) 0 pa).isNone then (.error (.status 0x14 (some va)), s) else (.ok pa, s)

/-- One access of a read in memory: at the home, or as a plain load of the issuing core (R284). -/
def State.engLoad (s : State) (w : Nat) (c : Cmd) (home : Bool) (u : Nat) (va : W64) : Eng (List Byte) :=
  let asid := (s.wgOf w).ctx.asid
  match if home then s.engPage w c false va else s.engLocate w c false va with
  | (.error k, s) => (.error k, s)
  | (.ok pa, s) =>
    if home then
      if s.isBad pa then (.error (.status 0x13 (some va)), s.logBad c.core asid pa)
      else
        let s := (s.countAt (dieOfCore c.core) pa).scrub (s.dieFor pa (dieOfCore c.core)) pa asid (some c.core)
        (.ok (s.withWeak c.core asid pa (s.bytesAt pa u)), s)
    else
      match s.loadStops c.core asid pa u with
      | some e => (.error (.status e (some va)), s.logStop c.core asid pa u)
      | none =>
        let (b, s) := s.loadSync c.core asid pa u
        (.ok b, s)

/-- What stops an access of an engine to the scratchpad (R285, R347): it leaves the allocation, or its data is uncorrectable. -/
def Workgroup.spadStop (g : Workgroup) (off n : Nat) (write : Bool) : Option EStop :=
  if !g.inSpad off n then some (.status 0x11 none) else if g.spadBad off n write then some (.status 0x13 none) else none

/-- The log of uncorrectable data that an engine met in the scratchpad (R347). (DESIGN CHOICE, logs 14, 46.) -/
def State.noteStop (s : State) (w : Nat) (c : Cmd) (k : EStop) : State :=
  if k = .status 0x13 none then s.logCore c.core (s.wgOf w).ctx.asid 0x13 else s

/-- A read of `n` bytes in accesses of `u`, which is also the alignment it needs. -/
def State.engRead (w : Nat) (c : Cmd) (sp home : Bool) (u n : Nat) (va : W64) (s : State) : Eng (List Byte) :=
  let g := s.wgOf w
  if va.toNat % u ≠ 0 then (.error (.status 0x15 (failAt sp va)), s)
  else if sp then
    match g.spadStop va.toNat n false with
    | some k => (.error k, s.noteStop w c k)
    | none => (.ok (g.spadBytes va.toNat n), s)
  else
    engFold (fun bs i s =>
      match s.engLoad w c home u (va + BitVec.ofNat 64 (i * u)) with
      | (.error k, s) => (.error k, s)
      | (.ok b, s) => (.ok (bs ++ b), s)) (List.range (n / u)) [] s

/-- A number read at once. -/
def State.engNat (w : Nat) (c : Cmd) (sp home : Bool) (u n : Nat) (va : W64) (s : State) : Eng Nat :=
  match s.engRead w c sp home u n va with
  | (.ok bs, s) => (.ok (natOfBytes bs), s)
  | (.error k, s) => (.error k, s)

/-- A payload store to memory, performed by the issuing core (R325): core-weak, or written through at once; the command waits
for its acknowledgement. -/
def State.engStore (s : State) (w h core : Nat) (through : Bool) (va : W64) (pa : Nat) (bs : List Byte) : EngPut × State :=
  let asid := (s.wgOf w).ctx.asid
  if through then
    let s := (s.storeL1 core asid pa bs).modCore core fun k =>
      k.unbuffer (l1Key asid (sectorOf pa)) (spanMask (pa % 64) bs.length)
    let (id, s) := s.newReq { by_ := .engine w h, kind := .write, core, asid, pa, va, size := bs.length, data := bs,
                              huge := s.isHuge core asid va, state := .sent } []
    ({ through := true, key := id }, s.modCmd w h fun c => { c with deps := c.deps ++ [id] })
  else
    ({ through := false, key := sectorOf pa },
      (s.bufferStore core asid pa { wg := w, tid := engineOwner + h, va } bs.length).storeL1 core asid pa bs)

/-- The pieces of a run of bytes, sector by sector: offset and length. -/
def engPieces (va n : Nat) : List (Nat × Nat) :=
  if n = 0 then []
  else (List.range ((va % 64 + n + 63) / 64)).map fun i =>
    let lo := max va (va / 64 * 64 + 64 * i)
    (lo - va, min (va + n) (va / 64 * 64 + 64 * (i + 1)) - lo)

/-- The places in memory of a write of `n` bytes, whole: offset, length and physical address; what would refuse a part of it
stops it before any byte is written (R198). -/
def State.engPlaces (w : Nat) (c : Cmd) (through : Bool) (n : Nat) (va : W64) (s : State) : Eng (List (Nat × Nat × Nat)) :=
  engFold (fun l p s =>
    let va := va + BitVec.ofNat 64 p.1
    match s.engPage w c true va with
    | (.error k, s) => (.error k, s)
    | (.ok pa, s) =>
      if s.sealedAt pa p.2 then (.error (.status 0x12 (some va)), s)
      else if s.isBad pa && p.2 != 64 && (through || decide (16 < n)) then
        (.error (.status 0x13 (some va)), s.logBad c.core (s.wgOf w).ctx.asid pa)
      else (.ok (l ++ [(p.1, p.2, pa)]), s)) (engPieces va.toNat n) [] s

/-- A payload write. -/
def State.engWrite (w h : Nat) (c : Cmd) (o : EngWrite) (s : State) : Eng (List EngPut) :=
  let g := s.wgOf w
  let n := o.data.length
  let through := o.home || c.scope != 0
  if o.addr.toNat % o.unit ≠ 0 then (.error (.status 0x15 (failAt o.sp o.addr)), s)
  else if o.sp then
    match g.spadStop o.addr.toNat n true with
    | some k => (.error k, s.noteStop w c k)
    | none => (.ok [], s.modWg w (·.spadWrite o.addr.toNat o.data))
  else
    match s.engPlaces w c through n o.addr with
    | (.error k, s) => (.error k, s)
    | (.ok ps, s) =>
      let (l, s) := ps.foldl (fun (a : List EngPut × State) p =>
        let (put, s) := a.2.engStore w h c.core through (o.addr + BitVec.ofNat 64 p.1) p.2.2 ((o.data.drop p.1).take p.2.1)
        (a.1 ++ [put], s)) ([], s)
      (.ok l, s)

/-- The payload of a command is over. (DEDUCED, log 80.) -/
def State.engEnd (s : State) (w h : Nat) : State := s.modCmd w h fun c => { c with ended := true }

/-- The entry of the error log for the element that failed (R288, R348): its physical address, 0 if it has none.
(DEDUCED, log 80.) -/
def State.engLog (s : State) (w code : Nat) (va : Option W64) : State :=
  let g := s.wgOf w
  let pa := (va.bind fun a => if 2 ^ 48 ≤ a.toNat then none else s.lookup g.ctx a.toNat).getD 0
  s.log (dieOfCore g.core) (logEntry pa (g.core % 64) 4 7 code g.ctx.asid (some g.core) 0 s.hb)

/-- A command stops: with its status, or halted and reported (R350). -/
def State.engStop (s : State) (w h : Nat) (k : EStop) : State :=
  let g := s.wgOf w
  match k with
  | .status code va => (s.engLog w code va).modCmd w h fun c => { c with status := code, ended := true }
  | .full => s.modCmd w h fun c => { c with status := 0x42, ended := true }
  | .missing va =>
    { s.modCmd w h (fun c => { c with state := .halted s.hb va }) with
      events := s.events ++ [{ addr := va, asid := g.ctx.asid, core := g.core, tick := s.hb }] }

/-- The next of the writes a command still owes; then its payload is over. -/
def State.drainOne (s : State) (w h : Nat) (c : Cmd) : State :=
  match c.outq with
  | [] => s.engEnd w h
  | o :: rest =>
    match s.engWrite w h c o with
    | (.ok _, s) => s.modCmd w h fun c => { c with outq := rest, ended := rest == [] }
    | (.error k, s) => s.engStop w h k

/-- A record that a chapter forbids. -/
def badRecord : EStop := .status 0x40 none
def ctlOk (c : Cmd) : Bool := c.ctl / 2 ^ 13 == 0 && (c.chan != some 31)
def when_ (p : Bool) (k : EStop) : Option EStop := if p then some k else none

/-! ### Copies (R202 to R206, R283 to R287) -/

structure CopyDim where
  ext : Nat
  slim : Nat
  sstr : Int
  dstr : Int
  deriving DecidableEq, Repr

/-- A copy with its dimension table, as fixed when it starts. -/
structure CopyPlan where
  op : Nat
  src : W64
  dst : W64
  dims : List CopyDim
  esz : Nat
  /-- row size of the swizzle, 0 for none, and its side. -/
  row : Nat
  swzSrc : Bool
  conv : Nat
  idx : Nat
  fill : Nat
  fmt : W32
  deriving DecidableEq, Repr

/-- Bytes of a destination element. -/
def convSize (conv esz : Nat) : Nat :=
  match conv with
  | 0 => esz
  | 1 | 2 => 2
  | 5 => 1
  | _ => 4
/-- The source element size a conversion requires. -/
def convFrom (conv esz : Nat) : Nat :=
  match conv with
  | 0 => esz
  | 1 | 2 | 5 => 4
  | 3 | 4 => 2
  | _ => 1

/-- R286: an element converted, with its flags. -/
def convElem (conv : Nat) (fmt : W32) (mode : Mode) (bs : List Byte) : List Byte × Flags :=
  let n := natOfBytes bs
  let q := (vecFmt? fmt).getD (binary8 3 true false)
  let out (k : Nat) (r : Nat × Flags) : List Byte × Flags := (bytesOfNat r.1 k, r.2)
  match conv with
  | 0 => (bs, 0)
  | 1 => out 2 (convert fp16 mode (fp32.decode n))
  | 2 => out 2 (convert bf16 mode (fp32.decode n))
  | 3 => out 4 (convert fp32 .rne (fp16.decode n))
  | 4 => out 4 (convert fp32 .rne (bf16.decode n))
  | 5 => out 1 (convert q mode (fp32.decode n))
  | _ => out 4 ((convert fp32 .rne (q.decode n)).1, 0)

/-- R205. -/
def swizzle (l o : Nat) : Nat := o / l * l + ((o % l / 16) ^^^ (o / l % (l / 16))) * 16 + o % 16

def CopyPlan.z (p : CopyPlan) : Nat := convSize p.conv p.esz
def CopyPlan.total (p : CopyPlan) : Nat := (p.dims.map (·.ext)).foldl (· * ·) 1
def CopyPlan.indexed (p : CopyPlan) : Bool := p.op == 0x1E1 || p.op == 0x1E2

/-- An entry of the dimension table (R203), from its word `k` on. -/
def dimAt (ws : List Nat) (k : Nat) : CopyDim :=
  let at_ (i : Nat) : Nat := ws.getD (k + i) 0
  { ext := at_ 0, slim := at_ 1, sstr := (BitVec.ofNat 32 (at_ 2)).toInt, dstr := (BitVec.ofNat 32 (at_ 3)).toInt }

/-- The words of its dimension table. -/
def dimWords (g : Workgroup) (c : Cmd) : List Nat := (List.range (4 * c.fld 20 1)).map fun i => g.spadRead (c.fld 16 4 + 4 * i) 4

/-- The fields of a copy record, with a dimension table. -/
def copyPlan (dims : List Nat) (c : Cmd) : CopyPlan :=
  let swz := c.fld 22 1
  { op := c.op, src := c.adr 0, dst := c.adr 8,
    dims := (List.range (c.fld 20 1)).map fun d => dimAt dims (4 * d),
    esz := c.fld 21 1, row := if swz % 8 = 0 then 0 else 64 * 2 ^ (swz % 8), swzSrc := swz.testBit 3, conv := c.fld 23 1,
    idx := c.fld 24 4, fill := c.fld 28 4, fmt := BitVec.ofNat 32 (c.fld 32 4) }

/-- What ends a copy at its start (R202, R205, R276, R285). (DEDUCED, log 68.) -/
def copyBad (g : Workgroup) (c : Cmd) : Option EStop :=
  let p := copyPlan (dimWords g c) c
  let nd := c.fld 20 1
  let swz := c.fld 22 1
  let dimt := c.fld 16 4
  let side := if p.swzSrc then p.src.toNat else p.dst.toNat
  let size := if p.swzSrc then p.esz else p.z
  let n := ((p.dims.getLast?).map (·.ext)).getD 0
  (when_ (!ctlOk c || decide (nd < 1 ∨ 14 < nd ∨ p.esz < 1 ∨ 16 < p.esz)) badRecord).orElse fun _ =>
  (when_ (decide (5 ≤ swz % 8 ∨ 16 ≤ swz ∨ 6 < p.conv ∨ p.esz ≠ convFrom p.conv p.esz)) badRecord).orElse fun _ =>
  (when_ (if p.conv = 5 ∨ p.conv = 6 then (vecFmt? p.fmt).isNone else p.fmt != 0) badRecord).orElse fun _ =>
  (when_ (!p.indexed && p.idx != 0 || c.op == 0x1E3 && (c.ssp || p.src != 0)) badRecord).orElse fun _ =>
  (when_ (p.row != 0 && !(if p.swzSrc then c.ssp else c.dsp)) badRecord).orElse fun _ =>
  (when_ (p.row != 0 && (side % p.row != 0 || 16 % size != 0)) badRecord).orElse fun _ =>
  (when_ (dimt % 16 != 0) (.status 0x15 none)).orElse fun _ =>
  (g.spadStop dimt (16 * nd) false).orElse fun _ =>
  (when_ (decide (2 ^ 40 < p.total)) badRecord).orElse fun _ =>
  (when_ (p.indexed && p.idx % 4 != 0) (.status 0x15 none)).orElse fun _ =>
  when_ (p.indexed && !g.inSpad p.idx (4 * n)) badRecord

/-- The positions of element number `i`, the innermost first. -/
def tupleAt : List CopyDim → Nat → List Nat
  | [], _ => []
  | d :: ds, i => i % d.ext :: tupleAt ds (i / d.ext)

def strideSum (strs : List Int) (x : List Nat) : Int := (List.zipWith (fun (a : Int) (b : Nat) => a * (b : Int)) strs x).sum

/-- What a copy does at one position: nothing, a fill, or an element moved. -/
inductive CopyAct where
  | skip | fill (dst : W64) | move (src dst : W64)
  deriving DecidableEq, Repr

/-- R203: a position is out of bounds; a limit of 0xFFFF_FFFF is none. (DEDUCED, log 103.) -/
def CopyDim.out (d : CopyDim) (x : Nat) : Bool := d.slim != 0xFFFFFFFF && decide (d.slim ≤ x)

/-- The act of element number `i`, given the index list, and what it adds to COUNT (R204). (DEDUCED, log 103.) -/
def CopyPlan.act (p : CopyPlan) (index : Nat → Nat) (i : Nat) : CopyAct × Nat :=
  let t := tupleAt p.dims i
  let e := (t.getLast?).getD 0
  let x := if p.indexed then t.dropLast ++ [index e] else t
  let first := t.dropLast.all (· == 0)
  let past := ((p.dims.getLast?).map (·.out (index e))).getD true
  let so := strideSum (p.dims.map (·.sstr)) (if p.op = 0x1E1 then x else t)
  let dsto := strideSum (p.dims.map (·.dstr)) (if p.op = 0x1E2 then x else t)
  let swz (sideSrc : Bool) (a : W64) : W64 :=
    if p.row ≠ 0 ∧ p.swzSrc = sideSrc then BitVec.ofNat 64 (swizzle p.row a.toNat) else a
  let src := swz true (p.src + BitVec.ofInt 64 so)
  let dst := swz false (p.dst + BitVec.ofInt 64 dsto)
  let out := (p.dims.zip x).any fun q => q.1.out q.2
  if p.op = 0x1E2 ∧ past then (.skip, if first then 1 else 0)
  else if p.op = 0x1E3 then (.fill dst, 0)
  else if out then
    (.fill dst, if p.op = 0x1E0 then 1 else if p.op = 0x1E1 ∧ past ∧ first then 1 else 0)
  else (.move src dst, 0)

/-- The fill element. -/
def CopyPlan.fillBytes (p : CopyPlan) : List Byte := (List.range p.z).map fun j => BitVec.ofNat 8 (p.fill / 2 ^ (8 * (j % 4)))

/-- Some source of the command meets one of its destinations, `same` saying that they lie in one space. -/
def CopyPlan.meets (p : CopyPlan) (same : Bool) (index : Nat → Nat) : Bool :=
  let dsts := (List.range p.total).filterMap fun i => match (p.act index i).1 with
    | .skip => none
    | .fill dst | .move _ dst => some (dst.toNat, p.z)
  same && (List.range p.total).any fun i => match (p.act index i).1 with
    | .move src _ => dsts.any (overlaps (src.toNat, p.esz))
    | _ => false

/-- The bytes an element receives where source and destination meet: those that are there now, or those that were there when
the command started, freely chosen (R204). (DESIGN CHOICE, log 98.) -/
def State.copyPick (s : State) (old : List Byte) (bs : List Byte) : List Byte × State :=
  if old = [] then (bs, s)
  else
    let (n, s) := s.draw
    (if n % 2 = 0 then bs else old, s)

/-- One position: the flags of its conversion, and where its bytes went. -/
def State.copyElem (p : CopyPlan) (w h : Nat) (c : Cmd) (a : CopyAct) (old : List Byte) (s : State) :
    Eng (Flags × List EngPut) :=
  let put (dst : W64) (bs : List Byte) (fl : Flags) (s : State) : Eng (Flags × List EngPut) :=
    match s.engWrite w h c { sp := c.dsp, addr := dst, data := bs, unit := unitOf p.z } with
    | (.ok l, s) => (.ok (fl, l), s)
    | (.error k, s) => (.error k, s)
  match a with
  | .skip => (.ok (0, []), s)
  | .fill dst => put dst p.fillBytes 0 s
  | .move src dst =>
    match s.engRead w c c.ssp false (unitOf p.esz) p.esz src with
    | (.error k, s) => (.error k, s)
    | (.ok bs, s) =>
      let (bs, s) := s.copyPick old bs
      let (out, fl) := convElem p.conv p.fmt c.mode bs
      put dst out fl s

/-- The stores a command left in the core's write buffer that name part of a sector whose data is uncorrectable.
(DEDUCED, log 81.) -/
def State.copySpoilt (s : State) (w h core : Nat) : List WbEntry :=
  (s.coreOf core).wb.filter fun e =>
    s.isBad e.pa && e.mask != BitVec.allOnes 64 && e.owners.any fun o => o.wg == w && o.tid == engineOwner + h

/-- The end of a copy's payload: stores that their home will refuse leave for it, and their answers give the status. -/
def State.copyEnd (s : State) (w h : Nat) (c : Cmd) : State :=
  let (ids, s) := (s.copySpoilt w h c.core).foldl (fun (a : List Nat × State) e =>
    let (id, s) := a.2.flushEntry c.core e
    (a.1 ++ [id], s)) ([], s)
  (if ids = [] then s else s.modCmd w h fun c => { c with deps := c.deps ++ ids }).engEnd w h

/-- Elements for each entry of the index list. -/
def CopyPlan.inner (p : CopyPlan) : Nat := (p.dims.dropLast.map (·.ext)).foldl (· * ·) 1
def CopyPlan.entries (p : CopyPlan) : Nat := ((p.dims.getLast?).map (·.ext)).getD 0

/-- The batch of eight index entries that element number `i` needs, read now if it is not there (R287). -/
def copyBatch (g : Workgroup) (c : Cmd) (p : CopyPlan) (i : Nat) : Option (Nat × List Nat) :=
  let b := i / p.inner / 8
  if !p.indexed then none
  else if c.batch.any fun x => x.1 == b then c.batch
  else some (b, (List.range (min 8 (p.entries - 8 * b))).map fun j => g.spadRead (p.idx + 4 * (8 * b + j)) 4)

/-- A copy starts: its dimension table is fixed (R283). -/
def State.copyBegin (s : State) (w h : Nat) (c : Cmd) : State :=
  let g := s.wgOf w
  match copyBad g c with
  | some k => (s.noteStop w c k).engStop w h k
  | none =>
    let dims := dimWords g c
    let p := copyPlan dims c
    let index (e : Nat) : Nat := g.spadRead (p.idx + 4 * e) 4
    let old (i : Nat) : List Byte := match (p.act index i).1 with
      | .move src _ => match (s.engRead w c c.ssp false (unitOf p.esz) p.esz src).1 with
        | .ok b => b
        | .error _ => []
      | _ => []
    let olds := if p.meets (c.ssp == c.dsp) index then (List.range p.total).map old else []
    s.modCmd w h fun c => { c with begun := true, work := dims, olds }

/-- The next element of a copy, in tuple order (R204, R283). (DESIGN CHOICE, log 76.) -/
def State.copyStep (s : State) (w h : Nat) (c : Cmd) : State :=
  let p := copyPlan c.work c
  let i := c.pos
  if p.total ≤ i then s.copyEnd w h c
  else
    let batch := copyBatch (s.wgOf w) c p i
    if batch != c.batch && batch.any fun b => (s.wgOf w).spadBad (p.idx + 32 * b.1) (4 * b.2.length) false then
      (s.noteStop w c (.status 0x13 none)).engStop w h (.status 0x13 none)
    else
    let s := s.modCmd w h fun c => { c with batch }
    let (a, k) := p.act (fun e => ((batch.map (·.2)).getD []).getD (e % 8) 0) i
    match State.copyElem p w h c a (c.olds.getD i []) s with
    | (.ok (fl, puts), s) =>
      s.modCmd w h fun c => { c with
        pos := i + 1, count := c.count + k
        flags := if puts = [] then c.flags ||| fl.toNat else c.flags
        puts := if fl = 0 then c.puts else c.puts ++ puts.map fun q => { q with flags := fl.toNat } }
    | (.error e, s) => s.engStop w h e

/-- A step of a copy command: it starts, or goes on. -/
def State.copyWork (s : State) (w h : Nat) (c : Cmd) : State := if c.begun then s.copyStep w h c else s.copyBegin w h c

/-! ### Scans (R214, R359 to R361) -/

/-- A scan: the items and how each is read. -/
structure ScanPlan where
  src : W64
  n : Nat
  stride : Nat
  elems : Nat
  esz : Nat
  etype : Nat
  /-- `sctk`: keep bytes, and whether dropped tokens follow. -/
  keep : Option Nat
  both : Bool
  deriving DecidableEq, Repr

/-- What a scan reads and writes, from its record (R214, R361). (DEDUCED, log 83.) -/
def scanPlan (c : Cmd) : ScanPlan :=
  let esz := c.fld 30 1
  if c.op = 0x1EB then
    let rows := c.fld 32 1 == 1
    { src := c.adr 0, n := c.fld 20 4, stride := if rows then c.fld 24 4 else esz, elems := if rows then c.fld 28 2 else 1,
      esz, etype := c.fld 31 1, keep := none, both := false }
  else
    let tb := c.fld 28 2
    { src := c.adr 0, n := c.fld 24 4, stride := tb, elems := tb / esz, esz, etype := c.fld 31 1,
      keep := if c.fld 20 4 = 0xFFFFFFFF then none else some (c.fld 20 4), both := c.fld 32 1 == 1 }

/-- The list or map offset of a scan. -/
def Cmd.listOff (c : Cmd) : Nat := c.fld 16 4

def eszOk (esz etype : Nat) : Bool := (esz == 1 || esz == 2 || esz == 4 || esz == 8) && decide (etype ≤ 1) && !(etype == 1 && esz == 8)

/-- The fields that make a record of `scnz` bad (R214, R360). (DEDUCED, log 68.) -/
def scnzBad (g : Workgroup) (c : Cmd) : Option EStop :=
  let p := scanPlan c
  let rows := c.fld 32 1 == 1
  (when_ (!ctlOk c || !eszOk p.esz p.etype || decide (1 < c.fld 32 1) || c.fld 33 3 != 0 || c.adr 8 != 0 ||
    decide (2 ^ 24 < p.n) || p.src.toNat % p.esz != 0) badRecord).orElse fun _ =>
  (when_ (if rows then c.fld 28 2 == 0 || c.fld 24 4 == 0 || c.fld 24 4 % p.esz != 0 else c.fld 24 4 != 0 || c.fld 28 2 != 0)
    badRecord).orElse fun _ =>
  when_ (c.listOff % 4 != 0 || !g.inSpad c.listOff (4 + 4 * p.n)) (.status 0x11 none)

def sctkBad (g : Workgroup) (c : Cmd) : Option EStop :=
  let p := scanPlan c
  let len := p.stride * p.n
  let a := p.src.toNat
  let b := (c.adr 8).toNat
  (when_ (!ctlOk c || !eszOk p.esz p.etype || decide (1 < c.fld 32 1) || c.fld 33 3 != 0 || p.stride == 0 ||
    p.stride % p.esz != 0) badRecord).orElse fun _ =>
  (when_ (c.ssp == c.dsp && decide (0 < len ∧ a < b + len ∧ b < a + len)) badRecord).orElse fun _ =>
  (when_ (c.listOff % 4 != 0) (.status 0x15 none)).orElse fun _ =>
  (when_ (!g.inSpad c.listOff (4 + 4 * p.n)) (.status 0x11 none)).orElse fun _ =>
  when_ (p.n != 0 && p.keep.any fun k => !g.inSpad k p.n) (.status 0x11 none)

/-- R359: some element of an item is live. -/
def itemLive (p : ScanPlan) (bs : List Byte) : Bool :=
  (List.range p.elems).any fun e =>
    !isZeroElem (p.etype == 1 && p.esz != 1) p.esz (natOfBytes ((bs.drop (e * p.esz)).take p.esz))

/-- Some words of a list in scratchpad. -/
def listWrites (off : Nat) (l : List Nat) : List EngWrite :=
  l.zipIdx.map fun q => { sp := true, addr := BitVec.ofNat 64 (off + 4 * q.2), data := bytesOfNat q.1 4, unit := 4 }

/-- The writes of a scan, once every item has been read: rows, each whole (R198), list and count. `rows` holds what was
read. -/
def scanWrites (c : Cmd) (p : ScanPlan) (live : List Nat) (rows : List EngWrite) : List EngWrite :=
  let all := if p.both then live ++ (List.range p.n).filter fun i => !live.contains i else live
  let row (i m : Nat) : EngWrite :=
    { sp := c.dsp, addr := c.adr 8 + BitVec.ofNat 64 (p.stride * m), unit := p.esz
      data := ((rows.find? fun r => r.addr.toNat == i).map (·.data)).getD [] }
  let moved := if c.op = 0x1EB then [] else all.zipIdx.map fun q => row q.1 q.2
  moved ++ listWrites (c.listOff + 4) all ++ listWrites c.listOff [live.length]

/-- An item of a scan has been read whole; a kept live one is remembered, and of `sctk` each row that will be written.
(DEDUCED, log 83.) -/
def scanItem (p : ScanPlan) (kept : Bool) (bs : List Byte) (c : Cmd) : Cmd :=
  let live := kept && itemLive p bs
  let row : EngWrite := { sp := false, addr := BitVec.ofNat 64 c.pos, data := bs, unit := 1 }
  { c with
    pos := c.pos + 1, part := [], work := if live then c.work ++ [c.pos] else c.work
    outq := if c.op = 0x1EC ∧ (live ∨ p.both) then c.outq ++ [row] else c.outq }

/-- The next element of a scan is read (R360, R361). (DESIGN CHOICE, log 76.) -/
def State.scanRead (s : State) (w h : Nat) (c : Cmd) (p : ScanPlan) : State :=
  let kept := if c.part = [] then p.keep.all fun k => (s.wgOf w).spadRead (k + c.pos) 1 != 0 else c.got == 1
  if c.part = [] ∧ p.keep.any fun k => (s.wgOf w).spadBad (k + c.pos) 1 false then
    (s.noteStop w c (.status 0x13 none)).engStop w h (.status 0x13 none)
  else if !kept && !p.both then s.modCmd w h fun c => { c with pos := c.pos + 1 }
  else
    match s.engRead w c c.ssp false p.esz p.esz (p.src + BitVec.ofNat 64 (p.stride * c.pos + c.part.length)) with
    | (.error k, s) => s.engStop w h k
    | (.ok b, s) =>
      let bs := c.part ++ b
      s.modCmd w h fun c =>
        if bs.length = p.elems * p.esz then scanItem p kept bs c else { c with part := bs, got := kept.toNat }

/-- A step of a scan: its checks, an element, the end of its reading, or a write. -/
def State.scanWork (s : State) (w h : Nat) (c : Cmd) : State :=
  let g := s.wgOf w
  let p := scanPlan c
  if !c.begun then
    match if c.op = 0x1EB then scnzBad g c else sctkBad g c with
    | some k => s.engStop w h k
    | none => s.modCmd w h fun c => { c with begun := true }
  else if c.pos < p.n then s.scanRead w h c p
  else if c.pos = p.n then
    s.modCmd w h fun c => { c with pos := p.n + 1, count := c.work.length, outq := scanWrites c p c.work c.outq }
  else s.drainOne w h c

/-! ### Coordinate tables (R207 to R210, R373 to R378) -/

def emptyKey : Nat := 2 ^ 64 - 1

/-- A word of the table: read at the home of its line. -/
def State.tabRead (w : Nat) (c : Cmd) (n off : Nat) (s : State) : Eng Nat :=
  s.engNat w c c.ssp true n n (c.adr 0 + BitVec.ofNat 64 off)

/-- The header: NKEY, LOG, VER; a range or reserved byte that is wrong stops the command. -/
structure TabHdr where
  nkey : Nat
  log : Nat
  ver : Nat
  deriving DecidableEq, Repr

def logMax (c : Cmd) : Nat := if c.ssp then 15 else 24

/-- The table's bytes are in the allocation, or in the device's own memory (R374). (DEDUCED, log 68.) -/
def State.tabPlaced (w : Nat) (c : Cmd) (va : W64) (sp : Bool) (len : Nat) (s : State) : Eng Unit :=
  if sp then
    if (s.wgOf w).inSpad va.toNat len then (.ok (), s) else (.error (.status 0x11 none), s)
  else
    engFold (fun _ i s =>
      let a := BitVec.ofNat 64 (max va.toNat ((va.toNat / 4096 + i) * 4096))
      match s.engLocate w c false a with
      | (.error k, s) => (.error k, s)
      | (.ok pa, s) => if s.isOwn pa then (.ok (), s) else (.error (.status 0x11 (some a)), s))
      (List.range ((va.toNat + len - 1) / 4096 - va.toNat / 4096 + 1)) () s

def State.tabHeader (w : Nat) (c : Cmd) (s : State) : Eng TabHdr :=
  match s.tabPlaced w c (c.adr 0) c.ssp 64 with
  | (.error k, s) => (.error k, s)
  | (.ok _, s) =>
    match s.engRead w c c.ssp true 8 64 (c.adr 0) with
    | (.error k, s) => (.error k, s)
    | (.ok bs, s) =>
      let h : TabHdr := { nkey := fieldAt bs 0 4, log := fieldAt bs 4 1, ver := fieldAt bs 8 2 }
      if h.log < 4 ∨ logMax c < h.log ∨ fieldAt bs 5 3 ≠ 0 ∨ fieldAt bs 10 6 ≠ 0 ∨ fieldAt bs 24 40 ≠ 0 then
        (.error badRecord, s)
      else
        match s.tabPlaced w c (c.adr 0) c.ssp (64 + 16 * 2 ^ h.log) with
        | (.error k, s) => (.error k, s)
        | (.ok _, s) => (.ok h, s)

def entryOff (slot : Nat) : Nat := 64 + 16 * slot

/-- R209: the slot a key hashes to. -/
def hashKey (key log : Nat) : Nat := key * 0x9E3779B97F4A7C15 % 2 ^ 64 / 2 ^ (64 - log)

/-- A probe (R209, R374): the slot with the key, or the first empty one, or neither. -/
def State.probe (w : Nat) (c : Cmd) (key cap : Nat) : Nat → Nat → State → Eng (Option (Nat × Bool))
  | 0, _, s => (.ok none, s)
  | n + 1, slot, s =>
    match s.tabRead w c 8 (entryOff slot) with
    | (.error k, s) => (.error k, s)
    | (.ok e, s) =>
      if e = key then (.ok (some (slot, true)), s)
      else if e = emptyKey then (.ok (some (slot, false)), s)
      else State.probe w c key cap n ((slot + 1) % cap) s

/-- The index of a key in the table. -/
def State.tabFind (w : Nat) (c : Cmd) (key log : Nat) (s : State) : Eng (Option Nat) :=
  if key = emptyKey then (.ok none, s)
  else
    match s.probe w c key (2 ^ log) (2 ^ log) (hashKey key log) with
    | (.error k, s) => (.error k, s)
    | (.ok (some (slot, true)), s) =>
      match s.tabRead w c 4 (entryOff slot + 8) with
      | (.error k, s) => (.error k, s)
      | (.ok x, s) => (.ok (some x), s)
    | (.ok _, s) => (.ok none, s)

/-- Fields a command does not use must be 0, and those it uses in range (R208). (DEDUCED, logs 68, 84.) -/
def ceBad (c : Cmd) : Bool :=
  let zero (l : List (Nat × Nat)) : Bool := l.all fun f => c.fld f.1 f.2 == 0
  let n := c.fld 28 4
  !ctlOk c || (match c.op with
    | 0x1E4 | 0x1E5 => !zero [(8, 8), (24, 4), (32, 1), (33, 1), (34, 2)] || decide (2 ^ 24 < n)
    | 0x1E6 => !zero [(8, 8), (32, 1), (33, 1), (34, 2)] || decide (2 ^ 24 < n)
    | 0x1E7 => !zero [(24, 4), (32, 1), (34, 2)] || n == 0 || decide (256 < n) || c.fld 33 1 == 0
    | 0x1E8 => !zero [(8, 8), (16, 4), (20, 4), (24, 4), (28, 4), (33, 1), (34, 2)] ||
        decide (c.fld 32 1 < 4 ∨ logMax c < c.fld 32 1)
    | _ => !zero [(8, 8), (16, 4), (20, 4), (24, 4), (28, 4), (32, 1), (33, 1)] || c.fld 34 2 == 0)

/-- A write to a table. -/
def tabPut (c : Cmd) (off : Nat) (bs : List Byte) : EngWrite :=
  { sp := c.ssp, addr := c.adr 0 + BitVec.ofNat 64 off, data := bs, unit := bs.length, home := true }

/-- R210: what a clear writes, by offset in the table. -/
def clearWrites (c : Cmd) : List (Nat × List Byte) :=
  let log := c.fld 32 1
  let entry : List Byte := bytesOfNat emptyKey 8 ++ bytesOfNat 0 8
  (0, bytesOfNat (log * 2 ^ 32) 64) ::
    (List.range (2 ^ log / 4)).map fun i => (64 + 64 * i, entry ++ entry ++ entry ++ entry)

/-! ### Key operations (R209, R376, R377) -/

/-- The words a key operation or a clear writes in the table; memory takes them at once, so that they are seen together or not at
all (R376, R378); a sector the host holds is asked for first. (DEDUCED, log 84.) -/
def State.tabApply (w : Nat) (c : Cmd) (ws : List (Nat × List Byte)) (s : State) : Eng Bool :=
  if c.ssp then (.ok true, s.modWg w fun g => ws.foldl (fun g o => g.spadWrite ((c.adr 0).toNat + o.1) o.2) g)
  else
    match engFold (fun (l : List (Nat × List Byte)) o s =>
        let va := c.adr 0 + BitVec.ofNat 64 o.1
        match s.engPage w c true va with
        | (.error k, s) => (.error k, s)
        | (.ok pa, s) =>
          if s.sealedAt pa o.2.length then (.error (.status 0x12 (some va)), s)
          else if s.isBad pa && o.2.length != 64 then (.error (.status 0x13 (some va)), s.logBad c.core (s.wgOf w).ctx.asid pa)
          else if s.hitsState (sectorOf pa) (spanMask (pa % 64) o.2.length) then (.error (.status 0x11 (some va)), s)
          else (.ok (l ++ [(pa, o.2)]), s)) ws [] s with
    | (.error k, s) => (.error k, s)
    | (.ok l, s) =>
      match l.find? fun p => s.hostHolds p.1 with
      | some p => (.ok false, s.snoop p.1)
      | none => (.ok true, l.foldl (fun s p => (s.countAt (dieOfCore c.core) p.1).writeAtHome (dieOfCore c.core) p.1 p.2) s)

/-- What a key operation has found: the result for OUT, whether it found the key, and the words to write. -/
structure KeyOp where
  out : Nat
  found : Bool
  ws : List (Nat × List Byte)
  deriving DecidableEq, Repr

/-- The key operation on `key` with value `val`. -/
def State.keyOp (w : Nat) (c : Cmd) (key val log : Nat) (s : State) : Eng KeyOp :=
  let add (x acc : Nat) : List Byte := bytesOfNat (if x = 0xFFFFFFFF then acc else (acc + val) % 2 ^ 32) 4
  if key = emptyKey then (.ok ⟨0xFFFFFFFF, false, []⟩, s)
  else
    match s.probe w c key (2 ^ log) (2 ^ log) (hashKey key log) with
    | (.error k, s) => (.error k, s)
    | (.ok (some (slot, true)), s) =>
      match s.tabRead w c 8 (entryOff slot + 8) with
      | (.error k, s) => (.error k, s)
      | (.ok e, s) =>
        (.ok ⟨e % 2 ^ 32, true, if c.op = 0x1E6 then [(entryOff slot + 12, add (e % 2 ^ 32) (e / 2 ^ 32))] else []⟩, s)
    | (.ok r, s) =>
      if c.op = 0x1E5 then (.ok ⟨0xFFFFFFFF, false, []⟩, s)
      else
        match s.tabRead w c 4 0 with
        | (.error k, s) => (.error k, s)
        | (.ok nkey, s) =>
          match r with
          | some (slot, _) =>
            if nkey + 1 = 2 ^ log then (.error .full, s)
            else
              (.ok ⟨nkey, false, [(entryOff slot, bytesOfNat key 8 ++ bytesOfNat nkey 4 ++
                (if c.op = 0x1E6 then add nkey 0 else bytesOfNat 0 4)), (0, bytesOfNat ((nkey + 1) % 2 ^ 32) 4)]⟩, s)
          | none => (.error .full, s)

/-- The places of a key's operands: IN, VALS, OUT; the key and its value. (DEDUCED, log 47.) -/
def State.keyOperands (w : Nat) (c : Cmd) (i : Nat) (s : State) : Eng (Nat × Nat) :=
  let at_ (f k : Nat) : W64 := BitVec.ofNat 64 (c.fld f 4 + k * i)
  match s.engNat w c true false 1 8 (at_ 16 8) with
  | (.error k, s) => (.error k, s)
  | (.ok key, s) =>
    match s.engNat w c true false 1 4 (at_ 20 4) with
    | (.error k, s) => (.error k, s)
    | (.ok _, s) =>
      if c.op = 0x1E6 then
        match s.engNat w c true false 1 4 (at_ 24 4) with
        | (.error k, s) => (.error k, s)
        | (.ok v, s) => (.ok (key, v), s)
      else (.ok (key, 0), s)

/-- The next key of a command (R376): its operation is applied whole, and its result goes to OUT. (DEDUCED, log 84.) -/
def State.keyStep (s : State) (w h : Nat) (c : Cmd) : State :=
  let i := c.pos
  match s.keyOperands w c i with
  | (.error k, s) => s.engStop w h k
  | (.ok (key, val), s) =>
    match s.tabRead w c 1 4 with
    | (.error k, s) => s.engStop w h k
    | (.ok log, s) =>
      match s.keyOp w c key val log with
      | (.error k, s) => (s.modCmd w h fun c => { c with count := if k = .full then i else c.count }).engStop w h k
      | (.ok o, s) =>
        match s.tabApply w c o.ws with
        | (.error k, s) => s.engStop w h k
        | (.ok false, s) => s
        | (.ok true, s) =>
          let s := s.modWg w fun g => g.spadWrite (c.fld 20 4 + 4 * i) (bytesOfNat o.out 4)
          s.modCmd w h fun c => { c with
            pos := i + 1, count := if c.op = 0x1E5 then c.count + o.found.toNat else i + 1
            ended := i + 1 == c.fld 28 4 }

/-! ### Neighbour maps (R211, R379, R380) -/

/-- Component `j` of a key (R373). -/
def keyComp (key j : Nat) : Int := (BitVec.ofNat 18 (key / 2 ^ (18 * j))).toInt

/-- The key of a neighbour, if each component stays in range. -/
def neighbour (c o stride : Nat) : Option Nat :=
  let at_ (j : Nat) : Int := keyComp c j + keyComp o j * (stride : Int)
  if [0, 1, 2].all fun j => decide (-131072 ≤ at_ j ∧ at_ j ≤ 131071) then
    let part (j : Nat) : Nat := (BitVec.ofInt 18 (at_ j)).toNat * 2 ^ (18 * j)
    some (part 0 + part 1 + part 2 + c / 2 ^ 54 * 2 ^ 54)
  else none

/-- The keys of the table by slot, with their indices. -/
def State.tabEntries (w : Nat) (c : Cmd) (log : Nat) (s : State) : Eng (List (Nat × Nat)) :=
  engFold (fun l slot s =>
    match s.engRead w c c.ssp true 8 16 (c.adr 0 + BitVec.ofNat 64 (entryOff slot)) with
    | (.error k, s) => (.error k, s)
    | (.ok bs, s) => (.ok (l ++ [(fieldAt bs 0 8, fieldAt bs 8 4)]), s)) (List.range (2 ^ log)) [] s

/-- The pairs of one offset, ascending in the output index. -/
def State.offsetPairs (w : Nat) (c : Cmd) (hd : TabHdr) (es : List (Nat × Nat)) (o : Nat) (s : State) :
    Eng (List (Nat × Nat)) :=
  engFold (fun l t s =>
    match (es.find? fun e => e.1 != emptyKey && e.2 == t).bind fun e => neighbour e.1 o (c.fld 33 1) with
    | none => (.ok l, s)
    | some key =>
      match s.tabFind w c key hd.log with
      | (.error k, s) => (.error k, s)
      | (.ok none, s) => (.ok l, s)
      | (.ok (some u), s) => (.ok (l ++ [(u, t)]), s)) (List.range hd.nkey) [] s

def mapHead (c : Cmd) (ver dig noff npair nout : Nat) : List Byte :=
  bytesOfNat (ver + c.fld 33 1 * 2 ^ 16 + dig * 2 ^ 32) 8 ++ bytesOfNat (noff + npair * 2 ^ 32) 8 ++ bytesOfNat nout 8 ++
  bytesOfNat (c.fld 0 8) 8

/-- A word of the map area. -/
def mapPut (c : Cmd) (off : Nat) (bs : List Byte) : EngWrite :=
  { sp := c.dsp, addr := c.adr 8 + BitVec.ofNat 64 off, data := bs, unit := min 8 (unitOf bs.length) }

/-- The whole map (R379), and the table's MAPH. -/
def mapWrites (c : Cmd) (ver dig nout : Nat) (lists : List (List (Nat × Nat))) : List EngWrite :=
  let n := lists.length
  let p0 := 64 + 8 * ((n + 1) / 2)
  let pairs := lists.flatten
  let counts := (List.range ((p0 - 64) / 8)).map fun i =>
    mapPut c (64 + 8 * i) (bytesOfNat ((lists.getD (2 * i) []).length + (lists.getD (2 * i + 1) []).length * 2 ^ 32) 8)
  mapPut c 0 (mapHead c ver dig n pairs.length nout ++ bytesOfNat 0 32) :: counts ++
  (pairs.zipIdx.map fun q => mapPut c (p0 + 8 * q.2) (bytesOfNat (q.1.1 + q.1.2 * 2 ^ 32) 8)) ++
  [tabPut c 16 (bytesOfNat (c.fld 8 8) 8)]

/-- What `ce.map` writes, with its COUNT, FLAGS and STATUS. -/
structure MapOut where
  ws : List EngWrite
  count : Nat := 0
  flags : Nat := 0
  status : Nat := 0
  deriving DecidableEq, Repr

/-- The 8N bytes at IN. -/
def State.mapOffsets (w : Nat) (c : Cmd) (s : State) : Eng (List Byte) :=
  s.engRead w c true false 1 (8 * c.fld 28 4) (BitVec.ofNat 64 (c.fld 16 4))

/-- The header of the map area is that of the map asked for. -/
def mapHeld (c : Cmd) (ver dig : Nat) (bs : List Byte) : Bool :=
  fieldAt bs 0 2 == ver && fieldAt bs 2 1 == c.fld 33 1 && fieldAt bs 4 4 == dig && fieldAt bs 24 8 == c.fld 0 8

/-- The header at MAP, which a map asked for before may already hold (R211, R380); none where the scratchpad ends before it. -/
def State.mapHeader (w : Nat) (c : Cmd) (s : State) : Eng (List Byte) :=
  if c.dsp && !(s.wgOf w).inSpad (c.adr 8).toNat 64 then (.ok [], s) else s.engRead w c c.dsp false 8 64 (c.adr 8)

/-- One map of `ce.map` written (R211). (DEDUCED, log 84.) -/
def State.mapBuild (w : Nat) (c : Cmd) (s : State) : Eng MapOut :=
  let area := c.fld 20 4
  match s.tabHeader w c with
  | (.error k, s) => (.error k, s)
  | (.ok hd, s) =>
    if area % 8 ≠ 0 ∨ (c.adr 8).toNat % 8 ≠ 0 then (.error (.status 0x15 (failAt c.dsp (c.adr 8))), s)
    else
      match s.tabPlaced w c (c.adr 8) c.dsp area with
      | (.error k, s) => (.error k, s)
      | (.ok _, s) =>
        if hd.ver = 0 then (.error (.status 0x11 (failAt c.ssp (c.adr 0))), s)
        else
          match s.mapOffsets w c with
          | (.error k, s) => (.error k, s)
          | (.ok inBytes, s) =>
            let dig := crc32c inBytes
            match s.mapHeader w c with
            | (.error k, s) => (.error k, s)
            | (.ok bs, s) =>
              let offs := (List.range (c.fld 28 4)).map fun i => fieldAt inBytes (8 * i) 8
              if bs ≠ [] ∧ mapHeld c hd.ver dig bs then (.ok { ws := [], count := fieldAt bs 12 4, flags := 64 }, s)
              else if offs.any fun o => decide (2 ^ 54 ≤ o) then (.error badRecord, s)
              else
                match s.tabEntries w c hd.log with
                | (.error k, s) => (.error k, s)
                | (.ok es, s) =>
                  match engFold (fun l o s =>
                      match s.offsetPairs w c hd es o with
                      | (.error k, s) => (.error k, s)
                      | (.ok ps, s) => (.ok (l ++ [ps]), s)) offs [] s with
                  | (.error k, s) => (.error k, s)
                  | (.ok lists, s) =>
                    let pairs := lists.flatten.length
                    if area < 64 + 8 * ((offs.length + 1) / 2) + 8 * pairs then
                      (.ok { ws := if 2 ≤ area then [mapPut c 0 (bytesOfNat 0 2)] else [], status := 0x43 }, s)
                    else (.ok { ws := mapWrites c hd.ver dig hd.nkey lists, count := pairs }, s)

/-! ### A coordinate command starts or goes on -/

def State.ceBegin (w : Nat) (c : Cmd) (s : State) : Eng MapOut :=
  if ceBad c then (.error badRecord, s)
  else if (c.adr 0).toNat % 64 ≠ 0 then (.error (.status 0x15 (failAt c.ssp (c.adr 0))), s)
  else if c.op = 0x1E7 then s.mapBuild w c
  else if c.op = 0x1E8 then
    match s.tabPlaced w c (c.adr 0) c.ssp (64 + 16 * 2 ^ c.fld 32 1) with
    | (.error k, s) => (.error k, s)
    | (.ok _, s) => (.ok { ws := [] }, s)
  else
    match s.tabHeader w c with
    | (.error k, s) => (.error k, s)
    | (.ok hd, s) =>
      if c.op = 0x1E9 then (.ok { ws := [tabPut c 8 (bytesOfNat (c.fld 34 2) 2)] }, s)
      else if c.op ≠ 0x1E5 ∧ hd.ver ≠ 0 then (.error (.status 0x11 (failAt c.ssp (c.adr 0))), s)
      else (.ok { ws := [] }, s)

/-- `ce.ins`, `ce.qry` and `ce.acc` go key by key after their checks. -/
def Cmd.byKey (c : Cmd) : Bool := c.op == 0x1E4 || c.op == 0x1E5 || c.op == 0x1E6

/-- A clear is applied whole (R210, R378). -/
def State.ceClear (s : State) (w h : Nat) (c : Cmd) : State :=
  match s.tabApply w c (clearWrites c) with
  | (.error k, s) => s.engStop w h k
  | (.ok false, s) => s
  | (.ok true, s) => s.engEnd w h

/-- A step of a coordinate command but for its keys: its checks, or what it writes. -/
def State.ceWork (s : State) (w h : Nat) (c : Cmd) : State :=
  if c.begun then if c.byKey then s else if c.op = 0x1E8 then s.ceClear w h c else s.drainOne w h c
  else
    match s.ceBegin w c with
    | (.error k, s) => s.engStop w h k
    | (.ok o, s) =>
      let s := if o.status ≠ 0 then s.engLog w o.status (failAt c.dsp (c.adr 8)) else s
      let s := s.modCmd w h fun c => { c with
        begun := true, outq := o.ws, count := o.count, flags := c.flags ||| o.flags, status := o.status }
      if c.byKey && c.fld 28 4 == 0 then s.engEnd w h else s

end Sys2Proof.Machine
end

