-- ==== Sys2Proof/Machine/EngineEvents.lean ====
section
/-! DEFINITION. The steps of the engines (R197, R199, R201, R212, R213, R283, R288, R291, R363 to R366): starting a command,
the steps of a `tg`, halts, and the end of a command. -/

namespace Sys2Proof.Machine

/-! ### The tile engine (R212, R213, R363 to R366) -/

/-- The fields of a `tg`. -/
def tgMode (c : Cmd) : Nat := c.fld 35 1
def tgKch (c : Cmd) : Nat := c.fld 34 1
def tgFmt (c : Cmd) : Option FmtWord := fmtWord? (BitVec.ofNat 32 (c.fld 28 4))
/-- The word at LIST + `off`, a multiple of 4 (R276). -/
def State.tgWord (w : Nat) (c : Cmd) (off : Nat) (s : State) : Eng Nat :=
  s.engNat w c (c.ssp || tgMode c == 1) false 4 4 (c.adr 16 + BitVec.ofNat 64 off)
/-- The words of a part of the map or list from the `k`-th that has not been read on, each kept as it is read (R364). -/
def State.tgWords (w h : Nat) (c : Cmd) (off k n : Nat) (s : State) : Eng Unit :=
  engFold (fun _ i s =>
    match s.tgWord w c (off + 4 * (k + i)) with
    | (.error e, s) => (.error e, s)
    | (.ok x, s) => (.ok (), s.modCmd w h fun c => { c with work := c.work ++ [x] })) (List.range (n - k)) () s

def ascending (l : List Nat) : Bool := (l.zip (l.drop 1)).all fun p => decide (p.1 < p.2)

/-- A map: offsets, outputs, and the pairs of each list. -/
structure TgMap where
  noff : Nat
  nout : Nat
  lists : List (List (Nat × Nat))
  deriving DecidableEq, Repr

def TgMap.groups (m : TgMap) : Nat := (m.nout + 7) / 8

/-- Pairs from words: input and output index in turn. -/
def pairsOf (l : List Nat) : List (Nat × Nat) := (List.range (l.length / 2)).map fun i => (l.getD (2 * i) 0, l.getD (2 * i + 1) 0)

/-- The words of a map that have been read, in order: its header, its counts, its pairs. -/
def mapNoff (ws : List Nat) : Nat := ws.getD 2 0
def mapNpair (ws : List Nat) : Nat := ws.getD 3 0
def mapCounts (ws : List Nat) : List Nat := (ws.drop 16).take (mapNoff ws)

/-- The lists of a map. -/
def tgMap (ws : List Nat) : TgMap :=
  let counts := mapCounts ws
  let ps := pairsOf (ws.drop (16 + mapNoff ws))
  { noff := mapNoff ws, nout := ws.getD 4 0,
    lists := (List.range (mapNoff ws)).map fun o => (ps.drop ((counts.take o).sum)).take (counts.getD o 0) }
/-- The indices of a list. -/
def tgList (ws : List Nat) : List Nat := ws.drop 1

/-- The words of a command as read so far. -/
def State.tgWork (s : State) (w h : Nat) : List Nat := ((Tab.find (s.wgOf w).cmds h).map (·.work)).getD []

/-- R364: the whole map is read, or what stops the command; after a halt reading goes on where it stopped. -/
def State.tgReadMap (w h : Nat) (c : Cmd) (s : State) : Eng Unit :=
  match s.tgWords w h c 0 (s.tgWork w h).length 16 with
  | (.error k, s) => (.error k, s)
  | (.ok _, s) =>
    let ws := s.tgWork w h
    let noff := mapNoff ws
    if noff = 0 ∨ 256 < noff ∨ 512 < ws.getD 4 0 then (.error badRecord, s)
    else
      match s.tgWords w h c 64 (ws.length - 16) noff with
      | (.error k, s) => (.error k, s)
      | (.ok _, s) =>
        let ws := s.tgWork w h
        if (mapCounts ws).sum ≠ mapNpair ws then (.error badRecord, s)
        else
          match s.tgWords w h c (64 + 8 * ((noff + 1) / 2)) (ws.length - 16 - noff) (2 * mapNpair ws) with
          | (.error k, s) => (.error k, s)
          | (.ok _, s) =>
            let m := tgMap (s.tgWork w h)
            if m.lists.all fun l => ascending (l.map (·.2)) && l.all fun p => decide (p.2 < m.nout) then (.ok (), s)
            else (.error badRecord, s)

/-- R364: the list of mode 1. -/
def State.tgReadList (w h : Nat) (c : Cmd) (s : State) : Eng Unit :=
  match s.tgWords w h c 0 (s.tgWork w h).length 1 with
  | (.error k, s) => (.error k, s)
  | (.ok _, s) =>
    let ws := s.tgWork w h
    if 2 ^ 24 < ws.getD 0 0 then (.error badRecord, s)
    else
      match s.tgWords w h c 4 (ws.length - 1) (ws.getD 0 0) with
      | (.error k, s) => (.error k, s)
      | (.ok _, s) => if ascending (tgList (s.tgWork w h)) then (.ok (), s) else (.error badRecord, s)

/-- A step: offset, chunk and row group, or the pass; and as COUNT holds it. -/
structure TgPos where
  o : Nat
  c : Nat
  g : Nat
  deriving DecidableEq, Repr
def TgPos.word (p : TgPos) (mode : Nat) : Nat := if mode = 1 then p.o else p.o + p.c * 2 ^ 8 + p.g * 2 ^ 16
def tgPos (mode n : Nat) : TgPos := if mode = 1 then ⟨n % 2 ^ 16, 0, 0⟩ else ⟨n % 256, n / 2 ^ 8 % 256, n / 2 ^ 16 % 64⟩

/-- The extents of the steps: offsets, chunks, row groups; or passes. -/
def tgExtents (c : Cmd) (f : FmtWord) (work : List Nat) : TgPos :=
  if tgMode c = 1 then ⟨((tgList work).length + f.k - 1) / f.k, 1, 1⟩ else ⟨(tgMap work).noff, tgKch c, (tgMap work).groups⟩

/-- The step after one, none at the end. -/
def TgPos.next (p e : TgPos) : Option TgPos :=
  if p.g + 1 < e.g then some { p with g := p.g + 1 }
  else if p.c + 1 < e.c then some { p with c := p.c + 1, g := 0 }
  else if p.o + 1 < e.o then some ⟨p.o + 1, 0, 0⟩
  else none

/-- The first step from a position on; of a map, an offset with an empty list has no step (R367). (DEDUCED, log 82.) -/
def TgPos.live (p : TgPos) (mode : Nat) (e : TgPos) (work : List Nat) : Option TgPos :=
  if mode = 1 then (if p.o < e.o then some p else none)
  else
    match (List.range e.o).find? fun o => decide (p.o ≤ o) && !((tgMap work).lists.getD o []).isEmpty with
    | none => none
    | some o => some (if o = p.o then p else ⟨o, 0, 0⟩)

/-- An octet of the workgroup has tile ACT. -/
def octetHasTile (g : Workgroup) (octet act : Nat) : Bool :=
  let h := octet * 8 / g.hdr.width
  decide (h < g.hdr.hwarps ∧ act < g.hdr.tilesAt h)

/-- The record's own fields (R212). (DEDUCED, log 68.) -/
def tgBad (c : Cmd) : Bool :=
  let cf := c.fld 60 4
  !ctlOk c || decide (1 < tgMode c ∨ tgKch c = 0 ∨ (tgMode c = 1 ∧ 8 < tgKch c)) || !(tgFmt c).any (fun f => f.scale == 0) ||
  (cf != 0 && (!cf.testBit 31 || cf / 2 ^ (if tgMode c = 1 then 16 else 22) % 2 ^ (if tgMode c = 1 then 15 else 9) != 0))

/-- The octets it accumulates into have their tile. -/
def tgTiles (g : Workgroup) (c : Cmd) (groups : Nat) : Bool :=
  (List.range groups).all fun i => octetHasTile g (c.fld 33 1 + i) (c.fld 32 1)

/-- R213: at its end the array is empty and its generations are behind. -/
def Workgroup.tgEnd (g : Workgroup) (gen : Nat) : Workgroup :=
  g.modArray fun m => { m with ga := gen, active := {}, shadow := {}, shadowState := 0 }

/-- The payload of a `tg` is over, with its COUNT. -/
def State.tgDone (s : State) (w h : Nat) (c : Cmd) (count : Nat) : State :=
  ((s.modWg w fun g => g.tgEnd c.gen).modCmd w h fun c => { c with count }).engEnd w h

/-- A `tg` stops: halted, or failed. -/
def State.tgStop (s : State) (w h : Nat) (c : Cmd) (count : Nat) (k : EStop) : State :=
  match k with
  | .missing _ => s.engStop w h k
  | _ => (s.tgDone w h c count).engStop w h k

/-- A `tg` before its first step: its checks and its map or list. (DEDUCED, log 82.) -/
def State.tgBegin (s : State) (w h : Nat) (c : Cmd) : State :=
  let cf := c.fld 60 4
  match if tgBad c then none else tgFmt c with
  | none => s.tgStop w h c cf badRecord
  | some f =>
    match if tgMode c = 1 then s.tgReadList w h c else s.tgReadMap w h c with
    | (.error k, s) => s.tgStop w h c cf k
    | (.ok _, s) =>
      let work := s.tgWork w h
      let e := tgExtents c f work
      let p := tgPos (tgMode c) cf
      if !tgTiles (s.wgOf w) c e.g || (cf != 0 && !decide (p.o < e.o ∧ p.c < e.c ∧ p.g < e.g)) then
        s.tgStop w h c cf badRecord
      else
        let s := s.modCmd w h fun c => { c with begun := true }
        match p.live (tgMode c) e work with
        | none => s.tgDone w h c 0
        | some q => s.modCmd w h fun c => { c with pos := q.word (tgMode c) }

/-- A read of a step: whether it is in scratchpad, the alignment it needs there (R276), its elements' size, its length and its
address. -/
structure TgRead where
  sp : Bool
  align : Nat
  unit : Nat
  len : Nat
  va : W64
  deriving DecidableEq, Repr

/-- A read made whole: the bytes. -/
def State.tgRead (w : Nat) (c : Cmd) (r : TgRead) (s : State) : Eng (List Byte) :=
  if r.sp && r.va.toNat % r.align != 0 then (.error (.status 0x15 none), s) else s.engRead w c r.sp false r.unit r.len r.va

/-- The elements of a read in memory are accesses of their own. -/
def TgRead.parts (r : TgRead) : List TgRead :=
  if r.sp then [r]
  else (List.range (r.len / r.unit)).map fun i => { r with len := r.unit, va := r.va + BitVec.ofNat 64 (i * r.unit) }

/-- Which weights a step needs: those of its offset and chunk, or of its pass. -/
def tgPlaneId (c : Cmd) (p : TgPos) : Nat := if tgMode c = 1 then p.o else p.o * tgKch c + p.c

/-- The pairs of a step. -/
def tgPairs (c : Cmd) (p : TgPos) : List (Nat × Nat) := ((tgMap c.work).lists.getD p.o []).filter fun q => q.2 / 8 = p.g

/-- The weight rows or plane of a step (R213). -/
def tgPlaneReads (c : Cmd) (f : FmtWord) (p : TgPos) : List TgRead :=
  let wstr := c.fld 26 2 * 64
  if tgMode c = 1 then
    (((tgList c.work).drop (p.o * f.k)).take f.k).map fun i =>
      ⟨c.dsp, 64, f.b.bytes, 64 * f.b.bytes, c.adr 8 + BitVec.ofNat 64 (i * wstr)⟩
  else [⟨c.dsp, 64, f.b.bytes, f.k * 64 * f.b.bytes, c.adr 8 + BitVec.ofNat 64 (tgPlaneId c p * wstr)⟩]

/-- The A rows of a step, or the elements of the rows of a pass; a row in scratchpad is a multiple of 16. -/
def tgRowReads (c : Cmd) (f : FmtWord) (p : TgPos) : List TgRead :=
  let rstr := c.fld 24 2
  if tgMode c = 1 then
    (List.range (tgKch c)).flatMap fun r =>
      let row := c.adr 0 + BitVec.ofNat 64 (r * rstr)
      (((tgList c.work).drop (p.o * f.k)).take f.k).map fun i =>
        { sp := c.ssp, align := if row.toNat % 16 = 0 then f.a.bytes else 2 ^ 64, unit := f.a.bytes, len := f.a.bytes
          va := row + BitVec.ofNat 64 (i * f.a.bytes) }
  else
    (tgPairs c p).map fun q =>
      ⟨c.ssp, 16, f.a.bytes, f.k * f.a.bytes, c.adr 0 + BitVec.ofNat 64 (q.1 * rstr + p.c * f.k * f.a.bytes)⟩

/-- What a step gathers (R363): its weights, unless the array holds them, and its rows; after a halt it goes on with the access
that stopped it. -/
def State.tgGather (w h : Nat) (c : Cmd) (f : FmtWord) (p : TgPos) (s : State) : Eng Unit :=
  let planes := if c.plane = some (tgPlaneId c p) then [] else tgPlaneReads c f p
  engFold (fun _ r s =>
    match s.tgRead w c r with
    | (.error k, s) => (.error k, s)
    | (.ok bs, s) => (.ok (), s.modCmd w h fun c => { c with part := c.part ++ bs, got := c.got + 1 }))
    (((planes ++ tgRowReads c f p).flatMap TgRead.parts).drop c.got) () s

/-- Bytes as a plane. -/
def planeOf (bs : List Byte) : Plane := { bytes := bs.zipIdx.foldl (fun m p => Tab.set 0 m p.2 p.1) [] }

/-- Elements of an A row. -/
def rowVals (f : OpFmt) (bs : List Byte) : List FVal :=
  (List.range (bs.length / f.bytes)).map fun i => f.value (natOfBytes ((bs.drop (i * f.bytes)).take f.bytes))

/-- The rows of a step from the bytes gathered for them: octet, row and A elements; past the list's end elements are +0. -/
def tgRows (c : Cmd) (f : FmtWord) (p : TgPos) (bs : List Byte) : List (Nat × Nat × List FVal) :=
  if tgMode c = 1 then
    let n := ((((tgList c.work).drop (p.o * f.k)).take f.k).length) * f.a.bytes
    (List.range (tgKch c)).map fun r =>
      let vs := rowVals f.a ((bs.drop (r * n)).take n)
      (c.fld 33 1, r, vs ++ List.replicate (f.k - vs.length) (f.a.value 0))
  else
    let n := f.k * f.a.bytes
    (tgPairs c p).zipIdx.map fun q => (c.fld 33 1 + p.g, q.1.2 % 8, rowVals f.a ((bs.drop (q.2 * n)).take n))

/-- The passes of a step, and their flags. -/
def Workgroup.tgPasses (g : Workgroup) (f : FmtWord) (plane : Plane) (act : Nat) (rows : List (Nat × Nat × List FVal)) :
    Workgroup × Flags :=
  rows.foldl (fun (acc : Workgroup × Flags) r =>
    let (vs, fl) := passRow f plane r.2.2 none (acc.1.accElem r.1 act r.2.1)
    (vs.zipIdx.foldl (fun g v => g.setAcc r.1 act r.2.1 v.2 v.1) acc.1, acc.2 ||| fl)) (g, 0)

/-- A pre-emption saves the workgroup now: its threads have parked. Until then its commands go on, for a thread may settle on
what they push (R170, R351, R370). (DEDUCED, log 74.) -/
def Workgroup.saving (g : Workgroup) : Bool :=
  g.status == .preempting && !g.kill && g.threads.all fun p => p.2.ended || p.2.parked

/-- A pre-empted `tg` stops at its step boundary and is queued again from there (R201, R366). -/
def State.tgRequeue (s : State) (w h : Nat) (c : Cmd) (count : Nat) : State :=
  let s := s.modWg w fun g => g.spadWrite (c.recOff + 60) (bytesOfNat count 4)
  s.modCmd w h fun c => { c with
    state := .queued, begun := false, body := c.body.take 60 ++ bytesOfNat count 4, count, work := [], part := [], got := 0
    plane := none, pos := 0 }

/-- The rows of a step run their passes, from the plane the array holds; what was gathered is used up. -/
def Workgroup.tgCommit (g : Workgroup) (h : Nat) (c : Cmd) (f : FmtWord) (p : TgPos) : Workgroup × Flags :=
  let planes := if c.plane = some (tgPlaneId c p) then [] else tgPlaneReads c f p
  let n := (planes.map (·.len)).sum
  let g := if planes = [] then g else g.modArray fun m => { m with active := planeOf (c.part.take n) }
  let (g, fl) := g.tgPasses f g.array.active (c.fld 32 1) (tgRows c f p (c.part.drop n))
  ({ g with cmds := Tab.modify g.cmds h fun c => { c with
      part := [], got := 0, plane := some (tgPlaneId c p), flags := c.flags ||| fl.toNat } }, fl)

/-- One step, committed whole. (DEDUCED, log 82.) -/
def State.tgStep (s : State) (w h : Nat) (c : Cmd) : State :=
  match tgFmt c with
  | none => s
  | some f =>
    let p := tgPos (tgMode c) c.pos
    let e := tgExtents c f c.work
    let busy (n : Nat) : Nat := n + 2 ^ 31
    if (s.wgOf w).saving ∧ c.got = 0 then s.tgRequeue w h c (busy c.pos)
    else
      match s.tgGather w h c f p with
      | (.error k, s) => s.tgStop w h c (busy c.pos) k
      | (.ok _, s) =>
        let c := (Tab.find (s.wgOf w).cmds h).getD c
        let s := s.modWg w fun g => (g.tgCommit h c f p).1
        match (p.next e).bind fun q => q.live (tgMode c) e c.work with
        | none => s.tgDone w h c 0
        | some q => s.modCmd w h fun c => { c with pos := q.word (tgMode c) }

/-! ### The commands of a core -/

/-- The live commands of a core: workgroup, handle, command. -/
def State.engCmds (s : State) (core : Nat) : List (Nat × Nat × Cmd) :=
  s.wgs.flatMap fun p =>
    if p.2.core = core ∧ p.2.status ≠ .parked then List.map (fun q => (p.1, q.1, q.2)) p.2.cmds else []

/-- The command in a slot that a step can serve. -/
def State.slotCmd (s : State) (core slot : Nat) (ok : Nat → Nat → Cmd → Bool) : Option (Nat × Nat × Cmd) :=
  (s.engCmds core).find? fun q => q.2.1 % 1024 == slot && ok q.1 q.2.1 q.2.2

def Cmd.active (c : Cmd) : Bool :=
  match c.state with
  | .running | .halted .. | .pushing => c.status != 0x41
  | _ => false

/-- A queued command may start: not one that a pre-emption saves (R201). -/
def Workgroup.starts (g : Workgroup) (c : Cmd) : Bool := c.state == .queued && !g.saving

/-- R199, R213, R283: its turn has come and its engine is free. (DEDUCED, log 78.) -/
def State.startReady (s : State) (w _h : Nat) (c : Cmd) : Bool :=
  let g := s.wgOf w
  let all := (s.engCmds g.core).filter fun q => q.2.2.eng = c.eng
  g.starts c && s.answered c.deps &&
  decide ((all.filter fun q => q.2.2.active).length < (if c.eng = 0 then 16 else 1)) &&
  (all.all fun q => !((s.wgOf q.1).starts q.2.2 && decide (q.2.2.order < c.order))) &&
  (c.eng != 2 || g.mxq.all fun e => decide (c.born < e.id))

/-- A running command goes on by a step: its checks, its map, or the next element of its payload. -/
def State.engWork (s : State) (w h : Nat) : State :=
  match Tab.find (s.wgOf w).cmds h with
  | none => s
  | some c =>
    match c.eng with
    | 0 => s.copyWork w h c
    | 1 => s.ceWork w h c
    | 2 => if c.begun then s else s.tgBegin w h c
    | _ => s.scanWork w h c

/-- A running command with such a step to take. -/
def workReady (_w _h : Nat) (c : Cmd) : Bool := c.state == .running && !c.ended && !(c.begun && (c.byKey || c.eng == 2))

/-- R204, R210, R211, R283, R336, R360, R361: the payload of a command goes on; other events may fall between its elements.
(DESIGN CHOICE, log 76.) -/
def execEngineWork (core slot : Nat) (s : State) : Res :=
  match s.slotCmd core slot workReady with
  | none => .next s
  | some (w, h, _) => .next (s.engWork w h)

/-- All that the core has out to memory. -/
def State.coreOut (s : State) (core : Nat) : List Nat :=
  (s.reqs.filter fun p => p.2.core = core && p.2.kind.isWrite).map Prod.fst

/-- A table in memory is reached at its home: the core's own stores go there first (R334, R376). (DEDUCED, log 78.) -/
def Cmd.needsFlush (c : Cmd) : Bool := c.eng == 1 && !c.ssp && !c.flushed

/-- R199: A queued command starts running in its engine's order. -/
def execEngineCommandStart (core slot : Nat) (s : State) : Res :=
  match s.slotCmd core slot s.startReady with
  | none => .next s
  | some (w, h, c) =>
    let (_, s1) := s.flushCore c.core
    if !s.awake (engineUnit core c.eng) then .next (s.wakeUnit (engineUnit core c.eng))
    else if c.eng = 2 ∧ !s.awake (arrayUnit core) then .next (s.wakeUnit (arrayUnit core))
    else if c.needsFlush ∧ s1.coreOut c.core ≠ [] then
      .next (s1.modCmd w h fun c => { c with deps := s1.coreOut c.core, flushed := true })
    else .next ((s.modCmd w h fun c => { c with state := .running, deps := [], flushed := false }).engWork w h)

/-! ### Steps of a running command -/

def keyReady (_w _h : Nat) (c : Cmd) : Bool := c.state == .running && c.begun && !c.ended && c.byKey

/-- R376: One key's probe, slot claim, NKEY increment and ACC addition are applied whole. -/
def execCoordKeyOp (core slot : Nat) (s : State) : Res :=
  match s.slotCmd core slot keyReady with
  | none => .next s
  | some (w, h, c) => .next (s.keyStep w h c)

/-- A `tg` that may take its next step (R213). (DEDUCED, log 82.) -/
def tgReady (_w _h : Nat) (c : Cmd) : Bool := c.state == .running && c.begun && !c.ended && c.eng == 2

/-- R363: The sequencer loads a plane, gathers A rows and commits one step of passes. -/
def execTgStep (core slot : Nat) (s : State) : Res :=
  match s.slotCmd core slot tgReady with
  | none => .next s
  | some (w, h, c) => .next (s.tgStep w h c)

/-- The page a command is halted on is present, and became so in time. -/
def State.resumeReady (s : State) (w _h : Nat) (c : Cmd) : Bool :=
  match c.state with
  | .halted since va => decide (s.hb.toNat ≤ since.toNat + 36000) && (s.lookup (s.wgOf w).ctx va.toNat).isSome
  | _ => false

/-- R288: A command halted on a missing page continues once the page is present. -/
def execEngineFaultResume (core slot : Nat) (s : State) : Res :=
  match s.slotCmd core slot s.resumeReady with
  | none => .next s
  | some (w, h, _) => .next ((s.modCmd w h fun c => { c with state := .running }).engWork w h)

/-- 36,000 ticks have passed since it halted, and the page is not there. -/
def State.haltOver (s : State) (w h : Nat) (c : Cmd) : Bool :=
  match c.state with
  | .halted since _ => decide (since.toNat + 36000 ≤ s.hb.toNat) && !s.resumeReady w h c
  | _ => false

/-- R288: A halted command ends with status 0x10 after 36,000 ticks. -/
def execEngineFaultTimeout (core slot : Nat) (s : State) : Res :=
  match s.slotCmd core slot s.haltOver with
  | none => .next s
  | some (w, h, c) =>
    let va := match c.state with | .halted _ va => va | _ => 0
    let s := s.modCmd w h fun c => { c with state := .running }
    let count := if c.begun then c.pos + 2 ^ 31 else c.count
    .next (if c.eng = 2 then s.tgStop w h c count (.status 0x10 (some va)) else s.engStop w h (.status 0x10 (some va)))

/-! ### The end of a command (R197, R291) -/

def Cmd.csp (c : Cmd) : Bool := c.ctl.testBit 3
def Cmd.mb (c : Cmd) : Bool := c.ctl.testBit 4
def Cmd.cadr (c : Cmd) : W64 := c.adr 40
def Cmd.mbOff (c : Cmd) : Nat := c.fld 52 4

/-- What is wrong with the completion word: none if there is none or it is good. (DEDUCED, log 79.) -/
def State.complWord (w : Nat) (c : Cmd) (s : State) : Option Nat × State :=
  let g := s.wgOf w
  if c.cadr = 0 then (none, s)
  else if c.cadr.toNat % 4 ≠ 0 then (some 0x15, s)
  else if c.csp then (if g.inSpad c.cadr.toNat 4 then none else some 0x11, s)
  else
    match s.engPlaces w c (c.scope != 0) 4 c.cadr with
    | (.ok _, s) => (none, s)
    | (.error (.status 0x12 _), s) => (some 0x12, s)
    | (.error (.status 0x13 _), s) => (some 0x13, s)
    | (.error (.status 0x14 _), s) => (some 0x14, s)
    | (.error _, s) => (some 0x11, s)

/-- What is wrong with the phase-barrier word. -/
def barrierWord (g : Workgroup) (c : Cmd) : Option Nat :=
  if !c.mb then none
  else if c.mbOff % 8 ≠ 0 then some 0x15
  else if !g.inSpad c.mbOff 8 then some 0x11
  else if pbOk (g.word c.mbOff) then none
  else some 0x40

/-- STATUS, FLAGS and COUNT in the record. -/
def Workgroup.writeTail (g : Workgroup) (c : Cmd) : Workgroup :=
  g.spadWrite (c.recOff + 58) (bytesOfNat c.status 1 ++ bytesOfNat c.flags 1 ++ bytesOfNat c.count 4)

/-- A bit of FLAGS, in the command and its record. -/
def State.setFlag (s : State) (w h bit : Nat) : State :=
  match Tab.find (s.wgOf w).cmds h with
  | none => s
  | some c =>
    let f := c.flags ||| 2 ^ bit
    (s.modCmd w h fun c => { c with flags := f }).modWg w fun g => g.spadWrite (c.recOff + 59) (bytesOfNat f 1)

/-- Steps 6 and 7: the successor, and the slot. -/
def State.cmdFree (s : State) (w h : Nat) : State :=
  match Tab.find (s.wgOf w).cmds h with
  | none => s
  | some c =>
    let s := if c.status = 0 ∧ c.succ.toNat ≠ h then s.release w c.succ.toNat else s
    (s.modWg w fun g =>
      let g := { g with cmds := Tab.erase g.cmds h }.count 3 1
      if c.eng = 2 then g.startLoad.mxDone else g).settleAll.unblock

/-- The queue a command names is a result queue of its engine. -/
def Workgroup.resultQueue (g : Workgroup) (c : Cmd) : Option (Nat × Chan) :=
  c.chan.bind fun q => (Tab.find g.chans q).bind fun ch => if ch.kind = 2 ∧ ch.src = c.eng then some (q, ch) else none

/-- Commands that wait to push and come before this one. (DEDUCED, log 85.) -/
def Workgroup.pushersBefore (g : Workgroup) (h : Nat) (c : Cmd) : Bool :=
  g.cmds.any fun p => p.1 != h && p.2.state == .pushing &&
    ((p.2.saved && !c.saved) || ((p.2.chan == c.chan || p.2.saved) && (c.state != .pushing || decide (p.2.order < c.order))))

/-- Step 5: the element of the queue, if there is room. -/
def Workgroup.push (g : Workgroup) (h : Nat) (c : Cmd) (q : Nat) (ch : Chan) : Workgroup :=
  let v := if c.eng = 3 then c.count else h
  ({ g with chans := Tab.modify g.chans q fun ch => { ch with tail := ch.tail + 1 } }.fill q ch.tail (BitVec.ofNat 128 v))

def pushRoom (ch : Chan) : Bool := decide (ch.present < ch.depth)

/-- Steps 5 to 7 of a command; waiting for room it stays. -/
def State.cmdPush (s : State) (w h : Nat) : State :=
  match Tab.find (s.wgOf w).cmds h with
  | none => s
  | some c =>
    match c.chan, (s.wgOf w).resultQueue c with
    | none, _ => s.cmdFree w h
    | some _, none => (s.setFlag w h 7).cmdFree w h
    | some _, some (q, ch) =>
      if pushRoom ch && !(s.wgOf w).pushersBefore h c then (s.modWg w fun g => g.push h c q ch).cmdFree w h
      else if c.state = .pushing then s
      else { s.modCmd w h fun c => { c with state := .pushing, order := s.nextReq } with nextReq := s.nextReq + 1 }

/-- Steps 2 to 4. -/
def State.cmdFinish (s : State) (w h : Nat) (c : Cmd) (cOk mOk : Bool) : State :=
  let s := s.modWg w fun g => g.writeTail c
  let val := bytesOfNat (c.fld 48 4) 4
  let s :=
    if c.cadr = 0 ∨ !cOk then s
    else if c.csp then s.modWg w fun g => g.spadWrite c.cadr.toNat val
    else
      match s.engPlaces w c (c.scope != 0) 4 c.cadr with
      | (.ok ps, s) => ps.foldl (fun s p => (s.engStore w h c.core (c.scope != 0) c.cadr p.2.2 val).2) s
      | (.error _, s) => s
  if c.mb && mOk then
    let (word, surplus) := arriveWord ((s.wgOf w).word c.mbOff) 1
    let s := s.modWg w fun g => g.setWord c.mbOff word
    if surplus then s.setFlag w h 5 else s
  else s

/-- The payload is over and acknowledged. -/
def State.completeReady (s : State) (_w _h : Nat) (c : Cmd) : Bool := c.state == .running && c.ended && s.answered c.deps

/-- A release of die scope or wider is written once the core's stores have reached their homes (R138); a command that ends on
another core than the one that issued it leaves no store behind there (R94). (DEDUCED, log 78.) -/
def Cmd.releases (c : Cmd) (core : Nat) : Bool := (c.cadr != 0 && !c.csp && c.scope != 0) || c.core != core

/-- The flags of every element that was written count (R286). -/
def Cmd.allFlags (c : Cmd) : Nat := c.puts.foldl (fun f p => f ||| p.flags) c.flags

/-- R197: A command ends: payload, record status, completion word, arrival, push, successor, slot. (DEDUCED, log 79.) -/
def execEngineCommandComplete (core slot : Nat) (s : State) : Res :=
  match s.slotCmd core slot s.completeReady with
  | none => .next s
  | some (w, h, c) =>
    let (cBad, s) := s.complWord w c
    let mBad := barrierWord (s.wgOf w) c
    let wrong := cBad.orElse fun _ => mBad
    let s := if c.status = 0 ∧ wrong.isSome then
        s.engLog w (wrong.getD 0) (if cBad.isSome then failAt c.csp c.cadr else none) else s
    let c := { c with status := if c.status = 0 then wrong.getD 0 else c.status, flags := c.allFlags, puts := [] }
    let s := s.modCmd w h fun _ => c
    let (_, s1) := s.flushCore c.core
    if c.releases core ∧ cBad.isNone ∧ !c.flushed ∧ s1.coreOut c.core ≠ [] then
      .next (s1.modCmd w h fun c => { c with deps := s1.coreOut c.core, flushed := true })
    else
      let s := s.modCmd w h fun c => { c with flushed := true }
      .next ((s.cmdFinish w h c cBad.isNone mBad.isNone).cmdPush w h)

/-- An element that waited has room now, or its queue is bound no more. (DEDUCED, log 85.) -/
def State.pushReady (s : State) (w h : Nat) (c : Cmd) : Bool :=
  let g := s.wgOf w
  c.state == .pushing && match g.resultQueue c with
    | none => true
    | some (_, ch) => pushRoom ch && !g.pushersBefore h c

/-- R291: A completing command waiting for room pushes its element into a full result queue. (DEDUCED, log 85.) -/
def execEngineQueuePush (core slot : Nat) (s : State) : Res :=
  match s.slotCmd core slot s.pushReady with
  | none => .next s
  | some (w, h, _) => .next (s.cmdPush w h)

end Sys2Proof.Machine
end

