-- ==== Sys2Proof/Machine/Hearth.lean ====
section
/-! DEFINITION. Regions (R245 to R257, R263): reading an armed block, inheritance, eligibility with its checks, and
completion. Blocks are named by their physical address. -/

namespace Sys2Proof.Machine

/-! ### Blocks in memory (R245 to R247) -/

/-- The Hearth writes a part of a sector at its home; one whose data is uncorrectable refuses it, and only the log says so
(R347). (DEDUCED, log 86.) -/
def State.hearthWrite (s : State) (pa : Nat) (bs : List Byte) : State :=
  let s := s.countAt 0 pa
  if s.isBad pa then s.logData (s.dieFor pa 0) pa 0 none else (s.scrub (s.dieFor pa 0) pa 0 none).writeAtHome 0 pa bs
def State.writeState (s : State) (pa v : Nat) : State := s.hearthWrite pa (bytesOfNat v 4)

/-- A line the host may hold is asked for before the Hearth writes it (R406). -/
def State.hostFirst (s : State) (pas : List Nat) : Option Nat := pas.find? s.hostHolds

/-- The addresses of the successor list; none where it cannot be read. -/
def State.succs (s : State) (t : RTable) (pa : Nat) : Option (List Nat) :=
  (List.range (s.rcb pa 96 2)).mapM fun i => (s.lookup t.ctx (s.rcb pa 88 8 + 8 * i)).map fun a => s.natAt a 8

/-- R249: every address names a block of the table. (DEDUCED, log 69.) -/
def State.linksOk (s : State) (t : RTable) (pa : Nat) : Bool :=
  ([8, 16, 24].all fun off => s.rcb pa off 8 == 0 || t.holds (s.rcb pa off 8)) && decide (s.rcb pa 96 2 ≤ 64) &&
  (s.succs t pa).any fun l => l.all t.holds

/-- R252: the checks of a block at eligibility. (DEDUCED, log 69.) -/
def State.blockOk (s : State) (pa : Nat) (r : Resolved) : Bool :=
  let z (off k : Nat) : Bool := s.rcb pa off k == 0
  let ext (n : Nat) : Bool := decide (1 ≤ n ∧ n ≤ 65535)
  let kind := s.rcb pa 32 1
  z 42 2 && z 84 4 && z 120 8 && z 252 4 && decide (s.rcb pa 4 4 < 256) && decide (kind ≤ 1) && decide (r.cls ≤ 3) &&
  decide (r.level ≤ 15) && decide (r.fdp ≤ 2) && decide (s.rcb pa 98 2 ≤ 3) && s.rcb pa 104 8 % 4 == 0 &&
  ext r.gx && ext r.gy && ext r.gz &&
  (kind == 0 || (r.kernel != 0 && r.kernel.toNat % 64 == 0 && r.args.toNat % 8 == 0 && r.argLen % 8 == 0))

/-! ### Reading an armed block (R248, R250) -/

/-- DEPC and PERIOD let the block run (R252); with the UCIe link down no region is taken (R401). -/
def State.mayRun (s : State) (t : RTable) (pa : Nat) : Bool :=
  let p := (s.resolve t pa).period
  s.rcb pa 36 4 == 0 && (p == 0 || decide (s.rcb pa 208 8 + p ≤ s.hb.toNat)) && !s.uld && s.phase == 2

/-- The block whose run an armed block is of. -/
def State.runParent (s : State) (pa : Nat) : Option Nat :=
  (s.regions.find? fun p => p.2.state == 3 && p.2.kids.contains pa).map Prod.fst

/-- The sectors of a block with uncorrectable data. -/
def State.badBlock (s : State) (pa : Nat) : List Nat := ([0, 64, 128, 192].map fun i => pa + i).filter s.isBad

/-- R250: The watch bit signals the Hearth, which reads the armed block with a system-scope acquire; of a block it cannot read
it knows no more than the log says (R347). (DEDUCED, log 69; DESIGN CHOICE, log 14.) -/
def execHearthReadBlock (pa : Nat) (s : State) : Res :=
  if !s.signals.contains pa then .next s
  else
    let s' := { s with signals := s.signals.filter fun b => b != pa }
    match s.blockAt pa with
    | none => .next s'
    | some (tid, t, _) =>
      if s.badBlock pa ≠ [] then .next ((s.badBlock pa).foldl (fun s a => s.logData (s.dieFor a 0) a t.ctx.asid none) s')
      else if s.rcb pa 0 4 ≠ 1 then .next s'
      else
        match s.hostFirst [pa] with
        | some l => .next (s.snoop l)
        | none =>
          let bad := !s.linksOk t pa
          let wait := !bad && !s.mayRun t pa
          let s' := (List.range 4).foldl (fun s i => (s.countAt 0 (pa + 64 * i)).scrub (s.dieFor pa 0) (pa + 64 * i) t.ctx.asid none) s'
          let s' := if wait then s'.writeState pa 2 else s'
          let r : Region := {
            table := tid, parentRun := s.runParent pa, leaf := s.rcb pa 32 1 == 1, state := if wait then 2 else 1
            ending := if bad then some 5 else none }
          .next { s' with regions := Tab.put s'.regions pa r }

/-! ### Eligibility (R252, R263, R342) -/

/-- A header line of the context, if it can be translated and read; otherwise the header is bad. (DEDUCED, log 111.) -/
def State.headerLine (s : State) (ctx : Ctx) (va : W64) : Option (List Byte) :=
  if va.toNat % 64 ≠ 0 ∨ 2 ^ 48 ≤ va.toNat then none
  else
    (s.lookup ctx va.toNat).bind fun pa =>
      if s.paOk pa ∧ !s.isBad pa ∧ (s.pathFrom 0 23 pa).isSome then some (s.bytesAt pa 64) else none

/-- An uncorrectable error in a header line is logged (R347). -/
def State.headerLog (s : State) (ctx : Ctx) (va : W64) : State :=
  match if va.toNat % 64 ≠ 0 ∨ 2 ^ 48 ≤ va.toNat then none else s.lookup ctx va.toNat with
  | some pa => if s.isBad pa then s.logData (s.dieFor pa 0) pa ctx.asid none else s
  | none => s

/-- What a workgroup of a kernel takes (R226). -/
def Hdr.threads (x : Hdr) : Nat := x.hwarps * x.width
def Hdr.regs (x : Hdr) : Nat := ((List.range x.hwarps).map fun h => x.width * x.budget h).sum
def Hdr.tileCount (x : Hdr) : Nat := x.tileOctets * x.tiles

/-- How many of a kernel's workgroups an empty core holds. -/
def Hdr.perCore (x : Hdr) : Nat :=
  let n (total each : Nat) : Nat := if each = 0 then 32 else total / each
  min 32 (min (n 2048 x.threads) (min (n 131072 x.regs) (min (n 1048576 x.spad) (n 64 x.tileCount))))

/-- One workgroup within a region's budgets (R256, status 6). -/
def oneFits (x : Hdr) (r : Resolved) : Bool :=
  (r.maxThr == 0 || decide (x.threads ≤ r.maxThr)) && (r.maxSpad == 0 || decide (x.spad ≤ r.maxSpad)) && x.perCore != 0

/-- R263: all workgroups fit at once on empty cores. -/
def allFit (x : Hdr) (r : Resolved) (total : Nat) : Bool :=
  let cores := if r.maxCores = 0 then 128 else min 128 r.maxCores
  decide (total ≤ cores * x.perCore) && (r.maxThr == 0 || decide (total * x.threads ≤ r.maxThr)) &&
  (r.maxSpad == 0 || decide (total * x.spad ≤ r.maxSpad))

/-- The status a region fails with when it is launched. -/
def State.launchStatus (s : State) (ctx : Ctx) (r : Resolved) (leaf : Bool) : Option Nat :=
  let handlerBad := r.fhnd != 0 && !(s.headerLine ctx r.fhnd).any handlerHeaderOk
  if handlerBad then some 1
  else if !leaf then none
  else
    match s.headerLine ctx r.kernel with
    | none => some 1
    | some bs =>
      let x := headerOf bs
      if !headerOk bs then some 1
      else if !oneFits x r then some 6
      else if x.gbar ∧ !allFit x r (r.gx * r.gy * r.gz) then some 2
      else none

/-- The children on a list, in order (R252). -/
def State.childList (s : State) (t : RTable) : Nat → Nat → List Nat
  | 0, _ => []
  | n + 1, va =>
    if va = 0 ∨ !t.holds va then []
    else
      match s.lookup t.ctx va with
      | some pa => pa :: s.childList t n (s.rcb pa 24 8)
      | none => []

/-- Each idle child is armed (R252). -/
def State.armChildren (s : State) (t : RTable) (l : List Nat) : State :=
  l.foldl (fun s c => if s.rcb c 0 4 = 0 then (s.writeState c 1).arm t c else s) s

/-- The Hearth knows the block as armed or waiting, and it may run. -/
def State.eligible (s : State) (pa : Nat) (r : Region) : Bool :=
  (r.state == 1 || r.state == 2) && r.ending.isNone && (Tab.find s.tables r.table).any fun t => s.mayRun t pa

/-- A block the Hearth found able to run has to wait again: its count was raised before it ran. -/
def State.waitsAgain (s : State) (pa : Nat) (r : Region) : Bool :=
  r.state == 1 && r.ending.isNone && (Tab.find s.tables r.table).any fun t => !s.mayRun t pa

/-- The lines a step writes: the block's and those of its children. -/
def State.eligibleLines (s : State) (t : RTable) (pa : Nat) (r : Region) : List Nat :=
  [pa, pa + 192] ++ (if r.leaf then [] else s.childList t t.blocks (s.rcb pa 16 8))

/-- R252: An armed block with DEPC 0 and PERIOD passed is checked, set running and launched; one that must wait is in
state 2. -/
def execRegionEligible (pa : Nat) (s : State) : Res :=
  match Tab.find s.regions pa with
  | none => .next s
  | some r =>
    if s.waitsAgain pa r then
      match s.hostFirst [pa] with
      | some l => .next (s.snoop l)
      | none => .next { s.writeState pa 2 with regions := Tab.put s.regions pa { r with state := 2 } }
    else
    match if s.eligible pa r then Tab.find s.tables r.table else none with
    | none => .next s
    | some t =>
      match s.hostFirst (s.eligibleLines t pa r) with
      | some l => .next (s.snoop l)
      | none =>
        let res := s.resolve t pa
        if !s.blockOk pa res then .next { s with regions := Tab.put s.regions pa { r with ending := some 5 } }
        else
          let leaf := s.rcb pa 32 1 == 1
          let s := if leaf then s.headerLog t.ctx res.kernel else s
          let s := if leaf ∧ res.fhnd ≠ 0 then s.headerLog t.ctx res.fhnd else s
          let line (va : W64) : Hdr := ((s.headerLine t.ctx va).map headerOf).getD {}
          let hd := line res.kernel
          let fh := line res.fhnd
          let r := { r with
            leaf, state := 3, res, hdr := if leaf then hd else {}, fhEntry := fh.entry, fhLen := fh.len, reltk := s.hb
            total := if leaf then res.gx * res.gy * res.gz else 0, ending := s.launchStatus t.ctx res leaf }
          let s := (s.hearthWrite (pa + 208) (bytesOfNat s.hb.toNat 8)).writeState pa 3
          let s := { s with regions := Tab.put s.regions pa r }
          .next (if leaf ∨ r.ending.isSome then s else s.armChildren t (s.childList t t.blocks (s.rcb pa 16 8)))

/-! ### The end of a region (R253 to R257) -/

/-- Workgroups of a block. -/
def State.wgsOf (s : State) (pa : Nat) : List (Nat × Workgroup) := s.wgs.filter fun p => p.2.block = pa

/-- R256: a workgroup is ended: its threads, without successor, and its held and queued commands. One that is saved holds
nothing more. (DEDUCED, log 67.) -/
def Workgroup.killed (g : Workgroup) : Workgroup :=
  let g := (Tab.keys g.threads).foldl (fun g t => if (g.thread t).ended then g else g.endThread t false) g
  { g with
    kill := true, tails := [], relSets := [], trapSets := [], defers := [], cmds := Tab.map (fun _ c => c.cancel) g.cmds
    threads := Tab.map (fun _ t => { t with tailed := false, pend := [] }) g.threads
    mxq := [] }

/-- All workgroups of a region end (R256). (DEDUCED, log 67.) -/
def State.killAll (s : State) (pa : Nat) : State :=
  { s with wgs := s.wgs.filterMap fun p =>
      if p.2.block ≠ pa then some p
      else if p.2.status = .parked then none
      else some (p.1, if p.2.kill then p.2 else p.2.killed) }

/-- A run that ends early has workgroups to end. -/
def State.mustKill (s : State) (pa : Nat) (r : Region) : Bool :=
  r.ending.isSome && (s.wgsOf pa).any fun p => !p.2.kill || p.2.status == .parked

/-- A bind record of the block that has not been obeyed. -/
def State.recordsOut (s : State) (pa : Nat) : Nat :=
  (List.map (fun k => (k.2.slots.filter fun b => b.2.block = pa ∧ (b.2.op = 1 ∨ b.2.op = 2) ∧ b.2.obeyed = false).length)
    s.cores).sum

/-- Everything of the run has ended. -/
def State.runOver (s : State) (pa : Nat) (r : Region) : Bool :=
  (s.wgsOf pa).isEmpty && s.recordsOut pa == 0 &&
  match r.ending with
  | some _ => r.kids.all fun k => !(Tab.find s.regions k).any fun q => q.state == 3
  | none => r.state == 3 && if r.leaf then r.done == r.total && r.bound == r.total else r.kids.isEmpty

/-- The completion word, as a release of the block's scope: every store of the region has reached its home.
(DEDUCED, log 71.) -/
def State.completeWord (s : State) (t : RTable) (pa st : Nat) : State :=
  let va := s.rcb pa 104 8
  let v := if st = 0 then s.rcb pa 100 4 else (2 ^ 31 + st) % 2 ^ 32
  let fail (s : State) (a cls code : Nat) : State := s.log 0 (logEntry a 0 9 cls code t.ctx.asid none 0 s.hb)
  if va = 0 then s
  else
    match if 2 ^ 48 ≤ va then none else s.lookup t.ctx va with
    | none => fail s 0 5 0x10
    | some a =>
      let m := spanMask (a % 64) 4
      let d := sectorData (List.replicate (a % 64) 0 ++ bytesOfNat v 4)
      if !s.paOk a then fail s a 3 0x11
      else if s.sealedAt a 4 then fail s a 4 0x12
      else if s.isBad a then fail s a 2 0x13
      else if (s.pathFrom 0 23 a).isNone then fail s a 6 0x14
      else if s.hitsState (sectorOf a) m then
        match s.stateWrite (sectorOf a) d m with
        | none => fail s a 3 0x11
        | some arms => let s := s.hearthWrite a (bytesOfNat v 4); if arms then s.signal (sectorOf a) else s
      else s.hearthWrite a (bytesOfNat v 4)

/-- R254. (DEDUCED, log 70.) -/
def State.decDepc (s : State) (t : RTable) (va : Nat) : State :=
  match s.lookup t.ctx va with
  | none => s
  | some pa =>
    match s.rcb pa 36 4 with
    | 0 => s.log 0 (logEntry (pa + 36) 0 9 8 0 t.ctx.asid none 0 s.hb)
    | n + 1 => s.hearthWrite (pa + 36) (bytesOfNat n 4)

/-- The counters and STATUS, which are cumulative (R255, R257). (DEDUCED, log 71.) -/
def State.writeCounters (s : State) (pa : Nat) (r : Region) (st : Nat) : State :=
  let late := r.state == 3 && r.res.dbud != 0 && decide (r.reltk.toNat + r.res.dbud < s.hb.toNat)
  let add (off : Nat) (n : Nat) : List Byte := bytesOfNat ((s.rcb pa off 8 + n) % 2 ^ 64) 8
  s.hearthWrite (pa + 216)
    (add 216 r.done ++ add 224 r.runtk.toNat ++ add 232 r.npre.toNat ++ add 240 late.toNat ++ bytesOfNat st 4)

/-- R255: the end of a run. (DEDUCED, log 71.) -/
def State.finishRegion (s : State) (t : RTable) (pa : Nat) (r : Region) : State :=
  let st := r.ending.getD 0
  let s := (s.writeCounters pa r st).writeState pa (if st = 0 then 4 else 5)
  let s := s.completeWord t pa st
  let s := if st = 0 then ((s.succs t pa).getD []).foldl (fun s va => s.decDepc t va) s else s
  { s with regions := Tab.map (fun _ (q : Region) => { q with kids := q.kids.filter fun k => k != pa }) (Tab.erase s.regions pa) }

/-- The lines it writes. -/
def State.finishLines (s : State) (t : RTable) (pa : Nat) : List Nat :=
  let va := s.rcb pa 104 8
  [pa, pa + 216] ++ (if va = 0 then [] else (s.lookup t.ctx va).toList) ++ ((s.succs t pa).getD []).filterMap fun va => s.lookup t.ctx va

/-- R255: A completed region writes counters, state and completion and decrements successors. -/
def execRegionComplete (pa : Nat) (s : State) : Res :=
  match Tab.find s.regions pa with
  | none => .next s
  | some r =>
    if s.mustKill pa r then .next (s.killAll pa).unblock
    else
      match if s.runOver pa r then Tab.find s.tables r.table else none with
      | none => .next s
      | some t =>
        match s.hostFirst (s.finishLines t pa) with
        | some l => .next (s.snoop l)
        | none => .next (s.finishRegion t pa r)

end Sys2Proof.Machine
end

