-- ==== Sys2Proof/Machine/Bind.lean ====
section
/-! DEFINITION. Workgroups on cores (R226, R227, R258 to R266, R351 to R354, R94, R95): the Hearth's choice of what is bound
where, the dispatch unit's obeying of bind records, pre-emption and resumption, the end of a workgroup and the start of a
`tail` successor, and the power states the Hearth sets. -/

namespace Sys2Proof.Machine

/-! ### What occupies a core (R226, R258) -/

/-- The header of the workgroup a record is of: of the workgroup itself, or of its region while it is not bound. -/
def State.recHdr (s : State) (b : BindRec) : Hdr :=
  match b.uid.bind fun w => Tab.find s.wgs w with
  | some g => g.hdr
  | none => ((Tab.find s.regions b.block).map (·.hdr)).getD {}

/-- The records in the slots of a core, each with what its workgroup takes. -/
def State.occupants (s : State) (core : Nat) : List (BindRec × Hdr) :=
  ((s.coreOf core).slots.filter fun p => p.2.op != 0).map fun p => (p.2, s.recHdr p.2)

def State.resThreads (s : State) (core : Nat) : Nat := ((s.occupants core).map fun o => o.2.threads).sum

/-- The lowest aligned place for `n` units clear of the ranges in use. -/
def firstFit (align total n : Nat) (used : List (Nat × Nat)) : Option Nat :=
  if n = 0 then some 0
  else
    let starts := 0 :: used.map fun p => (p.1 + p.2 + align - 1) / align * align
    bestOf (fun a b => decide (a < b)) (starts.filter fun a =>
      decide (a + n ≤ total) && used.all fun p => decide (p.1 + p.2 ≤ a ∨ a + n ≤ p.1))

/-- A place on a core: its slot and the three bases. -/
structure Place where
  core : Nat
  slot : Nat
  sp : Nat
  reg : Nat
  acc : Nat
  deriving DecidableEq, Repr

/-- Where a workgroup fits beside some occupants of a core (R226). -/
def placeAmong (core : Nat) (h : Hdr) (slots : List Nat) (occ : List (BindRec × Hdr)) : Option Place :=
  if 2048 < (occ.map fun o => o.2.threads).sum + h.threads then none
  else
    match (List.range 32).find? (fun i => !slots.contains i),
      firstFit 256 1048576 h.spad (occ.map fun o => (o.1.spBase, o.2.spad)),
      firstFit 1 131072 h.regs (occ.map fun o => (o.1.regBase, o.2.regs)),
      firstFit 1 64 h.tileCount (occ.map fun o => (o.1.accBase, o.2.tileCount)) with
    | some slot, some sp, some reg, some acc => some ⟨core, slot, sp, reg, acc⟩
    | _, _, _, _ => none

/-- Two workgroups do not hold one core's array, nor its tables. -/
def Workgroup.claimsApart (g y : Workgroup) : Bool :=
  (g.matrix.isNone || y.matrix.isNone) && (g.act.isNone || y.act.isNone)

/-- A workgroup that holds the array or the tables resumes only where they are unclaimed (R128, R191). -/
def State.claimsOpen (s : State) (core : Nat) (g : Workgroup) (gone : List Nat) : Bool :=
  s.wgs.all fun p => p.2.core != core || p.2.status == .parked || gone.contains p.1 || g.claimsApart p.2

/-- The Hearth sends it only there, and not to a core where a record resumes another holder. -/
def State.claimsFree (s : State) (core : Nat) (g : Option Workgroup) (gone : List Nat) : Bool :=
  match g with
  | none => true
  | some g => s.claimsOpen core g gone && (s.coreOf core).slots.all fun b =>
      b.2.op != 2 || b.2.obeyed || (b.2.uid.bind (Tab.find s.wgs)).all g.claimsApart

/-- A core's units are all in P0 or P1 (R266). -/
def State.lightCore (s : State) (core : Nat) : Bool := (List.range 7).all fun i => decide (s.powerOf (core * 8 + i) ≤ 1)

/-- The place of a workgroup on a core, the workgroups in `gone` counted as not there. -/
def State.placeOn (s : State) (core : Nat) (h : Hdr) (cls : Nat) (g : Option Workgroup) (gone : List Nat) : Option Place :=
  let there (b : BindRec) : Bool := !(b.uid.any gone.contains)
  let slots := ((s.coreOf core).slots.filter fun p => p.2.op != 0 && there p.2).map Prod.fst
  if (cls = 0 ∧ !s.lightCore core) ∨ !s.claimsFree core g gone then none
  else placeAmong core h slots ((s.occupants core).filter fun o => there o.1)

/-! ### What waits for a place (R259, R260) -/

/-- The parked workgroups of a block that no record resumes yet, ascending. -/
def State.parkedOf (s : State) (pa : Nat) : List (Nat × Workgroup) :=
  let named (w : Nat) : Bool := s.cores.any fun k => k.2.slots.any fun b => b.2.op == 2 && b.2.uid == some w
  ((s.wgsOf pa).filter fun p => p.2.status == .parked && !named p.1).mergeSort fun a b => decide (a.2.wg ≤ b.2.wg)

/-- Workgroups of a block for which an OP 1 record is written but not obeyed. -/
def State.bindsOut (s : State) (pa : Nat) : Nat :=
  (List.map (fun k => (k.2.slots.filter fun b => b.2.block = pa ∧ b.2.op = 1 ∧ b.2.obeyed = false).length) s.cores).sum

/-- The next workgroup of a region: one parked, or the number of one to bind. -/
def State.nextOf (s : State) (pa : Nat) (r : Region) : Option (Option (Nat × Workgroup) × Nat) :=
  if r.state ≠ 3 ∨ !r.leaf ∨ r.ending.isSome then none
  else
    match s.parkedOf pa with
    | p :: _ => some (some p, p.2.wg)
    | [] => let n := r.bound + s.bindsOut pa; if n < r.total then some (none, n) else none

/-- The place of a region in the order of R259 and R263. (DEDUCED, log 89.) -/
def regionKey (pa : Nat) (r : Region) (parked : Bool) : List Nat :=
  [r.res.cls, 15 - r.res.level, if r.hdr.gbar && parked then 0 else 1, r.reltk.toNat, pa]

/-- The regions with a workgroup to place, in order. (DEDUCED, log 89.) -/
def State.queue (s : State) : List (Nat × Region × Option (Nat × Workgroup) × Nat) :=
  let l := s.regions.filterMap fun p => (s.nextOf p.1 p.2).map fun n => (p.1, p.2, n.1, n.2)
  l.mergeSort fun a b =>
    !(List.lex (regionKey b.1 b.2.1 b.2.2.1.isSome) (regionKey a.1 a.2.1 a.2.2.1.isSome) fun x y => decide (x < y))

/-! ### Budgets (R261) -/

/-- The region's resident workgroups: core and what each takes. -/
def State.resident_ (s : State) (pa : Nat) : List (Nat × Hdr) :=
  s.cores.flatMap fun k => (k.2.slots.filter fun b => b.2.op != 0 && b.2.block == pa).map fun b => (k.1, s.recHdr b.2)

/-- One workgroup more of a region on a core stays within its budgets. -/
def withinBudget (res : Resolved) (there : List (Nat × Hdr)) (core : Nat) (h : Hdr) : Bool :=
  let cores := ((core :: there.map Prod.fst).dedup).length
  (res.maxThr == 0 || decide ((there.map fun p => p.2.threads).sum + h.threads ≤ res.maxThr)) &&
  (res.maxSpad == 0 || decide ((there.map fun p => p.2.spad).sum + h.spad ≤ res.maxSpad)) &&
  (res.maxCores == 0 || decide (cores ≤ res.maxCores))

/-- Some core is within the region's budgets. (DEDUCED, log 89.) -/
def State.budgetOpen (s : State) (pa : Nat) (r : Region) : Bool :=
  (List.range 128).any fun c => withinBudget r.res (s.resident_ pa) c r.hdr

/-! ### Placement (R264) -/

/-- Bytes of a page in the ranges of a leaf that a die homes; one that is moving is homed where it was (R315).
(DEDUCED, log 73.) -/
def State.affinityBytes (s : State) (ctx : Ctx) (res : Resolved) (die : Nat) : Nat :=
  (res.aff.map fun a =>
    if a.2 = 0 then 0
    else ((List.range ((a.1 + a.2 - 1) / 4096 - a.1 / 4096 + 1)).map fun i =>
      let lo := max a.1 ((a.1 / 4096 + i) * 4096)
      let hi := min (a.1 + a.2) ((a.1 / 4096 + i + 1) * 4096)
      if (s.lookup ctx lo).any fun p => s.homeDie p == some die then hi - lo else 0).sum).sum

/-- The die a workgroup of the region goes to first. (DEDUCED, log 73.) -/
def State.dieChoice (s : State) (r : Region) : Nat :=
  let ctx := ((Tab.find s.tables r.table).map (·.ctx)).getD {}
  if r.res.aff.any fun a => a.2 != 0 then
    if s.affinityBytes ctx r.res 0 < s.affinityBytes ctx r.res 1 then 1 else 0
  else if r.far1 < r.far0 then 1 else 0

/-- The cores of a die: the cluster with the fewest resident threads first, then the lowest number. -/
def State.coresInOrder (s : State) (die : Nat) : List Nat :=
  let cluster (k : Nat) : Nat := ((List.range 4).map fun i => s.resThreads (die * 64 + 4 * k + i)).sum
  let ks := (List.range 16).map fun k => (cluster k, k)
  (ks.mergeSort fun a b => decide (a.1 < b.1 ∨ (a.1 = b.1 ∧ a.2 ≤ b.2))).flatMap fun k =>
    (List.range 4).map fun i => die * 64 + 4 * k.2 + i

/-- A core that another region's pre-emption is freeing, or that is kept with such cores for a whole launch.
(DEDUCED, log 89.) -/
def State.reserved (s : State) (pa core : Nat) : Bool := s.regions.any fun p => p.1 != pa && p.2.target.contains core

/-- Where the next workgroup of a region goes now: on a core awaited, else by R264. -/
def State.placeFor (s : State) (pa : Nat) (r : Region) (g : Option Workgroup) : Option Place :=
  let h := (g.map (·.hdr)).getD r.hdr
  let try_ (c : Nat) : Option Place :=
    if s.reserved pa c ∨ !withinBudget r.res (s.resident_ pa) c h then none else s.placeOn c h r.res.cls g []
  let d := s.dieChoice r
  (if r.target = [] then s.coresInOrder d ++ s.coresInOrder (1 - d) else r.target).findSome? try_

/-! ### HEARTH_BIND (R258 to R263) -/

/-- A bind record is written; a core that sleeps is woken. -/
def State.writeRecord (s : State) (pa : Nat) (r : Region) (p : Place) (g : Option (Nat × Workgroup)) (n : Nat) : State :=
  let b : BindRec := {
    block := pa, ctxAddr := (g.map fun q => q.2.ctxAddr).getD 0, wg := n, spBase := p.sp, regBase := p.reg, accBase := p.acc
    asid := ((Tab.find s.tables r.table).map fun t => t.ctx.asid).getD 0, op := if g.isSome then 2 else 1
    cls := r.res.cls, lvl := r.res.level, uid := g.map Prod.fst, seq := s.nextReq }
  let s := { s with nextReq := s.nextReq + 1 }.modCore p.core fun k => { k with slots := Tab.put k.slots p.slot b }
  let s := s.wakeUnit (coreUnit p.core)
  { s with regions := Tab.modify s.regions pa fun r => { r with waiting := none, target := [] } }

/-- The workgroups of a launch from `n` on are placed one after another; none if one of them fits nowhere. -/
def State.placeAll (s : State) (pa : Nat) (r : Region) : Nat → Nat → Option State
  | 0, _ => some s
  | k + 1, n => (s.placeFor pa r none).bind fun p => (s.writeRecord pa r p none n).placeAll pa r k (n + 1)

/-- The Hearth places the next workgroup of a region, or all of a launch that declares the grid barrier. -/
def State.tryBind (s : State) (pa : Nat) (r : Region) (g : Option (Nat × Workgroup)) (n : Nat) : Option State :=
  if r.hdr.gbar ∧ g.isNone then s.placeAll pa { r with target := [] } (r.total - n) n
  else (s.placeFor pa r (g.map Prod.snd)).map fun p => s.writeRecord pa r p g n

/-- The workgroups a pre-emption may take, in order: lowest class, level, latest bound, highest core (R262). -/
def State.victims (s : State) (cls die : Nat) : List (Nat × Workgroup) :=
  let key (g : Workgroup) : List Nat := [3 - g.cls, g.level, 2 ^ 64 - g.boundSeq, 128 - g.core]
  (s.wgs.filter fun p => p.2.status == .running && decide (cls < p.2.cls) && dieOfCore p.2.core == die).mergeSort
    fun a b => !(List.lex (key b.2) (key a.2) fun x y => decide (x < y))

/-- The first core on which the candidates counted so far free the room. -/
def State.findRoom (s : State) (ok : Nat → List Nat → Bool) : List (Nat × Workgroup) → List (Nat × Workgroup) →
    Option (Nat × List Nat)
  | _, [] => none
  | seen, v :: rest =>
    let seen := seen ++ [v]
    let mine := (seen.filter fun p => p.2.core = v.2.core).map Prod.fst
    if ok v.2.core mine then some (v.2.core, mine) else s.findRoom ok seen rest

/-- R262: the core to free and the workgroups to pre-empt there. One of a `gbar` launch is taken only when no other
candidate frees the room. -/
def State.roomFor (s : State) (pa : Nat) (r : Region) (g : Option Workgroup) : Option (Nat × List Nat) :=
  let h := (g.map (·.hdr)).getD r.hdr
  let ok (c : Nat) (gone : List Nat) : Bool :=
    !s.reserved pa c && withinBudget r.res (s.resident_ pa) c h && (s.placeOn c h r.res.cls g gone).isSome
  let on (d : Nat) : Option (Nat × List Nat) :=
    let vs := s.victims r.res.cls d
    let plain := vs.filter fun v => !v.2.hdr.gbar
    (s.findRoom ok [] plain).orElse fun _ => s.findRoom ok [] (plain ++ vs.filter fun v => v.2.hdr.gbar)
  let d := s.dieChoice r
  (on d).orElse fun _ => on (1 - d)

/-- OP 3 is written over the victims' slots, and the core awaited. -/
def State.preempt (s : State) (pa : Nat) (room : Nat × List Nat) : State :=
  let s := s.modCore room.1 fun k => { k with slots := Tab.map (fun _ (b : BindRec) =>
    if b.uid.any room.2.contains then { b with op := 3, obeyed := false, seq := s.nextReq } else b) k.slots }
  { s with nextReq := s.nextReq + 1, regions := Tab.modify s.regions pa fun r => { r with target := r.target ++ [room.1] } }

/-- The workgroups of a room counted as not there. -/
def State.vacate (s : State) (room : Nat × List Nat) : State :=
  { s.modCore room.1 fun k => { k with slots := k.slots.filter fun p => !(p.2.uid.any room.2.contains) } with
    wgs := s.wgs.filter fun p => !(room.2.contains p.1) }

/-- R263: a core for every workgroup of a launch from `n` on, with what must be pre-empted there; none if room for one of
them cannot be freed. (DEDUCED, log 89.) -/
def State.roomForAll (s : State) (pa : Nat) (r : Region) : Nat → Nat → Option (List (Nat × List Nat))
  | 0, _ => some []
  | k + 1, n =>
    match s.placeFor pa r none with
    | some p => ((s.writeRecord pa r p none n).roomForAll pa r k (n + 1)).map fun l => (p.core, []) :: l
    | none =>
      (s.roomFor pa r none).bind fun room =>
        ((s.vacate room).placeFor pa { r with target := [room.1] } none).bind fun p =>
          (((s.vacate room).writeRecord pa r p none n).roomForAll pa r k (n + 1)).map fun l => room :: l

/-- The pre-emptions for the next workgroup of a region, or for all of a launch that declares the grid barrier. -/
def State.freeRoom (s : State) (pa : Nat) (r : Region) (g : Option (Nat × Workgroup)) (n : Nat) : Option State :=
  let r := { r with target := [] }
  let s' := { s with regions := Tab.modify s.regions pa fun r => { r with target := [] } }
  if r.hdr.gbar ∧ g.isNone then (s.roomForAll pa r (r.total - n) n).map fun l => l.foldl (fun s room => s.preempt pa room) s'
  else (s.roomFor pa r (g.map Prod.snd)).map (s'.preempt pa)

/-- A pre-emption for the region is under way. -/
def State.awaitsRoom (s : State) (r : Region) : Bool :=
  r.target.any fun c => (s.coreOf c).slots.any fun b => b.2.op == 3

/-- The first workgroup in order that fits nowhere for want of room, not of budget, and awaits no core.
(DEDUCED, log 89.) -/
def State.firstStuck (s : State) : Option (Nat × Region × Option (Nat × Workgroup) × Nat) :=
  s.queue.find? fun x =>
    !s.awaitsRoom x.2.1 && s.budgetOpen x.1 x.2.1 && (s.tryBind x.1 x.2.1 x.2.2.1 x.2.2.2).isNone

/-- A region whose workgroup fits nowhere begins to wait (R262). -/
def State.startsWaiting (s : State) (pa : Nat) : Bool :=
  (s.queue.find? fun x => x.1 = pa).any fun x =>
    x.2.1.waiting.isNone && !s.awaitsRoom x.2.1 && s.budgetOpen pa x.2.1 && (s.tryBind pa x.2.1 x.2.2.1 x.2.2.2).isNone

/-- A pre-emption for the block, if it is the one that may pre-empt and `may` holds. -/
def State.preemptFor (s : State) (pa : Nat) (may : Region → Bool) : Option State :=
  s.firstStuck.bind fun x =>
    if x.1 = pa && may x.2.1 then s.freeRoom pa x.2.1 x.2.2.1 x.2.2.2 else none

def deadlineMay (r : Region) : Bool := r.res.cls == 0

/-- What the Hearth does first in the order of R259: the next workgroup of a region is bound, or takes its room from others
(R261); a region where neither can be done is passed over. (DEDUCED, log 89.) -/
def State.firstBindable (s : State) : List (Nat × Region × Option (Nat × Workgroup) × Nat) → Option (Nat × State)
  | [] => none
  | x :: rest =>
    match (s.tryBind x.1 x.2.1 x.2.2.1 x.2.2.2).orElse fun _ => s.preemptFor x.1 deadlineMay with
    | some t => some (x.1, t)
    | none => s.firstBindable rest

/-- What the Hearth does for a block now. -/
def State.hearthBind (s : State) (pa : Nat) : Option State :=
  match s.firstBindable s.queue with
  | some (b, t) => if b = pa then some t else none
  | none =>
    if s.startsWaiting pa then
      some { s with regions := Tab.modify s.regions pa fun r => { r with waiting := some s.hb } }
    else none

/-- R261: The Hearth binds the next workgroup in priority order where it fits, when room frees. -/
def execHearthBind (pa : Nat) (s : State) : Res := .next ((s.hearthBind pa).getD s)

/-- 64 ticks of waiting. -/
def State.waitedMay (s : State) (r : Region) : Bool :=
  r.res.cls == 1 && r.waiting.any fun t => decide (t.toNat + 64 ≤ s.hb.toNat)

/-- R262: A high-class workgroup that has waited 64 ticks may pre-empt. -/
def execHighClassPreemptWait (pa : Nat) (s : State) : Res := .next ((s.preemptFor pa s.waitedMay).getD s)

/-! ### Obeying a record (R227, R258, R354) -/

/-- The threads of a kernel at their start (R227). -/
def startThreads (h : Hdr) : Tab Thread := (List.range h.threads).map fun i => (i, { tid := i, pc := ⟨h.entry, 0⟩ })

/-- The words of an argument block, as memory holds them now (R82). -/
def State.argBlock (s : State) (ctx : Ctx) (args : W64) (len : Nat) : Tab W64 :=
  (List.range (len / 8)).foldl (fun m i =>
    match s.lookup ctx (args.toNat + 8 * i) with
    | some pa => Tab.set 0 m i (BitVec.ofNat 64 (s.natAt pa 8))
    | none => m) []

/-- Scratchpad bytes the workgroup finds: 0, or what an earlier workgroup of its context left (R270).
(DESIGN CHOICE, log 7.) -/
def leftBytes (k : Core) (asid base len n : Nat) : Tab Byte :=
  k.left.filterMap fun p =>
    if base ≤ p.1 ∧ p.1 < base + len ∧ p.2.1 = asid ∧ p.2.2 ≠ 0 ∧ Config.spadKept n (p.1 - base) then some (p.1 - base, p.2.2)
    else none

/-- The acquire tick of a core is raised (R258, R354). -/
def State.raiseAcq (s : State) (core : Nat) : State :=
  s.modCore core fun k => { k with acq := if k.acq.ult s.hb then s.hb else k.acq, clk := max k.clk s.clk0 }

/-- A record that resumes a workgroup waits while another holds what it has claimed (R128, R191). -/
def State.resumeWaits (s : State) (core : Nat) (b : BindRec) : Bool :=
  b.op == 2 && (b.uid.bind (Tab.find s.wgs)).any fun g => !s.claimsOpen core g []

/-- The record in a slot that the dispatch unit may obey: the first of those written, but for one that waits for a claim
(R258). (DEDUCED, log 89.) -/
def State.record (s : State) (core slot op : Nat) : Option BindRec :=
  (Tab.find (s.coreOf core).slots slot).bind fun b =>
    if b.op = op ∧ !b.obeyed ∧ !s.resumeWaits core b ∧
        ((s.coreOf core).slots.all fun p => p.2.op == 0 || p.2.obeyed || decide (b.seq ≤ p.2.seq) || s.resumeWaits core p.2) then
      some b
    else none

def State.freeSlot (s : State) (core slot : Nat) : State := s.modCore core fun k => { k with slots := Tab.erase k.slots slot }

/-- The workgroup a record binds. (DESIGN CHOICE, log 6.) -/
def State.newWorkgroup (s : State) (core slot : Nat) (b : BindRec) (r : Region) (t : RTable) : Workgroup :=
  { block := b.block, wg := b.wg, ctx := t.ctx, core, slot, spBase := b.spBase, regBase := b.regBase, accBase := b.accBase
    cls := b.cls, level := b.lvl, hdr := r.hdr, hdrVa := r.res.kernel, fhnd := r.res.fhnd, fhEntry := r.fhEntry, fhLen := r.fhLen
    args := r.res.args, argLen := r.res.argLen, argWords := s.argBlock t.ctx r.res.args r.res.argLen
    threads := startThreads r.hdr, spad := leftBytes (s.coreOf core) t.ctx.asid b.spBase r.hdr.spad s.binds
    boundAt := s.hb, boundSeq := s.binds }

/-- A core in P4 has been initialised, one that sleeps has woken: it takes records (R265). -/
def State.takes (s : State) (core : Nat) : Bool := s.awake (coreUnit core)

/-- R258: The dispatch unit obeys an OP 1 bind record, allocating ranges and starting threads. -/
def execBind (core slot : Nat) (s : State) : Res :=
  match if s.takes core then s.record core slot 1 else none with
  | none => .next s
  | some b =>
    match Tab.find s.regions b.block with
    | none => .next (s.freeSlot core slot)
    | some r =>
      match if r.ending.isSome then none else Tab.find s.tables r.table with
      | none => .next (s.freeSlot core slot)
      | some t =>
        let g := s.newWorkgroup core slot b r t
        let s := (s.modCore core fun k => { k with
          slots := Tab.put k.slots slot { b with uid := some s.binds, obeyed := true }
          left := k.left.filter fun p => !decide (b.spBase ≤ p.1 ∧ p.1 < b.spBase + r.hdr.spad) }).raiseAcq core
        .next { s with
          wgs := Tab.put s.wgs s.binds g, binds := s.binds + 1
          regions := Tab.modify s.regions b.block fun r => { r with bound := r.bound + 1 } }

/-- A thread of a resumed workgroup: a privileged one goes on in its handler, any other enters the restore handler, or
goes on where it was if there is none. -/
def Thread.resume (restore : Option Nat) (t : Thread) : Thread :=
  if t.ended then t
  else
    let t := { t with parked := false, entered := 0, wait := 0 }
    match if t.priv then none else restore with
    | some e => t.pushFrame .restoreHandler e
    | none => { t with hold := match t.hold with | .trapping set => .trapping set | h => h.kept }

/-- Commands are queued again in their order. -/
def renumber (cmds : Tab Cmd) (n : Nat) : Tab Cmd :=
  Tab.map (fun _ (c : Cmd) => { c with order := n + (cmds.filter fun p => decide (p.2.order < c.order)).length }) cmds

/-- R354: The dispatch unit restores a saved context on a core and runs the restore handler. -/
def execResume (core slot : Nat) (s : State) : Res :=
  match if s.takes core then s.record core slot 2 else none with
  | none => .next s
  | some b =>
    match b.uid.bind fun w => (Tab.find s.wgs w).map fun g => (w, g) with
    | none => .next (s.freeSlot core slot)
    | some (w, g) =>
      let s := (s.modCore core fun k => { k with slots := Tab.put k.slots slot { b with obeyed := true } }).raiseAcq core
      let g := { g with
        core, slot, spBase := b.spBase, regBase := b.regBase, accBase := b.accBase, status := .running, relSets := []
        threads := Tab.map (fun _ t => Thread.resume g.hdr.restore t) g.threads, cmds := renumber g.cmds s.nextReq
        boundAt := s.hb, boundSeq := s.binds, starved := 0 }
      let s := { s with wgs := Tab.put s.wgs w g, binds := s.binds + 1, nextReq := s.nextReq + g.cmds.length }
      let s := if g.mxq = [] then s else s.wakeUnit (arrayUnit core)
      let ts := (g.threads.filter fun p => p.2.priv || g.hdr.restore.isNone).map Prod.fst
      .next (s.arrive w ts).settleAll.unblock

/-! ### Pre-emption (R351, R352, R353) -/

/-- The dispatch unit finds OP 3 in a slot. -/
def execPreempt (core slot : Nat) (s : State) : Res :=
  match (s.record core slot 3).bind fun b => b.uid.bind fun w => (Tab.find s.wgs w).map fun g => (b, w, g) with
  | none => .next s
  | some (b, w, g) =>
    let s := s.modCore core fun k => { k with slots := Tab.put k.slots slot { b with obeyed := true } }
    if g.status ≠ .running then .next s
    else
      .next { s.modWg w fun g => { g with
          status := .preempting, threads := Tab.map (fun _ (t : Thread) => { t with entered := 0 }) g.threads } with
        regions := Tab.modify s.regions g.block fun r => { r with npre := r.npre + 1 } }

/-- The thread is between two issue groups: it is not about to issue a group as one of a release set or of a formed warp
already granted, and not on its way into a trap handler. (DEDUCED, log 74.) -/
def State.atBoundary (s : State) (w : Nat) (g : Workgroup) (t : Thread) : Bool :=
  !t.ended && !t.parked && (match t.hold with | .trapping _ => false | _ => true) &&
  !(g.relSets.any fun r => r.tids.contains t.tid && g.setReady [] r) && !(s.granted.any fun gr => gr.wg == w && gr.tids.contains t.tid)

/-- A user-level thread settles before it enters the handler, as before any other (R25, R185). -/
def Thread.settle (t : Thread) : Thread := { t with hold := .implicit }

/-- The threads that pre-emption reaches now. (DEDUCED, log 74.) -/
def State.entryReady (s : State) (w tid : Nat) : Bool :=
  let g := s.wgOf w
  let t := g.thread tid
  g.status == .preempting && t.entered == 0 && s.atBoundary w g t &&
  (t.priv || t.user == .restoreHandler || s.idle w t || match t.hold with | .implicit | .yield .. => false | _ => true)

/-- R351; `idle` when it has settled. A `yield` that holds it stays. (DEDUCED, log 87.) -/
def Thread.preempted (idle : Bool) (handler : Option Nat) (clk : Nat) (t : Thread) : Thread :=
  if t.priv then { t with hold := t.hold.kept, parked := true, stage := 0 }
  else if t.user = .restoreHandler then { t.popFrame with parked := true, switched := false, stage := 0 }
  else if !idle then t.settle
  else
    match handler with
    | some e => { t.pushFrame .preemptHandler e with entered := clk + 1 }
    | none => { t with hold := t.hold.kept, parked := true, stage := 0 }

/-- R351: At its next group boundary a thread takes code 0x30 or parks. (DEDUCED, log 74.) -/
def execPreemptEntry (w tid : Nat) (s : State) : Res :=
  if s.entryReady w tid then
    let g := s.wgOf w
    let idle := s.idle w (g.thread tid)
    .next (s.modWg w fun g => (g.modThread tid (Thread.preempted idle g.hdr.preempt (s.coreOf g.core).clk)).unset [tid]).unblock
  else .next s

/-- 65,536 clocks in the pre-empt handler. -/
def State.handlerOver (s : State) (w tid : Nat) : Bool :=
  let g := s.wgOf w
  let t := g.thread tid
  g.status == .preempting && t.entered != 0 && decide (t.entered + 65535 ≤ (s.coreOf g.core).clk) && s.atBoundary w g t &&
  (match t.hold with
   | .implicit => s.idle w t
   | .drain deps _ => s.answered deps
   | _ => true)

/-- R352: it parks as if by `park`: settled, the writes of its home warp and of its core drained (R218). -/
def execPreemptHandlerTimeout (w tid : Nat) (s : State) : Res :=
  if !s.handlerOver w tid then .next s
  else
    let g := s.wgOf w
    let t := g.thread tid
    if !s.idle w t then .next (s.modWg w (·.modThread tid Thread.settle))
    else
      let (deps, s1) := s.drainDeps g ⟨true, true, true, true⟩ (laneAt g none tid)
      if deps ≠ [] then .next (s1.modWg w (·.modThread tid fun t => { t with hold := .drain deps false }))
      else
        .next (s1.modWg w (·.modThread tid fun t =>
          { t with hold := .ready, parked := true, stage := 0, owedNow := !t.failed.isEmpty })).unblock

/-- Everything of the workgroup stands still: its threads have parked or ended with nothing pending, its running commands are
over, and the array has done what it can (R191, R201, R353). -/
def Workgroup.still (g : Workgroup) : Bool :=
  (g.threads.all fun p => p.2.ended || (p.2.parked && p.2.pend.isEmpty)) && (g.threads.any fun p => !p.2.ended) &&
  g.trapSets.isEmpty && (g.cmds.all fun p => p.2.state == .held || p.2.state == .queued || p.2.state == .pushing) &&
  g.mxq.all fun e => !g.mxRuns e

/-- The core's stores and the threads' writes that have still to reach their homes. -/
def State.wgOut (s : State) (g : Workgroup) : List Nat × State :=
  let (ws, s) := s.flushCore g.core
  ((ws ++ g.threads.flatMap fun p => p.2.writesOut).filter fun id => (Tab.find s.reqs id).isSome, s)

def State.saveReady (s : State) (w : Nat) : Bool :=
  let g := s.wgOf w
  g.status == .preempting && g.still && s.answered g.endDeps

/-- What a workgroup leaves in the scratchpad of its core (R270). (DESIGN CHOICE, log 7.) -/
def Core.leave (k : Core) (g : Workgroup) : Core :=
  let old := k.left.filter fun p => !decide (g.spBase ≤ p.1 ∧ p.1 < g.spBase + g.hdr.spad)
  { k with left := g.spad.foldl (fun m p => Tab.put m (g.spBase + p.1) (g.ctx.asid, p.2)) old }

/-- It gives its place up; its time counts. -/
def State.leaveCore (s : State) (g : Workgroup) : State :=
  let s := (s.modCore g.core fun k => k.leave g).freeSlot g.core g.slot
  { s with regions := Tab.modify s.regions g.block fun r => { r with runtk := r.runtk + (s.hb - g.boundAt) } }

/-- R353. Where the context is saved is the Hearth's choice. (DESIGN CHOICE, log 90.) -/
def execContextSave (w : Nat) (s : State) : Res :=
  if !s.saveReady w then .next s
  else
    let g := s.wgOf w
    let (deps, s1) := s.wgOut g
    if deps ≠ [] then .next (s1.modWg w fun g => { g with endDeps := deps })
    else
      let (n, s2) := s1.draw
      .next ((s2.leaveCore g).modWg w fun g => { g with
        status := .parked, endDeps := [], ctxAddr := s.node * 2 ^ 44 + n % max s.usable 1, relSets := []
        cmds := Tab.map (fun _ (c : Cmd) => if c.state = .pushing then { c with saved := true } else c) g.cmds }).unblock

/-! ### The end of a workgroup (R94, R95, R201) -/

/-- Its last thread has ended and its commands are over, but for held ones; the array has done what it can. -/
def Workgroup.over_ (g : Workgroup) : Bool :=
  (g.threads.all fun p => p.2.ended) && (g.cmds.all fun p => p.2.state == .held) && g.mxq.all fun e => !g.mxRuns e

/-- A successor takes its place. -/
def Workgroup.hasTail (g : Workgroup) : Bool := !g.tails.isEmpty && !g.kill

/-- A workgroup all of whose threads have ended may end (R94, R255). (DEDUCED, log 67.) -/
def State.endReady (s : State) (w : Nat) : Bool :=
  match Tab.find s.wgs w with
  | none => false
  | some g =>
    (g.issues && g.over_) || (g.status == .ending && s.answered g.endDeps && !g.hasTail)

/-- The end is counted. -/
def State.countEnd (s : State) (w : Nat) (g : Workgroup) : State :=
  let s := s.leaveCore g
  { s with
    wgs := Tab.erase s.wgs w
    regions := Tab.modify s.regions g.block fun r => { r with done := r.done + 1 } }.unblock

/-- R94: After the last thread and engine command end, stores are written through and the end counted. -/
def execWorkgroupEnd (w : Nat) (s : State) : Res :=
  if !s.endReady w then .next s
  else
    let g := s.wgOf w
    if g.status = .ending then .next (s.countEnd w g)
    else
      let (deps, s) := s.wgOut g
      .next (s.modWg w fun g => { g with status := .ending, endDeps := deps, cmds := [], mxq := [] })

/-! #### `tail` -/

/-- Why no successor starts: the region's STATUS (R95, R256); threads that disagree come first. (DEDUCED, log 111.) -/
def tailStatus (g : Workgroup) (line : Option (List Byte)) : Option Nat :=
  match g.tails with
  | [] => none
  | t :: rest =>
    if rest.any fun u => u != t then some 4
    else
      match line with
      | none => some 1
      | some bs =>
        let h := headerOf bs
        if !headerOk bs then some 1
        else if g.hdr.spad < h.spad ∨ g.hdr.regs < h.regs ∨ g.hdr.threads < h.threads ∨ g.hdr.tileCount < h.tileCount then some 3
        else none

def State.tailReady (s : State) (w : Nat) : Bool :=
  (Tab.find s.wgs w).any fun g => g.status == .ending && s.answered g.endDeps && g.hasTail

/-- The successor in its place: same number, region and scratchpad bytes; everything else as at launch. -/
def State.successor (s : State) (g : Workgroup) (h : Hdr) (t : TailRec) : Workgroup :=
  { g with
    hdr := h, hdrVa := t.hdr, args := t.args, argWords := s.argBlock g.ctx t.args g.argLen, threads := startThreads h
    hwarps := [], acc := [], staging := [], spad := g.spad.filter fun p => decide (p.1 < h.spad), spass := 0, chans := []
    defers := [], matrix := none, mxq := [], cmds := [], perf := [], nextFw := 0, relSets := [], trapSets := [], tails := []
    byTail := true, status := .running, endDeps := [], starved := 0 }

/-- R95: After engine completion and checks, the successor kernel starts on the same core. (DESIGN CHOICE, log 90.) -/
def execTailStart (w : Nat) (s : State) : Res :=
  if !s.tailReady w then .next s
  else
    let g := s.wgOf w
    match g.tails with
    | [] => .next s
    | t :: _ =>
      let line := s.headerLine g.ctx t.hdr
      match tailStatus g line with
      | some st => .next ((s.endRegion g.block st).countEnd w g)
      | none =>
        let h := (line.map headerOf).getD {}
        let s := (s.modWg w fun g => s.successor g h t).raiseAcq g.core
        let keep (p : Nat × Byte) : Bool := decide (h.spad ≤ p.1)
        .next (s.modCore g.core fun k => { k with
          left := (g.spad.filter keep).foldl (fun m p => Tab.put m (g.spBase + p.1) (g.ctx.asid, p.2)) k.left })

/-! ### Power states (R265, R266) -/

/-- The blocks in states 1 to 3 with their fields: those the Hearth has read, and those whose arming it has not read yet. -/
def State.asking (s : State) : List Resolved :=
  (s.regions.filterMap fun p => (Tab.find s.tables p.2.table).map fun t =>
    if p.2.state = 3 then p.2.res else s.resolve t p.1) ++
  (s.signals.filter fun pa => s.rcb pa 0 4 == 1 && (Tab.find s.regions pa).isNone).filterMap fun pa =>
    (s.blockAt pa).map fun b => s.resolve b.2.1 pa

/-- R266: cores that deadline work needs. -/
def State.demand (s : State) : Nat :=
  max s.floor (s.asking.map fun r => if r.cls = 0 then (if r.maxCores = 0 then 16 else r.maxCores) else 0).sum

/-- The units a standing core needs in P0 or P1: its own, and the Porch quarters of its die. -/
def standUnits (core : Nat) : List Nat :=
  ((List.range 7).map fun i => core * 8 + i) ++ (List.range 4).map fun q => porchUnit (dieOfCore core) q

/-- A core that stands. -/
def State.stands (s : State) (core : Nat) : Bool := (standUnits core).all fun u => decide (s.powerOf u ≤ 1)

/-- Cores that stand with their engines, datapath and Porch quarters in P0 or P1. -/
def State.standing (s : State) : Nat := ((List.range 128).filter s.stands).length

/-- A core to wake, when those that stand or will are fewer than the demand asks for (R266). -/
def State.toStand (s : State) : Option Nat :=
  let will (c : Nat) : Bool := (standUnits c).all fun u => decide (s.powerOf u ≤ 1) || s.isWaking u
  if s.demand ≤ ((List.range 128).filter will).length then none else (List.range 128).find? fun c => !will c

/-- R266: the Hearth wakes the units of a core that must stand. (DEDUCED, log 88.) -/
def State.raiseStanding (s : State) : State :=
  match s.toStand with
  | some c => (standUnits c).foldl (fun s u => if 2 ≤ s.powerOf u then s.wakeUnit u else s) s
  | none => s

/-- The unit belongs to a core with a resident workgroup that `p` picks. -/
def State.holdsWg (s : State) (u : Nat) (p : BindRec → Bool) : Bool :=
  decide (u < 1024) && (s.coreOf (u / 8)).slots.any fun b => b.2.op != 0 && p b.2

/-- A unit enters P1 to P4. A core in P3 or P4 keeps no cached line or translation; in P4 it loses its scratchpad too.
(DEDUCED, log 88.) -/
def State.sleep (s : State) (u p : Nat) : State :=
  let s := { s with power := Tab.put s.power u p, waking := Tab.erase s.waking u }
  if isCoreUnit u ∧ 3 ≤ p then
    (s.evict (u / 8) fun _ => true).modCore (u / 8) fun k =>
      { k with l1Sealed := [], tlb := [], left := if p = 4 then [] else k.left }
  else s

/-- The state may be set: P3 and P4 only for a core with no resident workgroup; the standing cores stay, and no deadline
work waits for a wake beyond P1. -/
def State.powerOk (s : State) (u p : Nat) : Bool :=
  let t := s.sleep u p
  isUnit u && decide (p ≤ 4) && (decide (p < 3) || (isCoreUnit u && !s.holdsWg u fun _ => true)) &&
  (decide (p < 2) || !s.holdsWg u fun b => b.cls == 0) && (decide (s.standing ≤ t.standing) || decide (s.demand ≤ t.standing))

/-- R265: The Hearth sets the power state of a core, engine, Porch quarter or port. (DEDUCED, log 88.) -/
def execPowerStateSet (u p : Nat) (s : State) : Res :=
  if p = 0 then .next (if isUnit u then s.wakeUnit u else s)
  else if s.powerOk u p then .next (s.sleep u p) else .next s

end Sys2Proof.Machine
end

