-- ==== Sys2Proof/Machine/Links.lean ====
section
/-! DEFINITION. The Hall and the links (R389 to R404): beats and flits, classes and their counters, replay, retrain and
link-down, packets of peers, and the host's accesses (R405 to R407). -/

namespace Sys2Proof.Machine

/-! ### Classes and counters (R394, R395) -/

/-- The class a transmitter sends next among those that are ready (urgent, normal, bulk), under counters N and B.
(DESIGN CHOICE, log 33.) -/
def pickClass (u n b : Bool) (cn cb : Nat) : Option Nat :=
  if b && decide (32 ≤ cb) then some 2
  else if n && decide (16 ≤ cn) then some 1
  else if u then some 0 else if n then some 1 else if b then some 2 else none

/-- The counters after a unit of a class. -/
def nextCounts (n b : Bool) (cls cn cb : Nat) : Nat × Nat :=
  (if !n ∨ cls = 1 then 0 else if cls = 0 then cn + 1 else cn, if !b ∨ cls = 2 then 0 else if cls < 2 then cb + 1 else cb)

/-- The hop a packet is at. -/
def Packet.at_ (p : Packet) : Option Hop := p.hops.head?

/-- A packet passes its hop; after the last it is delivered. -/
def State.passHop (s : State) (id : Nat) : State :=
  match Tab.find s.pkts id with
  | none => s
  | some p =>
    match p.hops.drop 1 with
    | [] => { s with pkts := Tab.erase s.pkts id }.delivered p.what
    | rest => { s with pkts := Tab.put s.pkts id { p with hops := rest, sent := 0 } }

/-! ### The Hall (R389, R391) -/

/-- The packets at a column of a plane, with the row each comes from. -/
def State.atColumn (s : State) (die col plane : Nat) : List (Nat × Packet × Nat) :=
  s.pkts.filterMap fun p =>
    match p.2.at_ with
    | some (.hall d c row) => if d = die ∧ c = col ∧ p.2.plane = plane then some (p.1, p.2, row) else none
    | _ => none

/-- Beats of a packet. -/
def beats (bytes : Nat) : Nat := (bytes + 63) / 64

/-- The next packet of a class: the open one, else of the row granted least recently, its oldest. -/
def nextPacket (h : HallCol) (ps : List (Nat × Packet × Nat)) (cls : Nat) : Option (Nat × Packet × Nat) :=
  let mine := ps.filter fun p => p.2.1.cls = cls
  match (Tab.find h.opened cls).bind fun id => mine.find? fun p => p.1 = id with
  | some p => some p
  | none =>
    let rows := (List.range 64).filter fun r => mine.any fun p => p.2.2 = r
    let row := (rows.find? fun r => !h.recent.contains r).orElse fun _ => h.recent.find? rows.contains
    row.bind fun r => mine.find? fun p => p.2.2 = r

/-- A beat is sent: the packet is open until its last beat, and its row was granted last. (DESIGN CHOICE, log 33.) -/
def HallCol.grant (h : HallCol) (cls id row : Nat) (last : Bool) (counts : Nat × Nat) : HallCol :=
  { opened := if last then Tab.erase h.opened cls else Tab.put h.opened cls id
    recent := (h.recent.filter fun r => r != row) ++ [row], n := counts.1, b := counts.2 }

/-- R391. Each column of each plane grants one beat. (DESIGN CHOICE, log 33.) -/
def execHallGrant (die col plane : Nat) (s : State) : Res :=
  let ps := s.atColumn die col plane
  let h := Tab.get {} (s.dieAt die).hall (col * 2 + plane)
  let has (c : Nat) : Bool := ps.any fun p => p.2.1.cls = c
  match pickClass (has 0) (has 1) (has 2) h.n h.b with
  | none => .next s
  | some cls =>
    match nextPacket h ps cls with
    | none => .next s
    | some (id, p, row) =>
      let last := decide (beats p.bytes ≤ p.sent + 1)
      let h' := h.grant cls id row last (nextCounts (has 1) (has 2) cls h.n h.b)
      let s := s.modDie die fun d => { d with hall := Tab.put d.hall (col * 2 + plane) h' }
      .next (if last then s.passHop id else { s with pkts := Tab.put s.pkts id { p with sent := p.sent + 1 } })

/-! ### Flits (R397, R398) -/

def State.linkAt (s : State) (l : Nat) : Link := (Tab.find s.links l).getD {}
def Link.dir (x : Link) (d : Nat) : LinkDir := if d = 0 then x.out else x.back
def Link.setDir (x : Link) (d : Nat) (y : LinkDir) : Link := if d = 0 then { x with out := y } else { x with back := y }
def State.modLink (s : State) (l : Nat) (f : Link → Link) : State := { s with links := Tab.put s.links l (f (s.linkAt l)) }

/-- Packet bytes a flit carries. -/
def flitBytes (l : Nat) : Nat := if 1 ≤ l ∧ l ≤ 12 then 112 else 240

/-- The packets at a link in a direction with bytes to send, oldest first. -/
def State.atLink (s : State) (l dir : Nat) : List (Nat × Packet) :=
  s.pkts.filter fun p => p.2.at_ == some (.link l dir) && decide (p.2.sent < p.2.bytes)

/-- Bytes of consecutive packets that fill a flit. -/
def fillFlit : Nat → List (Nat × Packet) → List (Nat × Nat)
  | _, [] => []
  | room, p :: rest =>
    let k := min room (p.2.bytes - p.2.sent)
    if k = 0 then [] else (p.1, k) :: fillFlit (room - k) rest

/-- A flit is counted; the replays are counted anew every 2^20 flits (R400). (DEDUCED, log 94.) -/
def Link.counted (x : Link) : Link :=
  if x.flits + 1 = 2 ^ 20 then { x with flits := 0, replays := 0 } else { x with flits := x.flits + 1 }

/-- R395, R398. -/
def execLinkFlitSend (l dir : Nat) (s : State) : Res :=
  let x := s.linkAt l
  let y := x.dir dir
  let ps := s.atLink l dir
  let has (c : Nat) : Bool := ps.any fun p => p.2.cls = c
  match if x.status = .up ∧ y.unacked.length < 2048 then pickClass (has 0) (has 1) (has 2) y.n y.b else none with
  | none => .next s
  | some cls =>
    if 1 ≤ l ∧ l ≤ 12 ∧ !s.awake (portUnit (l - 1)) then .next (s.wakeUnit (portUnit (l - 1)))
    else
    let parts := fillFlit (flitBytes l) (ps.filter fun p => p.2.cls = cls)
    let f : Flit := { cls, seq := y.seq, parts }
    let c := nextCounts (has 1) (has 2) cls y.n y.b
    let y := { y with seq := (y.seq + 1) % 4096, unacked := y.unacked ++ [f], wire := y.wire ++ [f], n := c.1, b := c.2 }
    .next { s.modLink l (fun x => (x.setDir dir y).counted) with
      pkts := parts.foldl (fun t p => Tab.modify t p.1 fun q => { q with sent := q.sent + p.2 }) s.pkts }

/-- Bytes received of a packet; whole, it passes the hop. -/
def State.takePart (s : State) (l dir : Nat) (p : Nat × Nat) : State :=
  let y := (s.linkAt l).dir dir
  let n := Tab.get 0 y.got p.1 + p.2
  match Tab.find s.pkts p.1 with
  | none => s
  | some q =>
    if q.bytes ≤ n then
      (s.modLink l fun x => x.setDir dir { y with got := Tab.erase y.got p.1 }).passHop p.1
    else s.modLink l fun x => x.setDir dir { y with got := Tab.put y.got p.1 n }

/-- R400: a good flit in sequence is accepted and acknowledged; any other is discarded. -/
def execFlitReceive (l dir : Nat) (good : Bool) (s : State) : Res :=
  let y := (s.linkAt l).dir dir
  match if (s.linkAt l).status = .up then y.wire else [] with
  | [] => .next s
  | f :: rest =>
    if good ∧ f.seq = y.expect then
      let y := { y with wire := rest, expect := (y.expect + 1) % 4096, unacked := y.unacked.filter fun g => g.seq != f.seq }
      .next (f.parts.foldl (fun s p => s.takePart l dir p) (s.modLink l fun x => x.setDir dir y))
    else .next (s.modLink l fun x => x.setDir dir { y with wire := rest })

/-- Something sent is neither acknowledged nor on its way. -/
def LinkDir.lost (y : LinkDir) : Bool := y.wire.isEmpty && !y.unacked.isEmpty

/-- R400: The sender resends every flit after the last acknowledged one. -/
def execReplayRequest (l dir : Nat) (s : State) : Res :=
  let x := s.linkAt l
  let y := x.dir dir
  if x.status = .up ∧ y.lost then
    .next (s.modLink l fun x => { x.setDir dir { y with wire := y.unacked } with replays := x.replays + 1 })
  else .next s

/-! ### Retrain and link-down (R400, R401) -/

/-- A retrain begins; one begun while another is under way follows a failed one. (DEDUCED, log 94.) -/
def execLinkRetrainStart (l : Nat) (s : State) : Res :=
  match (s.linkAt l).status with
  | .up => .next (s.modLink l fun x => { x with status := .retraining s.hb, flits := 0, replays := 0 })
  | .retraining _ => .next (s.modLink l fun x => { x with status := .retraining s.hb, fails := x.fails + 1 })
  | .down => .next s

/-- More replays than the threshold allows for 2^20 flits. -/
def State.retrainDue (s : State) (l : Nat) : Bool :=
  (s.linkAt l).status == .up && decide (s.replayLimit < (s.linkAt l).replays)

/-- The link carries flits again, beginning after the last acknowledged one. -/
def execLinkRetrainEnd (l : Nat) (s : State) : Res :=
  match (s.linkAt l).status with
  | .retraining t =>
    if s.hb.toNat ≤ t.toNat + 359712 then
      .next (s.modLink l fun x => { x with
        status := .up, fails := 0, out := { x.out with wire := x.out.unacked }
        back := { x.back with wire := x.back.unacked } })
    else .next s
  | _ => .next s

/-- The die whose log takes the failure of a link, and its KIND. -/
def linkDie (l : Nat) : Nat := if 7 ≤ l ∧ l ≤ 12 then 1 else 0
def linkKind (l : Nat) : Nat := if l = 0 then 6 else if l ≤ 12 then 7 else 8

/-- A request whose way leads over a link. -/
def State.usesLink (s : State) (l : Nat) (r : Req) : Bool :=
  (match r.state with | .waiting _ => false | _ => true) &&
  (s.pathFrom (reqRow r).1 (reqRow r).2 r.pa).any fun hs => hs.any fun h => match h with | .link k _ => k == l | _ => false

/-- A request its far home has received whole is applied. (DEDUCED, log 58.) -/
def State.applyArrived (s : State) (id : Nat) : State :=
  match execHomeWriteApply id s with
  | .next s =>
    match execReductionUnitApply id s with
    | .next s => s
    | _ => s
  | _ => s

/-- R401; beside the first address of all, that of the first lost write is logged (R151). (DEDUCED, log 58.) -/
def State.declareDown (s : State) (l : Nat) : State :=
  if (s.linkAt l).status = .down then s
  else
    let hit := (s.reqs.filter fun p => s.usesLink l p.2).map Prod.fst
    let first := (hit.head?.bind fun id => Tab.find s.reqs id).map Req.first
    let lost := ((hit.filterMap fun id => Tab.find s.reqs id).find? fun r => r.kind.isWrite && !s.isOwn r.pa).map Req.first
    let s := hit.foldl (fun s id =>
      if (Tab.find s.reqs id).any fun r => r.state == .arrived && r.kind.isWrite then s.applyArrived id else s) s
    let s := { s.modLink l (fun x => { x with status := .down, out := {}, back := {} }) with
      pkts := s.pkts.filter fun p =>
        !(p.2.hops.any fun h => match h with | .link k _ => k == l | _ => false) && match p.2.what with
          | .req id => !hit.contains id
          | .resp id => !hit.contains id
          | .multi _ => true
      uld := s.uld || l == 0
      upds := s.upds.filter fun p => !hit.contains p.2.req
      windows := Tab.map (fun _ (w : Window) => { w with reqs := w.reqs.filter fun id => !hit.contains id }) s.windows }
    let note (a : Nat) (s : State) : State :=
      s.log (linkDie l) (logEntry a (if 1 ≤ l ∧ l ≤ 12 then l - 1 else 0) (linkKind l) 6 0x14 0 none 0 s.hb)
    let s := if l = 0 ∨ first.isSome then note (first.getD 0) s else s
    let s := match lost with | some a => if some a = first then s else note a s | none => s
    hit.foldl (fun s id => (s.modReq id fun r => { r with err := 0x14 }).answered_ id) s

/-- The retrain began more than 10 ms ago, or three in a row have failed. -/
def State.retrainFailed (s : State) (l : Nat) : Bool :=
  match (s.linkAt l).status with
  | .retraining t => decide (t.toNat + 359712 ≤ s.hb.toNat) || decide (3 ≤ (s.linkAt l).fails)
  | _ => false

/-- R401: A retrain exceeding 10 ms declares the link down, discarding partials and failing originators.
(DEDUCED, log 58.) -/
def execLinkDown (l : Nat) (s : State) : Res := .next (if s.retrainFailed l then s.declareDown l else s)

/-! ### Accesses from outside (R404, R406, R407) -/

/-- The pieces of an access, one for each sector. -/
def sectorPieces (pa size : Nat) : List (Nat × Nat) :=
  if size = 0 then []
  else (List.range ((pa + size - 1) / 64 - pa / 64 + 1)).map fun i =>
    let lo := max pa ((pa / 64 + i) * 64)
    (lo, min (pa + size) ((pa / 64 + i + 1) * 64) - lo)

/-- Requests of the host or a peer go to their home as others do; core 255 stands for none. -/
def State.outsideReq (s : State) (by_ : Requester) (pa size tag : Nat) (bytes : Option (List Byte)) : State :=
  (sectorPieces pa size).foldl (fun s p =>
    (s.newReq { by_, kind := if bytes.isSome then .write else .readAlone, core := 255, asid := 0, pa := p.1
                va := BitVec.ofNat 64 tag, size := p.2, data := ((bytes.getD []).drop (p.1 - pa)).take p.2
                state := .sent } []).2) s

/-- The port a packet leaves by (R403, R404). (DEDUCED, log 75.) -/
def State.route (s : State) (n : Nat) : W32 := Tab.get 0 s.routes n

/-- R404: A peer packet is served, forwarded with HOP less 1, or refused. (DEDUCED, log 75.) -/
def execPeerPacketReceive (node dst hop : Nat) (write : Bool) (addr size : Nat) (bytes : List Byte) (s : State) : Res :=
  let refuse (cls : Nat) : Res :=
    let s := s.log 0 (logEntry addr 0 7 cls (if cls = 6 then 0x14 else 0x11) 0 none 0 s.hb)
    .next { s with out := s.out ++ [.peer node false []] }
  if dst ≠ s.node then
    if bitAt (s.route dst) 13 ∧ 0 < hop then
      .next { s with out := s.out ++ [.forward dst (hop - 1) write addr size bytes] }
    else refuse (if hop = 0 then 6 else 3)
  else if !bitAt (s.route node) 12 ∨ s.usable < localOf addr + size then refuse 3
  else
    .next (s.outsideReq (.peer node) (s.node * 2 ^ 44 + localOf addr) size 0 (if write then some (bytes.take size) else none))

/-- A host address of the decoder is a local address of device memory. (DEDUCED, log 59.) -/
def execHostMemRead (addr size tag : Nat) (s : State) : Res :=
  if s.usable < addr + size then .next { s with out := s.out ++ [.hostRead tag false []] }
  else .next (s.outsideReq .host (s.node * 2 ^ 44 + addr) size tag none)

/-- R406: A host CXL.mem write is applied at its home in H(x). -/
def execHostMemWrite (addr : Nat) (bytes : List Byte) (s : State) : Res :=
  if s.usable < addr + bytes.length then .next { s with out := s.out ++ [.hostWrite false] }
  else .next (s.outsideReq .host (s.node * 2 ^ 44 + addr) bytes.length 0 (some bytes))

/-- The host has lost its copy of a line. (DEDUCED, log 59.) -/
def execBackInvalidateResponse (line : Nat) (s : State) : Res :=
  if s.snoops.contains line then
    .next { s with
      snoops := s.snoops.filter (fun l => l != line)
      dir := Tab.set {} s.dir line { Tab.get {} s.dir line with host := false } }
  else .next s

/-- Copies of a host line leave the L1s and the Porch. -/
def execHostSnoop (line : Nat) (s : State) : Res :=
  if isHost (line * 64) then
    let s := (Tab.keys s.cores).foldl (fun s c => s.evict c fun key => key % 2 ^ 46 == line) s
    .next ({ s with
      dies := Tab.map (fun _ (d : Die) => { d with porch := Tab.modify d.porch (line / 4) fun x =>
        { x with sects := Tab.erase x.sects (line % 4) } }) s.dies }.cancelFills line fun _ => true)
  else .next s

end Sys2Proof.Machine
end

