-- ==== Sys2Proof/Machine/Device.lean ====
section
/-! DEFINITION. The module: reset and training (R409), throttling and shutdown (R408), DEVSTAT (R412), and the mailbox
commands (R413 to R415, R249, R266, R400, R401, R403, R410, R411). -/

namespace Sys2Proof.Machine

/-! ### DEVSTAT (R412) -/

def bitNat (b : Bool) (i : Nat) : Nat := if b then 2 ^ i else 0

/-- DEVSTAT as system software reads it. -/
def State.devstat (s : State) : W64 :=
  BitVec.ofNat 64 (s.phase % 4 + bitNat s.hsb 2 + bitNat s.grade 3 + s.umod.toNat * 2 ^ 4 + s.lwid.toNat * 2 ^ 12 +
    s.lspd.toNat * 2 ^ 16 + bitNat s.ths 20 + s.node % 64 * 2 ^ 21 + bitNat s.uld 27 + s.usz * 2 ^ 32)

/-- R412: Writing 1 to DEVSTAT.THS clears the thermal-shutdown bit. -/
def execDevstatWrite (v : W64) (s : State) : Res := .next (if bitAt v 20 then { s with ths := false } else s)

/-! ### Reset (R409, R410) -/

/-- The Hearth image that runs after a reset, its version, the fused counter, the certificates, and whether it may run: a
staged image is checked now. (DESIGN CHOICE, log 41; DEDUCED, log 95.) -/
def State.boot (s : State) : State × Bool :=
  match s.staged with
  | none => (s, true)
  | some i =>
    if Config.fuseVerify i.bytes ∧ s.versionFuse ≤ i.version then
      ({ s with image := i, staged := none, versionFuse := i.version, certs := s.certs ++ [s.stagedCert], stagedCert := [] }, true)
    else ({ s with staged := none, stagedCert := [] }, false)

/-- What training finds: that it fails, that the standby Hearth runs it, the UCIe modules, the CXL width and rate. Each is
left open; without a UCIe module it has failed. (DESIGN CHOICE, log 41.) -/
def State.train (s : State) (ok : Bool) : State :=
  let (n, s) := s.draw
  let umod := BitVec.ofNat 8 (n / 4)
  { s with
    phase := if ok ∧ n % 2 = 0 ∧ umod ≠ 0 then 2 else 3, hsb := (n / 2).testBit 0, umod
    lwid := BitVec.ofNat 4 (n / 1024 % 4), lspd := BitVec.ofNat 4 (n / 4096 % 4) }

/-- The state after power-good with what a reset keeps: fuses, firmware storage, THS and the grade; the memory of the host
and of peers is not of this device. (DEDUCED, log 13.) The power limit is the grade's again. (DESIGN CHOICE, log 106.) -/
def State.afterReset (s : State) : State :=
  { State.reset with
    fresh := s.fresh, out := s.out, ths := s.ths, grade := s.grade, image := s.image, staged := s.staged
    transferred := s.transferred, versionFuse := s.versionFuse, certs := s.certs, stagedCert := s.stagedCert
    powerLimit := if s.grade then 650 else 450
    mem := s.mem.filter fun p => nodeOf p.1 != s.node && nodeOf p.1 != 0 }

/-- R409: After power-good the module runs its reset and training steps and sets PHASE. (DEDUCED, log 13.) -/
def execReset (s : State) : Res :=
  let b := s.boot
  .next (b.1.afterReset.train b.2)

/-! ### Temperature and power (R408) -/

/-- The core clock loses clocks of each tick, never all. (DEDUCED, log 94.) -/
def execThermalThrottle (scale : Nat) (s : State) : Res := .next { s with clockScale := min scale 63 }

/-- R408: At the shutdown temperature the module stops and records the trip. -/
def execThermalShutdown (s : State) : Res := .next { s with stopped := true, ths := true }

/-! ### The mailbox (R413) -/

/-- CXL return codes. (PRESUMED, log 42.) -/
def mbOk : Nat := 0
/-- Background command started (R413). (PRESUMED, log 42.) -/
def mbBackground : Nat := 1
/-- Invalid input (R413). (PRESUMED, log 42.) -/
def mbInvalid : Nat := 2
/-- Busy (R413). (PRESUMED, log 42.) -/
def mbBusy : Nat := 6

/-- A command completes: its answer, and MSI-X vector 0 (R407). (PRESUMED, log 92.) -/
def State.answerMb (s : State) (cmd code : Nat) (payload : List Byte) : State :=
  { s with out := s.out ++ [.mailbox cmd code payload, .msix 0] }

/-- The mailbox takes a command: after step 6, and not before the command under way has completed. -/
def State.mbOpen (s : State) : Bool := s.phase == 2 && s.enabling.isEmpty

/-- A command with its operands in range or not, and its effect. (PRESUMED, log 92.) -/
def State.command (s : State) (cmd : Nat) (good : Bool) (f : State → State) : Res :=
  if !s.mbOpen then .next (s.answerMb cmd mbBusy [])
  else if !good then .next (s.answerMb cmd mbInvalid [])
  else .next (f s)

/-! #### Region tables (R249, R415) -/

/-- Keys of live contexts. -/
def State.keysUsed (s : State) : List Nat := List.map (fun p => p.2.ctx.key) s.tables

/-- The key of a context: 0 if asked for, the one it has already, or a number no live context has.
(DESIGN CHOICE, log 91.) -/
def State.keyFor (s : State) (asid root : Nat) (key0 : Bool) : Nat × State :=
  if key0 then (0, s)
  else
    match s.tables.find? fun p => p.2.ctx.asid = asid ∧ p.2.ctx.root = root ∧ p.2.ctx.key ≠ 0 with
    | some p => (p.2.ctx.key, s)
    | none =>
      let free := (List.range 4095).filterMap fun i => if s.keysUsed.contains (i + 1) then none else some (i + 1)
      let (n, s) := s.draw
      (free.getD (n % max free.length 1) 1, s)

/-- The blocks of a table in a state that `p` picks: their physical addresses. -/
def State.blocksIn (s : State) (t : RTable) (p : Nat → Bool) : List Nat :=
  (List.range t.blocks).filterMap fun i =>
    (s.lookup t.ctx (t.base + 256 * i)).bind fun pa => if p (s.rcb pa 0 4) then some pa else none

def activeState (v : Nat) : Bool := v == 1 || v == 2 || v == 3

/-- Every block of the table that is in state 1 is read as if it had just been armed. (DESIGN CHOICE, log 91.) -/
def State.register (s : State) (base len asid root : Nat) (key0 : Bool) : State :=
  let (n, s) := s.draw
  let free := (List.range 256).filter fun i => (Tab.find s.tables i).isNone
  let id := free.getD (n % max free.length 1) 0
  let (key, s) := s.keyFor asid root key0
  let t : RTable := { base, len, ctx := { asid, root, key } }
  let s := { s with tables := Tab.put s.tables id t }
  ((s.blocksIn t fun v => v == 1).foldl (fun s pa => s.arm t pa) s).answerMb 0xC000 mbOk (bytesOfNat id 1)

/-- R249: Mailbox 0xC000 registers a region table and context, reading its armed blocks.
(DEDUCED, log 38; DESIGN CHOICE, log 91.) -/
def execRegisterTable (base len asid root : Nat) (key0 : Bool) (s : State) : Res :=
  s.command 0xC000 (base % 4096 == 0 && decide (base + len ≤ 2 ^ 48) && len % 256 == 0 && decide (len ≤ 2 ^ 26) &&
    decide (asid < 2 ^ 16) && root % 4096 == 0 && decide (root < 2 ^ 52) && decide (s.tables.length < 256))
    fun s => s.register base len asid root key0

/-- R413: Mailbox 0xC001 starts deregistration of a table in the background. -/
def execDeregisterTable (table : Nat) (s : State) : Res :=
  if s.mbOpen && s.background.isSome then .next (s.answerMb 0xC001 mbBusy [])
  else
    s.command 0xC001 (Tab.find s.tables table).isSome fun s =>
      { s with
        tables := Tab.modify s.tables table fun t => { t with deregistering := true }
        background := some table }.answerMb 0xC001 mbBackground []

/-- No block of the table is armed, waiting or running. -/
def State.tableIdle (s : State) (table : Nat) : Bool :=
  (Tab.find s.tables table).all fun t =>
    (s.blocksIn t activeState).isEmpty && s.regions.all fun p => p.2.table != table

/-- R249: The background deregistration completes once no block is armed, waiting or running. -/
def execDeregistrationComplete (s : State) : Res :=
  match s.background with
  | none => .next s
  | some n =>
    if s.tableIdle n then
      .next ({ s with tables := Tab.erase s.tables n, background := none }.answerMb 0xC001 mbOk [])
    else .next s

/-! #### Routes and ports (R401, R403) -/

/-- Bits [31:14] of an entry read 0. -/
def execWriteRouteEntry (node : Nat) (entry : W32) (s : State) : Res :=
  s.command 0xC002 (decide (node < 64)) fun s =>
    { s with routes := Tab.set 0 s.routes node (entry &&& 0x3FFF) }.answerMb 0xC002 mbOk []

/-- No request to a node that the port serves is in flight. -/
def State.portQuiet (s : State) (port : Nat) : Bool :=
  s.reqs.all fun p => s.isOwn p.2.pa || isHost p.2.pa || !(s.ports (nodeOf p.2.pa)).testBit port ||
    (match p.2.state with | .waiting _ => true | _ => false)

/-- R401: Mailbox 0xC003 with operand 0 re-enables a Xelas port. -/
def execXelasPortReenable (port : Nat) (s : State) : Res :=
  s.command 0xC003 (decide (port < 12)) fun s =>
    if s.linkUp (port + 1) then s.answerMb 0xC003 mbOk [] else { s with enabling := [port] }

/-- The link carries packets again, from an empty state. -/
def execPortReenableComplete (port : Nat) (s : State) : Res :=
  if s.enabling.contains port ∧ s.portQuiet port then
    .next ({ s with links := Tab.put s.links (port + 1) {}, enabling := s.enabling.filter fun p => p != port }.answerMb
      0xC003 mbOk [])
  else .next s

/-- R401: Mailbox 0xC003 with operand 1 declares a Xelas port down. -/
def execXelasPortDeclareDown (port : Nat) (s : State) : Res :=
  s.command 0xC003 (decide (port < 12)) fun s => (s.declareDown (port + 1)).answerMb 0xC003 mbOk []

/-! #### Floors, limits, thresholds (R266, R400, R413) -/

/-- R266: Mailbox 0xC004 raises the deadline demand floor. -/
def execDeadlineDemandFloor (value : Nat) (s : State) : Res :=
  s.command 0xC004 (decide (value ≤ 128)) fun s => { s with floor := value }.answerMb 0xC004 mbOk []

/-- The power limit of the grade (R408). -/
def State.gradeLimit (s : State) : Nat := if s.grade then 650 else 450

/-- R413: Mailbox 0xC005 sets the power limit, capped at the grade's limit. (PRESUMED, log 92.) -/
def execPowerLimit (value : Nat) (s : State) : Res :=
  s.command 0xC005 (decide (100 ≤ value ∧ value ≤ 65535)) fun s =>
    let v := min value s.gradeLimit
    { s with powerLimit := v }.answerMb 0xC005 mbOk (bytesOfNat v 2)

/-- R413: Mailbox 0xC008 sets the link replay threshold. -/
def execReplayThreshold (value : Nat) (s : State) : Res :=
  s.command 0xC008 true fun s => { s with replayLimit := value }.answerMb 0xC008 mbOk []

/-- R350: the oldest entry leaves the queue. (PRESUMED, log 92.) -/
def execEventQueueEntry (s : State) : Res :=
  s.command 0xC007 true fun s =>
    match s.events with
    | [] => s.answerMb 0xC007 mbOk []
    | e :: rest => { s with events := rest }.answerMb 0xC007 mbOk
        (bytesOfNat e.addr.toNat 8 ++ bytesOfNat e.asid 2 ++ bytesOfNat e.core 2 ++ bytesOfNat e.tick.toNat 8)

/-! #### The node number (R414) -/

/-- Every Xelas port is down, and no block is in state 1, 2 or 3. -/
def State.mayRenumber (s : State) : Bool :=
  ((List.range 12).all fun p => !s.linkUp (p + 1)) && s.tables.all fun p => s.tableIdle p.1

/-- Addresses of this device under its new number; what another node of that number held is not reached any more.
(DEDUCED, log 93.) -/
def State.renumber (s : State) (n : Nat) : State :=
  let moved (unit pa : Nat) : Nat := n * (2 ^ 44 / unit) + pa % (2 ^ 44 / unit)
  let stays (unit k : Nat) : Bool := k / (2 ^ 44 / unit) != s.node && k / (2 ^ 44 / unit) != n
  let own (unit k : Nat) : Bool := k / (2 ^ 44 / unit) == s.node
  let movedMem := s.mem.filterMap fun p => if own 1 p.1 then some (moved 1 p.1, p.2) else none
  let movedDir := s.dir.filterMap fun p => if own 64 p.1 then some (moved 64 p.1, { p.2 with sharers := 0 }) else none
  { s with
    node := n
    mem := movedMem.foldl (fun m p => Tab.put m p.1 p.2) (s.mem.filter fun p => stays 1 p.1)
    dir := movedDir.foldl (fun m p => Tab.put m p.1 p.2) (s.dir.filter fun p => stays 64 p.1)
    bad := s.bad.filterMap fun x => if own 64 x then some (moved 64 x) else if stays 64 x then some x else none
    soft := s.soft.filterMap fun x => if own 64 x then some (moved 64 x) else if stays 64 x then some x else none
    badL1 := [], badPorch := []
    seals := s.seals.map fun r => if own 1 r.pa then { r with pa := moved 1 r.pa } else r
    cores := Tab.map (fun _ (k : Core) => { k with l1 := [], l1Sealed := [] }) s.cores
    dies := Tab.map (fun _ (d : Die) => { d with porch := [], porchSealed := [] }) s.dies }

/-- R414: Mailbox 0xC009 sets the device's node number when ports are down and no block is active. (DEDUCED, log 93.) -/
def execNodeNumber (value : Nat) (s : State) : Res :=
  s.command 0xC009 (decide (value < 64) && s.mayRenumber) fun s =>
    (if value = s.node then s else s.renumber value).answerMb 0xC009 mbOk []

/-! #### Firmware and identity (R410, R411) -/

/-- A byte string cut or filled to its length. -/
def fitBytes (n : Nat) (l : List Byte) : List Byte := (l ++ List.replicate n 0).take n

/-- The identity key that an image derives from the fuse secret, and a signature by it. -/
def imageDigest (i : Image) : List Byte := fitBytes 32 (Config.digest i.bytes)
def publicKey (i : Image) : List Byte := fitBytes 1312 (Config.fuseSign 0 (imageDigest i))
def signedBy (i : Image) (msg : List Byte) : List Byte := fitBytes 2420 (Config.fuseSign 1 (imageDigest i ++ msg))

/-- An attestation report, which every phase gives. -/
def State.report (s : State) (nonce : List Byte) : List Byte :=
  let body := nonce ++ imageDigest s.image ++ bytesOfNat s.image.version 4 ++ bytesOfNat s.hb.toNat 8 ++
    fitBytes 32 (Config.digest (publicKey s.image))
  body ++ signedBy s.image body

/-- R411: Mailbox 0xC006 returns a signed attestation report for a nonce. -/
def execAttestation (nonce : List Byte) (s : State) : Res :=
  .next (if nonce.length = 32 then s.answerMb 0xC006 mbOk (s.report nonce) else s.answerMb 0xC006 mbInvalid [])

/-- R411: Mailbox 0xC00A returns certificate i of the identity chain. -/
def execCertificateChain (index : Nat) (s : State) : Res :=
  s.command 0xC00A (decide (index < s.certs.length)) fun s => s.answerMb 0xC00A mbOk (s.certs.getD index [])

/-- CXL's own opcodes of the firmware commands. (PRESUMED, log 42.) -/
def execTransferFw (image : List Byte) (s : State) : Res :=
  .next ({ s with transferred := image }.answerMb 0x0201 mbOk [])

/-- The certificate the running image signs for the image staged. (DEDUCED, log 95.) -/
def State.certify (s : State) (i : Image) : List Byte :=
  let body := publicKey i ++ imageDigest i ++ bytesOfNat i.version 4 ++ fitBytes 32 (Config.digest (publicKey s.image))
  body ++ signedBy s.image body

/-- R411: The CXL Activate FW command stages an image and signs its identity certificate.
(PRESUMED, log 42; DEDUCED, log 95.) -/
def execActivateFw (s : State) : Res :=
  if s.transferred = [] then .next (s.answerMb 0x0202 mbInvalid [])
  else
    let i : Image := { bytes := s.transferred, version := Config.imageVersion s.transferred }
    .next ({ s with staged := some i, stagedCert := s.certify i, transferred := [] }.answerMb 0x0202 mbOk [])

end Sys2Proof.Machine
end

