-- ==== Sys2Proof/Machine/Dispatch.lean ====
section
/-! DEFINITION. The meaning of every instruction: one arm per constructor, each a call of its own meaning. -/

namespace Sys2Proof.Machine

def exec (i : Instr) (s : State) : Host.Outcome State Fault Refusal :=
  match i with
  | .nop => Sys2Proof.Machine.execNop s
  | .sadd x => Sys2Proof.Machine.execSadd x s
  | .ssub x => Sys2Proof.Machine.execSsub x s
  | .smul x => Sys2Proof.Machine.execSmul x s
  | .smulhS64 x => Sys2Proof.Machine.execSmulhS64 x s
  | .smulhN64 x => Sys2Proof.Machine.execSmulhN64 x s
  | .sdivS64 x => Sys2Proof.Machine.execSdivS64 x s
  | .sdivN64 x => Sys2Proof.Machine.execSdivN64 x s
  | .sremS64 x => Sys2Proof.Machine.execSremS64 x s
  | .sremN64 x => Sys2Proof.Machine.execSremN64 x s
  | .sand x => Sys2Proof.Machine.execSand x s
  | .sor x => Sys2Proof.Machine.execSor x s
  | .sxor x => Sys2Proof.Machine.execSxor x s
  | .sshl x => Sys2Proof.Machine.execSshl x s
  | .sshr x => Sys2Proof.Machine.execSshr x s
  | .ssra x => Sys2Proof.Machine.execSsra x s
  | .sminS64 x => Sys2Proof.Machine.execSminS64 x s
  | .sminN64 x => Sys2Proof.Machine.execSminN64 x s
  | .smaxS64 x => Sys2Proof.Machine.execSmaxS64 x s
  | .smaxN64 x => Sys2Proof.Machine.execSmaxN64 x s
  | .smov x => Sys2Proof.Machine.execSmov x s
  | .ssel x => Sys2Proof.Machine.execSsel x s
  | .rdsr x => Sys2Proof.Machine.execRdsr x s
  | .wrsr x => Sys2Proof.Machine.execWrsr x s
  | .sldk x => Sys2Proof.Machine.execSldk x s
  | .smovV x => Sys2Proof.Machine.execSmovV x s
  | .saddI x => Sys2Proof.Machine.execSaddI x s
  | .sandI x => Sys2Proof.Machine.execSandI x s
  | .sorI x => Sys2Proof.Machine.execSorI x s
  | .sxorI x => Sys2Proof.Machine.execSxorI x s
  | .sshlI x => Sys2Proof.Machine.execSshlI x s
  | .sshrI x => Sys2Proof.Machine.execSshrI x s
  | .ssraI x => Sys2Proof.Machine.execSsraI x s
  | .sli x => Sys2Proof.Machine.execSli x s
  | .scmpEq x => Sys2Proof.Machine.execScmpEq x s
  | .scmpNe x => Sys2Proof.Machine.execScmpNe x s
  | .scmpLtS64 x => Sys2Proof.Machine.execScmpLtS64 x s
  | .scmpLeS64 x => Sys2Proof.Machine.execScmpLeS64 x s
  | .scmpLtN64 x => Sys2Proof.Machine.execScmpLtN64 x s
  | .scmpLeN64 x => Sys2Proof.Machine.execScmpLeN64 x s
  | .scmpEqI x => Sys2Proof.Machine.execScmpEqI x s
  | .scmpNeI x => Sys2Proof.Machine.execScmpNeI x s
  | .scmpLtS64I x => Sys2Proof.Machine.execScmpLtS64I x s
  | .scmpLtN64I x => Sys2Proof.Machine.execScmpLtN64I x s
  | .sldN8 x => Sys2Proof.Machine.execSldN8 x s
  | .sldS8 x => Sys2Proof.Machine.execSldS8 x s
  | .sldN16 x => Sys2Proof.Machine.execSldN16 x s
  | .sldS16 x => Sys2Proof.Machine.execSldS16 x s
  | .sldN32 x => Sys2Proof.Machine.execSldN32 x s
  | .sldS32 x => Sys2Proof.Machine.execSldS32 x s
  | .sldB64 x => Sys2Proof.Machine.execSldB64 x s
  | .sstN8 x => Sys2Proof.Machine.execSstN8 x s
  | .sstN16 x => Sys2Proof.Machine.execSstN16 x s
  | .sstN32 x => Sys2Proof.Machine.execSstN32 x s
  | .sstB64 x => Sys2Proof.Machine.execSstB64 x s
  | .br x => Sys2Proof.Machine.execBr x s
  | .bra x => Sys2Proof.Machine.execBra x s
  | .brx x => Sys2Proof.Machine.execBrx x s
  | .call x => Sys2Proof.Machine.execCall x s
  | .ret x => Sys2Proof.Machine.execRet x s
  | .meet x => Sys2Proof.Machine.execMeet x s
  | .jn x => Sys2Proof.Machine.execJn x s
  | .lv x => Sys2Proof.Machine.execLv x s
  | .exit x => Sys2Proof.Machine.execExit x s
  | .tail x => Sys2Proof.Machine.execTail x s
  | .spawn x => Sys2Proof.Machine.execSpawn x s
  | .elect x => Sys2Proof.Machine.execElect x s
  | .yield x => Sys2Proof.Machine.execYield x s
  | .vaddS32 x => Sys2Proof.Machine.execVaddS32 x s
  | .vaddS64 x => Sys2Proof.Machine.execVaddS64 x s
  | .vaddSatS32 x => Sys2Proof.Machine.execVaddSatS32 x s
  | .vaddSatN32 x => Sys2Proof.Machine.execVaddSatN32 x s
  | .vsubS32 x => Sys2Proof.Machine.execVsubS32 x s
  | .vsubS64 x => Sys2Proof.Machine.execVsubS64 x s
  | .vsubSatS32 x => Sys2Proof.Machine.execVsubSatS32 x s
  | .vsubSatN32 x => Sys2Proof.Machine.execVsubSatN32 x s
  | .vmulS32 x => Sys2Proof.Machine.execVmulS32 x s
  | .vmulS64 x => Sys2Proof.Machine.execVmulS64 x s
  | .vmulhS32 x => Sys2Proof.Machine.execVmulhS32 x s
  | .vmulhN32 x => Sys2Proof.Machine.execVmulhN32 x s
  | .vmadS32 x => Sys2Proof.Machine.execVmadS32 x s
  | .vmadS64 x => Sys2Proof.Machine.execVmadS64 x s
  | .vadcN32 x => Sys2Proof.Machine.execVadcN32 x s
  | .vsbcN32 x => Sys2Proof.Machine.execVsbcN32 x s
  | .vdivS32 x => Sys2Proof.Machine.execVdivS32 x s
  | .vdivN32 x => Sys2Proof.Machine.execVdivN32 x s
  | .vdivS64 x => Sys2Proof.Machine.execVdivS64 x s
  | .vdivN64 x => Sys2Proof.Machine.execVdivN64 x s
  | .vremS32 x => Sys2Proof.Machine.execVremS32 x s
  | .vremN32 x => Sys2Proof.Machine.execVremN32 x s
  | .vremS64 x => Sys2Proof.Machine.execVremS64 x s
  | .vremN64 x => Sys2Proof.Machine.execVremN64 x s
  | .vabsS32 x => Sys2Proof.Machine.execVabsS32 x s
  | .vabsS64 x => Sys2Proof.Machine.execVabsS64 x s
  | .vnegS32 x => Sys2Proof.Machine.execVnegS32 x s
  | .vnegS64 x => Sys2Proof.Machine.execVnegS64 x s
  | .vminS32 x => Sys2Proof.Machine.execVminS32 x s
  | .vminN32 x => Sys2Proof.Machine.execVminN32 x s
  | .vmaxS32 x => Sys2Proof.Machine.execVmaxS32 x s
  | .vmaxN32 x => Sys2Proof.Machine.execVmaxN32 x s
  | .vminS64 x => Sys2Proof.Machine.execVminS64 x s
  | .vminN64 x => Sys2Proof.Machine.execVminN64 x s
  | .vmaxS64 x => Sys2Proof.Machine.execVmaxS64 x s
  | .vmaxN64 x => Sys2Proof.Machine.execVmaxN64 x s
  | .vandB32 x => Sys2Proof.Machine.execVandB32 x s
  | .vorB32 x => Sys2Proof.Machine.execVorB32 x s
  | .vxorB32 x => Sys2Proof.Machine.execVxorB32 x s
  | .vandnB32 x => Sys2Proof.Machine.execVandnB32 x s
  | .vandB64 x => Sys2Proof.Machine.execVandB64 x s
  | .vorB64 x => Sys2Proof.Machine.execVorB64 x s
  | .vxorB64 x => Sys2Proof.Machine.execVxorB64 x s
  | .vandnB64 x => Sys2Proof.Machine.execVandnB64 x s
  | .vshlB32 x => Sys2Proof.Machine.execVshlB32 x s
  | .vshrB32 x => Sys2Proof.Machine.execVshrB32 x s
  | .vsraB32 x => Sys2Proof.Machine.execVsraB32 x s
  | .vrotB32 x => Sys2Proof.Machine.execVrotB32 x s
  | .vshlB64 x => Sys2Proof.Machine.execVshlB64 x s
  | .vshrB64 x => Sys2Proof.Machine.execVshrB64 x s
  | .vsraB64 x => Sys2Proof.Machine.execVsraB64 x s
  | .vrotB64 x => Sys2Proof.Machine.execVrotB64 x s
  | .vclzB32 x => Sys2Proof.Machine.execVclzB32 x s
  | .vclzB64 x => Sys2Proof.Machine.execVclzB64 x s
  | .vpopcB32 x => Sys2Proof.Machine.execVpopcB32 x s
  | .vpopcB64 x => Sys2Proof.Machine.execVpopcB64 x s
  | .vbrevB32 x => Sys2Proof.Machine.execVbrevB32 x s
  | .vbrevB64 x => Sys2Proof.Machine.execVbrevB64 x s
  | .vbfeS32 x => Sys2Proof.Machine.execVbfeS32 x s
  | .vbfeN32 x => Sys2Proof.Machine.execVbfeN32 x s
  | .vbfiB32 x => Sys2Proof.Machine.execVbfiB32 x s
  | .vleaB64 x => Sys2Proof.Machine.execVleaB64 x s
  | .vmovB32 x => Sys2Proof.Machine.execVmovB32 x s
  | .vmovB64 x => Sys2Proof.Machine.execVmovB64 x s
  | .vaddS32I x => Sys2Proof.Machine.execVaddS32I x s
  | .vandB32I x => Sys2Proof.Machine.execVandB32I x s
  | .vorB32I x => Sys2Proof.Machine.execVorB32I x s
  | .vxorB32I x => Sys2Proof.Machine.execVxorB32I x s
  | .vshlB32I x => Sys2Proof.Machine.execVshlB32I x s
  | .vshrB32I x => Sys2Proof.Machine.execVshrB32I x s
  | .vsraB32I x => Sys2Proof.Machine.execVsraB32I x s
  | .vrotB32I x => Sys2Proof.Machine.execVrotB32I x s
  | .vliB32 x => Sys2Proof.Machine.execVliB32 x s
  | .vselB32 x => Sys2Proof.Machine.execVselB32 x s
  | .vselB64 x => Sys2Proof.Machine.execVselB64 x s
  | .vcvtS32S8 x => Sys2Proof.Machine.execVcvtS32S8 x s
  | .vcvtS32S16 x => Sys2Proof.Machine.execVcvtS32S16 x s
  | .vcvtN32N8 x => Sys2Proof.Machine.execVcvtN32N8 x s
  | .vcvtN32N16 x => Sys2Proof.Machine.execVcvtN32N16 x s
  | .vcvtS64S32 x => Sys2Proof.Machine.execVcvtS64S32 x s
  | .vcvtN64N32 x => Sys2Proof.Machine.execVcvtN64N32 x s
  | .vcvtS8S32 x => Sys2Proof.Machine.execVcvtS8S32 x s
  | .vcvtS16S32 x => Sys2Proof.Machine.execVcvtS16S32 x s
  | .vcvtN8N32 x => Sys2Proof.Machine.execVcvtN8N32 x s
  | .vcvtN16N32 x => Sys2Proof.Machine.execVcvtN16N32 x s
  | .vcvtS32S64 x => Sys2Proof.Machine.execVcvtS32S64 x s
  | .vcvtN32N64 x => Sys2Proof.Machine.execVcvtN32N64 x s
  | .vcvtS32N32 x => Sys2Proof.Machine.execVcvtS32N32 x s
  | .vcvtN32S32 x => Sys2Proof.Machine.execVcvtN32S32 x s
  | .vcmpEqB32 x => Sys2Proof.Machine.execVcmpEqB32 x s
  | .vcmpNeB32 x => Sys2Proof.Machine.execVcmpNeB32 x s
  | .vcmpLtS32 x => Sys2Proof.Machine.execVcmpLtS32 x s
  | .vcmpLeS32 x => Sys2Proof.Machine.execVcmpLeS32 x s
  | .vcmpLtN32 x => Sys2Proof.Machine.execVcmpLtN32 x s
  | .vcmpLeN32 x => Sys2Proof.Machine.execVcmpLeN32 x s
  | .vcmpEqB64 x => Sys2Proof.Machine.execVcmpEqB64 x s
  | .vcmpNeB64 x => Sys2Proof.Machine.execVcmpNeB64 x s
  | .vcmpLtS64 x => Sys2Proof.Machine.execVcmpLtS64 x s
  | .vcmpLeS64 x => Sys2Proof.Machine.execVcmpLeS64 x s
  | .vcmpLtN64 x => Sys2Proof.Machine.execVcmpLtN64 x s
  | .vcmpLeN64 x => Sys2Proof.Machine.execVcmpLeN64 x s
  | .vcmpEqB32I x => Sys2Proof.Machine.execVcmpEqB32I x s
  | .vcmpLtS32I x => Sys2Proof.Machine.execVcmpLtS32I x s
  | .vcmpLtN32I x => Sys2Proof.Machine.execVcmpLtN32I x s
  | .plop t x => Sys2Proof.Machine.execPlop t x s
  | .xshfB32 x => Sys2Proof.Machine.execXshfB32 x s
  | .xshuB32 x => Sys2Proof.Machine.execXshuB32 x s
  | .xshdB32 x => Sys2Proof.Machine.execXshdB32 x s
  | .xbflB32 x => Sys2Proof.Machine.execXbflB32 x s
  | .xvoteAny x => Sys2Proof.Machine.execXvoteAny x s
  | .xvoteAll x => Sys2Proof.Machine.execXvoteAll x s
  | .xvoteBal x => Sys2Proof.Machine.execXvoteBal x s
  | .xmatchB32 x => Sys2Proof.Machine.execXmatchB32 x s
  | .xbcastB32 x => Sys2Proof.Machine.execXbcastB32 x s
  | .xshfB64 x => Sys2Proof.Machine.execXshfB64 x s
  | .xbcastB64 x => Sys2Proof.Machine.execXbcastB64 x s
  | .xmatchB64 x => Sys2Proof.Machine.execXmatchB64 x s
  | .xredAddS32 x => Sys2Proof.Machine.execXredAddS32 x s
  | .xredMinS32 x => Sys2Proof.Machine.execXredMinS32 x s
  | .xredMaxS32 x => Sys2Proof.Machine.execXredMaxS32 x s
  | .xredMinN32 x => Sys2Proof.Machine.execXredMinN32 x s
  | .xredMaxN32 x => Sys2Proof.Machine.execXredMaxN32 x s
  | .xredAndB32 x => Sys2Proof.Machine.execXredAndB32 x s
  | .xredOrB32 x => Sys2Proof.Machine.execXredOrB32 x s
  | .xredXorB32 x => Sys2Proof.Machine.execXredXorB32 x s
  | .xredAddS64 x => Sys2Proof.Machine.execXredAddS64 x s
  | .xscanAddS32 x => Sys2Proof.Machine.execXscanAddS32 x s
  | .xscanAddxS32 x => Sys2Proof.Machine.execXscanAddxS32 x s
  | .xscanMinS32 x => Sys2Proof.Machine.execXscanMinS32 x s
  | .xscanMaxS32 x => Sys2Proof.Machine.execXscanMaxS32 x s
  | .xscanOrB32 x => Sys2Proof.Machine.execXscanOrB32 x s
  | .xscanAddxS64 x => Sys2Proof.Machine.execXscanAddxS64 x s
  | .ffmaF32 x => Sys2Proof.Machine.execFfmaF32 x s
  | .faddF32 x => Sys2Proof.Machine.execFaddF32 x s
  | .fsubF32 x => Sys2Proof.Machine.execFsubF32 x s
  | .fmulF32 x => Sys2Proof.Machine.execFmulF32 x s
  | .fminF32 x => Sys2Proof.Machine.execFminF32 x s
  | .fmaxF32 x => Sys2Proof.Machine.execFmaxF32 x s
  | .fminnF32 x => Sys2Proof.Machine.execFminnF32 x s
  | .fmaxnF32 x => Sys2Proof.Machine.execFmaxnF32 x s
  | .fabsF32 x => Sys2Proof.Machine.execFabsF32 x s
  | .fnegF32 x => Sys2Proof.Machine.execFnegF32 x s
  | .fcpsF32 x => Sys2Proof.Machine.execFcpsF32 x s
  | .fclassF32 x => Sys2Proof.Machine.execFclassF32 x s
  | .frndF32 x => Sys2Proof.Machine.execFrndF32 x s
  | .fsclF32 x => Sys2Proof.Machine.execFsclF32 x s
  | .fgetxF32 x => Sys2Proof.Machine.execFgetxF32 x s
  | .fdot2F32H2 x => Sys2Proof.Machine.execFdot2F32H2 x s
  | .ffmaH2 x => Sys2Proof.Machine.execFfmaH2 x s
  | .faddH2 x => Sys2Proof.Machine.execFaddH2 x s
  | .fsubH2 x => Sys2Proof.Machine.execFsubH2 x s
  | .fmulH2 x => Sys2Proof.Machine.execFmulH2 x s
  | .fminH2 x => Sys2Proof.Machine.execFminH2 x s
  | .fmaxH2 x => Sys2Proof.Machine.execFmaxH2 x s
  | .fminnH2 x => Sys2Proof.Machine.execFminnH2 x s
  | .fmaxnH2 x => Sys2Proof.Machine.execFmaxnH2 x s
  | .fabsH2 x => Sys2Proof.Machine.execFabsH2 x s
  | .fnegH2 x => Sys2Proof.Machine.execFnegH2 x s
  | .fcpsH2 x => Sys2Proof.Machine.execFcpsH2 x s
  | .fclassH2 x => Sys2Proof.Machine.execFclassH2 x s
  | .frndH2 x => Sys2Proof.Machine.execFrndH2 x s
  | .fsclH2 x => Sys2Proof.Machine.execFsclH2 x s
  | .fgetxH2 x => Sys2Proof.Machine.execFgetxH2 x s
  | .fdot2F32Bh2 x => Sys2Proof.Machine.execFdot2F32Bh2 x s
  | .ffmaBh2 x => Sys2Proof.Machine.execFfmaBh2 x s
  | .faddBh2 x => Sys2Proof.Machine.execFaddBh2 x s
  | .fsubBh2 x => Sys2Proof.Machine.execFsubBh2 x s
  | .fmulBh2 x => Sys2Proof.Machine.execFmulBh2 x s
  | .fminBh2 x => Sys2Proof.Machine.execFminBh2 x s
  | .fmaxBh2 x => Sys2Proof.Machine.execFmaxBh2 x s
  | .fminnBh2 x => Sys2Proof.Machine.execFminnBh2 x s
  | .fmaxnBh2 x => Sys2Proof.Machine.execFmaxnBh2 x s
  | .fabsBh2 x => Sys2Proof.Machine.execFabsBh2 x s
  | .fnegBh2 x => Sys2Proof.Machine.execFnegBh2 x s
  | .fcpsBh2 x => Sys2Proof.Machine.execFcpsBh2 x s
  | .fclassBh2 x => Sys2Proof.Machine.execFclassBh2 x s
  | .frndBh2 x => Sys2Proof.Machine.execFrndBh2 x s
  | .fsclBh2 x => Sys2Proof.Machine.execFsclBh2 x s
  | .fgetxBh2 x => Sys2Proof.Machine.execFgetxBh2 x s
  | .fdot4F32Q8 x => Sys2Proof.Machine.execFdot4F32Q8 x s
  | .fcmpEqF32 x => Sys2Proof.Machine.execFcmpEqF32 x s
  | .fcmpNeF32 x => Sys2Proof.Machine.execFcmpNeF32 x s
  | .fcmpLtF32 x => Sys2Proof.Machine.execFcmpLtF32 x s
  | .fcmpLeF32 x => Sys2Proof.Machine.execFcmpLeF32 x s
  | .fcmpUnF32 x => Sys2Proof.Machine.execFcmpUnF32 x s
  | .fcmpOrdF32 x => Sys2Proof.Machine.execFcmpOrdF32 x s
  | .fcvtF32F16 x => Sys2Proof.Machine.execFcvtF32F16 x s
  | .fcvtF32Bf16 x => Sys2Proof.Machine.execFcvtF32Bf16 x s
  | .fcvtH2F32 x => Sys2Proof.Machine.execFcvtH2F32 x s
  | .fcvtBh2F32 x => Sys2Proof.Machine.execFcvtBh2F32 x s
  | .fcvtF32Q8 x => Sys2Proof.Machine.execFcvtF32Q8 x s
  | .fcvtQ8F32 x => Sys2Proof.Machine.execFcvtQ8F32 x s
  | .fcvtiS32F32 x => Sys2Proof.Machine.execFcvtiS32F32 x s
  | .fcvtiN32F32 x => Sys2Proof.Machine.execFcvtiN32F32 x s
  | .fcvtfF32S32 x => Sys2Proof.Machine.execFcvtfF32S32 x s
  | .fcvtfF32N32 x => Sys2Proof.Machine.execFcvtfF32N32 x s
  | .fcvtiS64F32 x => Sys2Proof.Machine.execFcvtiS64F32 x s
  | .fcvtiN64F32 x => Sys2Proof.Machine.execFcvtiN64F32 x s
  | .fcvtfF32S64 x => Sys2Proof.Machine.execFcvtfF32S64 x s
  | .fcvtfF32N64 x => Sys2Proof.Machine.execFcvtfF32N64 x s
  | .fqntQ8F32 x => Sys2Proof.Machine.execFqntQ8F32 x s
  | .fdqntF32Q8 x => Sys2Proof.Machine.execFdqntF32Q8 x s
  | .fsqrtF32 x => Sys2Proof.Machine.execFsqrtF32 x s
  | .frcpF32 x => Sys2Proof.Machine.execFrcpF32 x s
  | .frsqF32 x => Sys2Proof.Machine.execFrsqF32 x s
  | .fex2F32 x => Sys2Proof.Machine.execFex2F32 x s
  | .flg2F32 x => Sys2Proof.Machine.execFlg2F32 x s
  | .fsinF32 x => Sys2Proof.Machine.execFsinF32 x s
  | .fcosF32 x => Sys2Proof.Machine.execFcosF32 x s
  | .ftnhF32 x => Sys2Proof.Machine.execFtnhF32 x s
  | .ftabF32 x => Sys2Proof.Machine.execFtabF32 x s
  | .ldtab x => Sys2Proof.Machine.execLdtab x s
  | .swtab x => Sys2Proof.Machine.execSwtab x s
  | .ldN8 x => Sys2Proof.Machine.execLdN8 x s
  | .ldS8 x => Sys2Proof.Machine.execLdS8 x s
  | .ldN16 x => Sys2Proof.Machine.execLdN16 x s
  | .ldS16 x => Sys2Proof.Machine.execLdS16 x s
  | .ldB32 x => Sys2Proof.Machine.execLdB32 x s
  | .ldB64 x => Sys2Proof.Machine.execLdB64 x s
  | .ldB128 x => Sys2Proof.Machine.execLdB128 x s
  | .ldB32S x => Sys2Proof.Machine.execLdB32S x s
  | .ldB64S x => Sys2Proof.Machine.execLdB64S x s
  | .ldB128S x => Sys2Proof.Machine.execLdB128S x s
  | .ldB32Q x => Sys2Proof.Machine.execLdB32Q x s
  | .ldB64Q x => Sys2Proof.Machine.execLdB64Q x s
  | .stN8 x => Sys2Proof.Machine.execStN8 x s
  | .stN16 x => Sys2Proof.Machine.execStN16 x s
  | .stB32 x => Sys2Proof.Machine.execStB32 x s
  | .stB64 x => Sys2Proof.Machine.execStB64 x s
  | .stB128 x => Sys2Proof.Machine.execStB128 x s
  | .stB32S x => Sys2Proof.Machine.execStB32S x s
  | .stB64S x => Sys2Proof.Machine.execStB64S x s
  | .stB128S x => Sys2Proof.Machine.execStB128S x s
  | .stB32Q x => Sys2Proof.Machine.execStB32Q x s
  | .stB64Q x => Sys2Proof.Machine.execStB64Q x s
  | .ldsN8 x => Sys2Proof.Machine.execLdsN8 x s
  | .ldsS8 x => Sys2Proof.Machine.execLdsS8 x s
  | .ldsN16 x => Sys2Proof.Machine.execLdsN16 x s
  | .ldsS16 x => Sys2Proof.Machine.execLdsS16 x s
  | .ldsB32 x => Sys2Proof.Machine.execLdsB32 x s
  | .ldsB64 x => Sys2Proof.Machine.execLdsB64 x s
  | .ldsB128 x => Sys2Proof.Machine.execLdsB128 x s
  | .stsN8 x => Sys2Proof.Machine.execStsN8 x s
  | .stsN16 x => Sys2Proof.Machine.execStsN16 x s
  | .stsB32 x => Sys2Proof.Machine.execStsB32 x s
  | .stsB64 x => Sys2Proof.Machine.execStsB64 x s
  | .stsB128 x => Sys2Proof.Machine.execStsB128 x s
  | .ldncB32 x => Sys2Proof.Machine.execLdncB32 x s
  | .ldncB64 x => Sys2Proof.Machine.execLdncB64 x s
  | .ldncB128 x => Sys2Proof.Machine.execLdncB128 x s
  | .ldvB32 x => Sys2Proof.Machine.execLdvB32 x s
  | .ldvB64 x => Sys2Proof.Machine.execLdvB64 x s
  | .ldvB128 x => Sys2Proof.Machine.execLdvB128 x s
  | .pf x => Sys2Proof.Machine.execPf x s
  | .amoB32 x => Sys2Proof.Machine.execAmoB32 x s
  | .amoB64 x => Sys2Proof.Machine.execAmoB64 x s
  | .amosB32 x => Sys2Proof.Machine.execAmosB32 x s
  | .amosB64 x => Sys2Proof.Machine.execAmosB64 x s
  | .redN8 x => Sys2Proof.Machine.execRedN8 x s
  | .redB32 x => Sys2Proof.Machine.execRedB32 x s
  | .redB64 x => Sys2Proof.Machine.execRedB64 x s
  | .redwF32 x => Sys2Proof.Machine.execRedwF32 x s
  | .redwS32 x => Sys2Proof.Machine.execRedwS32 x s
  | .wfinF32 x => Sys2Proof.Machine.execWfinF32 x s
  | .wfinS64 x => Sys2Proof.Machine.execWfinS64 x s
  | .fence x => Sys2Proof.Machine.execFence x s
  | .fsc x => Sys2Proof.Machine.execFsc x s
  | .waddrB32 x => Sys2Proof.Machine.execWaddrB32 x s
  | .waddrB64 x => Sys2Proof.Machine.execWaddrB64 x s
  | .seal x => Sys2Proof.Machine.execSeal x s
  | .unseal x => Sys2Proof.Machine.execUnseal x s
  | .bar x => Sys2Proof.Machine.execBar x s
  | .gbar x => Sys2Proof.Machine.execGbar x s
  | .mbini x => Sys2Proof.Machine.execMbini x s
  | .mbarv x => Sys2Proof.Machine.execMbarv x s
  | .mbwt x => Sys2Proof.Machine.execMbwt x s
  | .mbtry x => Sys2Proof.Machine.execMbtry x s
  | .chbind x => Sys2Proof.Machine.execChbind x s
  | .chfree x => Sys2Proof.Machine.execChfree x s
  | .chstat x => Sys2Proof.Machine.execChstat x s
  | .mst x => Sys2Proof.Machine.execMst x s
  | .mflip x => Sys2Proof.Machine.execMflip x s
  | .mma x => Sys2Proof.Machine.execMma x s
  | .mmas x => Sys2Proof.Machine.execMmas x s
  | .mzero x => Sys2Proof.Machine.execMzero x s
  | .mdr x => Sys2Proof.Machine.execMdr x s
  | .mdrv x => Sys2Proof.Machine.execMdrv x s
  | .mbyp x => Sys2Proof.Machine.execMbyp x s
  | .mvote x => Sys2Proof.Machine.execMvote x s
  | .mstat x => Sys2Proof.Machine.execMstat x s
  | .cpy x => Sys2Proof.Machine.execCpy x s
  | .cpyg x => Sys2Proof.Machine.execCpyg x s
  | .cpys x => Sys2Proof.Machine.execCpys x s
  | .cpyf x => Sys2Proof.Machine.execCpyf x s
  | .ceIns x => Sys2Proof.Machine.execCeIns x s
  | .ceQry x => Sys2Proof.Machine.execCeQry x s
  | .ceAcc x => Sys2Proof.Machine.execCeAcc x s
  | .ceMap x => Sys2Proof.Machine.execCeMap x s
  | .ceClr x => Sys2Proof.Machine.execCeClr x s
  | .ceSeal x => Sys2Proof.Machine.execCeSeal x s
  | .tg x => Sys2Proof.Machine.execTg x s
  | .scnz x => Sys2Proof.Machine.execScnz x s
  | .sctk x => Sys2Proof.Machine.execSctk x s
  | .erel x => Sys2Proof.Machine.execErel x s
  | .ecan x => Sys2Proof.Machine.execEcan x s
  | .estat x => Sys2Proof.Machine.execEstat x s
  | .trap x => Sys2Proof.Machine.execTrap x s
  | .brk x => Sys2Proof.Machine.execBrk x s
  | .sret x => Sys2Proof.Machine.execSret x s
  | .rply x => Sys2Proof.Machine.execRply x s
  | .park x => Sys2Proof.Machine.execPark x s
  | .rst x => Sys2Proof.Machine.execRst x s
  | .flane x => Sys2Proof.Machine.execFlane x s
  | .perf x => Sys2Proof.Machine.execPerf x s
  | .rdpr x => Sys2Proof.Machine.execRdpr x s
  | .wrpr x => Sys2Proof.Machine.execWrpr x s
  | .tlbi x => Sys2Proof.Machine.execTlbi x s
  | .issueClock core => Sys2Proof.Machine.execIssueClock core s
  | .fetchCodeLine wg origin line => Sys2Proof.Machine.execFetchCodeLine wg origin line s
  | .resultReturn wg tid k => Sys2Proof.Machine.execResultReturn wg tid k s
  | .meetingRelease wg hw pkt mask => Sys2Proof.Machine.execMeetingRelease wg hw pkt mask s
  | .electRelease wg hw pkt slot => Sys2Proof.Machine.execElectRelease wg hw pkt slot s
  | .crossLaneRelease wg hw pkt slot => Sys2Proof.Machine.execCrossLaneRelease wg hw pkt slot s
  | .fqntRelease wg octet pkt slot => Sys2Proof.Machine.execFqntRelease wg octet pkt slot s
  | .barRelease wg => Sys2Proof.Machine.execBarRelease wg s
  | .gbarRelease region => Sys2Proof.Machine.execGbarRelease region s
  | .mbwtRelease wg tid => Sys2Proof.Machine.execMbwtRelease wg tid s
  | .waddrPoll wg tid => Sys2Proof.Machine.execWaddrPoll wg tid s
  | .yieldResume wg tid => Sys2Proof.Machine.execYieldResume wg tid s
  | .heartbeatTick => Sys2Proof.Machine.execHeartbeatTick s
  | .writeThroughTimeout core sector => Sys2Proof.Machine.execWriteThroughTimeout core sector s
  | .homeWriteApply req => Sys2Proof.Machine.execHomeWriteApply req s
  | .sharerUpdate upd => Sys2Proof.Machine.execSharerUpdate upd s
  | .writeAck req => Sys2Proof.Machine.execWriteAck req s
  | .homeRead req => Sys2Proof.Machine.execHomeRead req s
  | .multicastWindowEnd window => Sys2Proof.Machine.execMulticastWindowEnd window s
  | .directoryDrop sector core => Sys2Proof.Machine.execDirectoryDrop sector core s
  | .promotionProbe req => Sys2Proof.Machine.execPromotionProbe req s
  | .porchLineExpire die line => Sys2Proof.Machine.execPorchLineExpire die line s
  | .reductionUnitApply req => Sys2Proof.Machine.execReductionUnitApply req s
  | .pageWalk core asid va => Sys2Proof.Machine.execPageWalk core asid va s
  | .placementEvaluate die => Sys2Proof.Machine.execPlacementEvaluate die s
  | .migrationCutOver => Sys2Proof.Machine.execMigrationCutOver s
  | .migrationDone => Sys2Proof.Machine.execMigrationDone s
  | .engineCommandStart core slot => Sys2Proof.Machine.execEngineCommandStart core slot s
  | .engineCommandComplete core slot => Sys2Proof.Machine.execEngineCommandComplete core slot s
  | .engineQueuePush core slot => Sys2Proof.Machine.execEngineQueuePush core slot s
  | .engineFaultResume core slot => Sys2Proof.Machine.execEngineFaultResume core slot s
  | .engineFaultTimeout core slot => Sys2Proof.Machine.execEngineFaultTimeout core slot s
  | .coordKeyOp core slot => Sys2Proof.Machine.execCoordKeyOp core slot s
  | .tgStep core slot => Sys2Proof.Machine.execTgStep core slot s
  | .planeLoadDone core => Sys2Proof.Machine.execPlaneLoadDone core s
  | .flipTakeEffect core => Sys2Proof.Machine.execFlipTakeEffect core s
  | .matrixPass core op => Sys2Proof.Machine.execMatrixPass core op s
  | .handlerEntry wg set => Sys2Proof.Machine.execHandlerEntry wg set s
  | .bind core slot => Sys2Proof.Machine.execBind core slot s
  | .resume core slot => Sys2Proof.Machine.execResume core slot s
  | .preempt core slot => Sys2Proof.Machine.execPreempt core slot s
  | .preemptEntry wg tid => Sys2Proof.Machine.execPreemptEntry wg tid s
  | .preemptHandlerTimeout wg tid => Sys2Proof.Machine.execPreemptHandlerTimeout wg tid s
  | .contextSave wg => Sys2Proof.Machine.execContextSave wg s
  | .workgroupEnd wg => Sys2Proof.Machine.execWorkgroupEnd wg s
  | .tailStart wg => Sys2Proof.Machine.execTailStart wg s
  | .stateWordWrite req => Sys2Proof.Machine.execStateWordWrite req s
  | .hearthReadBlock block => Sys2Proof.Machine.execHearthReadBlock block s
  | .regionEligible block => Sys2Proof.Machine.execRegionEligible block s
  | .regionComplete block => Sys2Proof.Machine.execRegionComplete block s
  | .hearthBind block => Sys2Proof.Machine.execHearthBind block s
  | .highClassPreemptWait block => Sys2Proof.Machine.execHighClassPreemptWait block s
  | .powerStateSet unit state => Sys2Proof.Machine.execPowerStateSet unit state s
  | .wakeComplete unit => Sys2Proof.Machine.execWakeComplete unit s
  | .hallGrant die column plane => Sys2Proof.Machine.execHallGrant die column plane s
  | .linkFlitSend link dir => Sys2Proof.Machine.execLinkFlitSend link dir s
  | .flitReceive link dir good => Sys2Proof.Machine.execFlitReceive link dir good s
  | .replayRequest link dir => Sys2Proof.Machine.execReplayRequest link dir s
  | .linkRetrainStart link => Sys2Proof.Machine.execLinkRetrainStart link s
  | .linkRetrainEnd link => Sys2Proof.Machine.execLinkRetrainEnd link s
  | .linkDown link => Sys2Proof.Machine.execLinkDown link s
  | .peerPacketReceive node dst hop write addr size bytes => Sys2Proof.Machine.execPeerPacketReceive node dst hop write addr size bytes s
  | .hostMemRead addr size tag => Sys2Proof.Machine.execHostMemRead addr size tag s
  | .hostMemWrite addr bytes => Sys2Proof.Machine.execHostMemWrite addr bytes s
  | .backInvalidateResponse line => Sys2Proof.Machine.execBackInvalidateResponse line s
  | .hostSnoop line => Sys2Proof.Machine.execHostSnoop line s
  | .reset => Sys2Proof.Machine.execReset s
  | .thermalThrottle scale => Sys2Proof.Machine.execThermalThrottle scale s
  | .thermalShutdown => Sys2Proof.Machine.execThermalShutdown s
  | .devstatWrite value => Sys2Proof.Machine.execDevstatWrite value s
  | .registerTable base len asid root key0 => Sys2Proof.Machine.execRegisterTable base len asid root key0 s
  | .deregisterTable table => Sys2Proof.Machine.execDeregisterTable table s
  | .deregistrationComplete => Sys2Proof.Machine.execDeregistrationComplete s
  | .writeRouteEntry node entry => Sys2Proof.Machine.execWriteRouteEntry node entry s
  | .xelasPortReenable port => Sys2Proof.Machine.execXelasPortReenable port s
  | .portReenableComplete port => Sys2Proof.Machine.execPortReenableComplete port s
  | .xelasPortDeclareDown port => Sys2Proof.Machine.execXelasPortDeclareDown port s
  | .deadlineDemandFloor value => Sys2Proof.Machine.execDeadlineDemandFloor value s
  | .powerLimit value => Sys2Proof.Machine.execPowerLimit value s
  | .attestation nonce => Sys2Proof.Machine.execAttestation nonce s
  | .eventQueueEntry => Sys2Proof.Machine.execEventQueueEntry s
  | .replayThreshold value => Sys2Proof.Machine.execReplayThreshold value s
  | .nodeNumber value => Sys2Proof.Machine.execNodeNumber value s
  | .certificateChain index => Sys2Proof.Machine.execCertificateChain index s
  | .transferFw image => Sys2Proof.Machine.execTransferFw image s
  | .activateFw => Sys2Proof.Machine.execActivateFw s
  | .matrixOperationComplete core op => Sys2Proof.Machine.execMatrixOperationComplete core op s

end Sys2Proof.Machine
end

