-- ==== Sys2Proof/Machine/Step.lean ====
section
/-! DEFINITION. The step of the machine. A formed warp that has been granted issues its group; else a step that stands in
the agenda is taken (what comes from outside, in its order); else a step of the device's own: what comes about as soon as
its condition holds, in a fixed order; else one of the steps that can be taken now, where the spec orders none before the
other: as the schedule in the state says, which nothing is assumed of (log 44). -/

namespace Sys2Proof.Machine

/-! ### The steps the device takes by itself -/

/-- A search for a step that can be taken now; it answers the step's outcome. The number turns the order in which it
looks. -/
abbrev Finder := Nat → State → Option Res

/-- The first step found. -/
def firstStep (n : Nat) (s : State) : List Finder → Option Res
  | [] => none
  | f :: rest =>
    match f n s with
    | some r => some r
    | none => firstStep n s rest

/-- A list turned by `n` places. -/
def turned {α : Type} (n : Nat) (l : List α) : List α := l.drop (n % l.length) ++ l.take (n % l.length)

/-- A search over workgroups that issue. -/
def State.someWg (n : Nat) (s : State) (f : Nat → Workgroup → Option Res) : Option Res :=
  (turned n s.wgs).findSome? fun p => if p.2.issues then f p.1 p.2 else none

/-- A search over their threads that have not ended. -/
def State.someThread (n : Nat) (s : State) (f : Nat → Workgroup → Nat → Thread → Option Res) : Option Res :=
  s.someWg n fun w g => (turned (n / s.wgs.length) g.threads).findSome? fun p => if p.2.ended then none else f w g p.1 p.2

/-- A search over the records in slots that have not been obeyed. -/
def State.someRecord (n : Nat) (s : State) (f : Nat → Nat → BindRec → Option Res) : Option Res :=
  (turned n s.cores).findSome? fun k => k.2.slots.findSome? fun b =>
    if (s.record k.1 b.1 b.2.op).isSome then f k.1 b.1 b.2 else none

def stepIf (p : Bool) (r : Unit → Res) : Option Res := if p then some (r ()) else none

/-- No line of these is asked of the host already. -/
def State.asked (s : State) (pas : List Nat) : Bool := pas.any fun p => s.hostHolds p && s.snoops.contains (sectorOf p)

def findWake (n : Nat) (s : State) : Option Res :=
  (turned n s.waking).findSome? fun p => stepIf (s.wakeOver p.1) fun _ => execWakeComplete p.1 s
def findKill (n : Nat) (s : State) : Option Res :=
  (turned n s.regions).findSome? fun p => stepIf (s.mustKill p.1 p.2) fun _ => execRegionComplete p.1 s
def findPreempt (n : Nat) (s : State) : Option Res :=
  s.someRecord n fun c i b => stepIf (b.op == 3) fun _ => execPreempt c i s
def findEntry (n : Nat) (s : State) : Option Res :=
  s.someThread n fun w _ t _ => stepIf (s.entryReady w t) fun _ => execPreemptEntry w t s
def findHandlerOver (n : Nat) (s : State) : Option Res :=
  s.someThread n fun w _ t _ => stepIf (s.handlerOver w t) fun _ => execPreemptHandlerTimeout w t s
def findSave (n : Nat) (s : State) : Option Res :=
  s.someWg n fun w _ => stepIf (s.saveReady w) fun _ => execContextSave w s
def findHandlerEntry (n : Nat) (s : State) : Option Res :=
  s.someWg n fun w g => g.trapSets.findSome? fun p => stepIf (s.trapSetReady w p.2) fun _ => execHandlerEntry w p.1 s
/-- The place of the first result of a thread that is there. -/
def findResult (n : Nat) (s : State) : Option Res :=
  s.someThread n fun w g t x =>
    (List.range x.pend.length).findSome? fun k =>
      stepIf ((x.pend[k]?).any (pendReady g)) fun _ => execResultReturn w t k s

def findMeeting (n : Nat) (s : State) : Option Res :=
  s.someThread n fun w g t x =>
    match x.hold with
    | .meeting a m => stepIf (g.meetingReady (g.home t) a m x.priv) fun _ => execMeetingRelease w (g.home t) a m s
    | _ => none
def findElect (n : Nat) (s : State) : Option Res :=
  s.someThread n fun w g t x =>
    match x.hold with
    | .elect k => stepIf (g.gathered (g.home t) x.pc x.priv x.hold k) fun _ => execElectRelease w (g.home t) x.pc.pkt x.pc.slot s
    | _ => none
def findCross (n : Nat) (s : State) : Option Res :=
  s.someThread n fun w g t x =>
    match x.hold with
    | .cross k =>
      stepIf (g.gathered (g.home t) x.pc x.priv x.hold k) fun _ => execCrossLaneRelease w (g.home t) x.pc.pkt x.pc.slot s
    | _ => none
def findFqnt (n : Nat) (s : State) : Option Res :=
  s.someThread n fun w g t x =>
    stepIf (x.hold == .fqnt && g.fqntReady (octetOf t) x.pc x.priv) fun _ => execFqntRelease w (octetOf t) x.pc.pkt x.pc.slot s
def findBar (n : Nat) (s : State) : Option Res := s.someWg n fun w g => stepIf g.barReady fun _ => execBarRelease w s
def findGbar (n : Nat) (s : State) : Option Res :=
  s.someWg n fun _ g => stepIf (s.gbarReady g.block) fun _ => execGbarRelease g.block s
def findMbwt (n : Nat) (s : State) : Option Res :=
  s.someThread n fun w g t x => stepIf (g.phaseOver x) fun _ => execMbwtRelease w t s
def findYield (n : Nat) (s : State) : Option Res :=
  s.someThread n fun w g t x => stepIf (g.yieldOver x) fun _ => execYieldResume w t s
def findPoll (n : Nat) (s : State) : Option Res :=
  s.someThread n fun w g t x => stepIf (s.pollDue g x) fun _ => execWaddrPoll w t s

def findEnd (n : Nat) (s : State) : Option Res :=
  (turned n s.wgs).findSome? fun p => stepIf (s.endReady p.1) fun _ => execWorkgroupEnd p.1 s
def findTail (n : Nat) (s : State) : Option Res :=
  (turned n s.wgs).findSome? fun p => stepIf (s.tailReady p.1) fun _ => execTailStart p.1 s

/-- A request that its home can serve now: a read, a probe, a write, a write of a state word, an operation. -/
def findRequest (n : Nat) (s : State) : Option Res :=
  (turned n s.reqs).findSome? fun p =>
    let r := p.2
    match r.state with
    | .probing => some (execPromotionProbe p.1 s)
    | .applied => stepIf (s.updated p.1) fun _ => execWriteAck p.1 s
    | .arrived =>
      if !r.kind.isWrite then stepIf (s.open_ r.pa) fun _ => execHomeRead p.1 s
      else if !s.turn r || s.asked [r.pa] then none
      else if r.kind == .write then
        some (if s.hitsState (sectorOf r.pa) r.sectorBytes.2 then execStateWordWrite p.1 s else execHomeWriteApply p.1 s)
      else some (execReductionUnitApply p.1 s)
    | .done => some (if r.kind.isWrite then execWriteAck p.1 s else execHomeRead p.1 s)
    | _ => none
def findUpdate (n : Nat) (s : State) : Option Res :=
  (turned n s.upds).findSome? fun p => stepIf (s.updReady p.1 p.2) fun _ => execSharerUpdate p.1 s
/-- A multicast window that may end (R306). (DESIGN CHOICE, log 61.) -/
def findWindow (_ : Nat) (s : State) : Option Res :=
  (s.windows.find? fun p => s.open_ (p.2.sector * 64)).map fun p => execMulticastWindowEnd p.1 s

/-- A core whose matrix array has something to do. -/
def State.someCore (n : Nat) (s : State) (f : Nat → Option Res) : Option Res :=
  (turned n s.wgs).findSome? fun p => if p.2.status == .parked then none else f p.2.core
def findMatrix (n : Nat) (s : State) : Option Res :=
  s.someCore n fun c =>
    ((s.findMx c loadReady).map fun _ => execPlaneLoadDone c s).orElse fun _ =>
    ((s.findMx c Workgroup.flipRuns).map fun _ => execFlipTakeEffect c s).orElse fun _ =>
    ((s.findMx c passReady).map fun q => execMatrixPass c q.2.id s).orElse fun _ =>
    (s.findMx c otherReady).map fun q => execMatrixOperationComplete c q.2.id s

/-- A command of a core that a step can serve. -/
def State.someCmd (n : Nat) (s : State) (ok : Nat → Nat → Cmd → Bool) (f : Nat → Nat → Res) : Option Res :=
  (turned n s.wgs).findSome? fun p =>
    if p.2.status == .parked then none
    else (turned (n / s.wgs.length) p.2.cmds).findSome? fun c => stepIf (ok p.1 c.1 c.2) fun _ => f p.2.core (c.1 % 1024)
def findEngine (n : Nat) (s : State) : Option Res :=
  (s.someCmd n (fun w h c => s.startReady w h c && !s.isWaking (engineUnit (s.wgOf w).core c.eng) &&
      !(c.eng == 2 && s.isWaking (arrayUnit (s.wgOf w).core)))
    fun c k => execEngineCommandStart c k s).orElse fun _ =>
  (s.someCmd n s.resumeReady fun c k => execEngineFaultResume c k s).orElse fun _ =>
  (s.someCmd n s.haltOver fun c k => execEngineFaultTimeout c k s).orElse fun _ =>
  (if s.snoops = [] then s.someCmd n keyReady fun c k => execCoordKeyOp c k s else none).orElse fun _ =>
  (s.someCmd n (fun w h c => workReady w h c && !(c.eng == 1 && s.snoops != [])) fun c k => execEngineWork c k s).orElse fun _ =>
  (s.someCmd n tgReady fun c k => execTgStep c k s).orElse fun _ =>
  (s.someCmd n s.completeReady fun c k => execEngineCommandComplete c k s).orElse fun _ =>
  s.someCmd n s.pushReady fun c k => execEngineQueuePush c k s

def findSignal (n : Nat) (s : State) : Option Res :=
  (turned n s.signals).findSome? fun b => stepIf (!s.asked [b]) fun _ => execHearthReadBlock b s
def findEligible (n : Nat) (s : State) : Option Res :=
  (turned n s.regions).findSome? fun p =>
    (if s.eligible p.1 p.2 ∨ s.waitsAgain p.1 p.2 then Tab.find s.tables p.2.table else none).bind fun t =>
      stepIf (!s.asked (s.eligibleLines t p.1 p.2)) fun _ => execRegionEligible p.1 s
/-- The Hearth wakes a core that must stand (R266). -/
def findStanding (_ : Nat) (s : State) : Option Res := s.toStand.map fun _ => .next s.raiseStanding
def findComplete (n : Nat) (s : State) : Option Res :=
  (turned n s.regions).findSome? fun p =>
    (if s.runOver p.1 p.2 then Tab.find s.tables p.2.table else none).bind fun t =>
      stepIf (!s.asked (s.finishLines t p.1)) fun _ => execRegionComplete p.1 s
def findHearthBind (n : Nat) (s : State) : Option Res :=
  ((turned n s.regions).findSome? fun p => stepIf (s.hearthBind p.1).isSome fun _ => execHearthBind p.1 s).orElse fun _ =>
  (turned n s.regions).findSome? fun p => stepIf (s.preemptFor p.1 s.waitedMay).isSome fun _ => execHighClassPreemptWait p.1 s
def findBind (n : Nat) (s : State) : Option Res :=
  s.someRecord n fun c i b =>
    if !s.takes c then none
    else if b.op = 1 then some (execBind c i s) else if b.op = 2 then some (execResume c i s) else none
def findMailbox (_ : Nat) (s : State) : Option Res :=
  ((s.background.bind fun t => if s.tableIdle t then some t else none).map fun _ => execDeregistrationComplete s).orElse
    fun _ => s.enabling.findSome? fun p => stepIf (s.portQuiet p) fun _ => execPortReenableComplete p s

/-- A packet at a column sends a beat; at a link, a flit goes out, or one on its way arrives whole. -/
def findPacket (n : Nat) (s : State) : Option Res :=
  (turned n s.pkts).findSome? fun p =>
    match p.2.at_ with
    | some (.hall d c _) => some (execHallGrant d c p.2.plane s)
    | some (.link l dir) =>
      let x := s.linkAt l
      let y := x.dir dir
      let port := portUnit (l - 1)
      if x.status ≠ .up then none
      else if y.wire ≠ [] then some (execFlitReceive l dir true s)
      else if y.lost then some (execReplayRequest l dir s)
      else stepIf (decide (p.2.sent < p.2.bytes) && !(decide (1 ≤ l ∧ l ≤ 12) && s.isWaking port)) fun _ =>
        execLinkFlitSend l dir s
    | none => none
def findLink (n : Nat) (s : State) : Option Res :=
  (turned n s.links).findSome? fun p =>
    match p.2.status with
    | .up => stepIf (s.retrainDue p.1) fun _ => execLinkRetrainStart p.1 s
    | .retraining _ => some (if s.retrainFailed p.1 then execLinkDown p.1 s else execLinkRetrainEnd p.1 s)
    | .down => none

/-- What time brings: stores 512 clocks old, lines 8,192 ticks old, and evaluations. -/
def findTimed (_ : Nat) (s : State) : Option Res :=
  (s.cores.findSome? fun k => (k.2.wb.find? fun e => decide (e.clk + 512 ≤ k.2.clk)).map fun e =>
    execWriteThroughTimeout k.1 (sectorOf e.pa) s).orElse fun _ =>
  (s.dies.findSome? fun d => (d.2.porch.find? fun p => aged s.hb p.2.tick).map fun p =>
    execPorchLineExpire d.1 p.1 s).orElse fun _ =>
  (s.cores.findSome? fun k => (k.2.l1.find? fun p => p.2.remote && aged s.hb p.2.tick).map fun p =>
    execPorchLineExpire (dieOfCore k.1) (p.1 % 2 ^ 46 / 4) s).orElse fun _ =>
  ([0, 1].find? fun d => decide ((s.dieAt d).evals < s.hb.toNat / 16384)).map fun d => execPlacementEvaluate d s

/-- A migration under way comes to its cut-over. -/
def findMigration (_ : Nat) (s : State) : Option Res :=
  (s.migrating false).bind fun m => stepIf (s.cutReady m) fun _ => execMigrationCutOver s

/-- A core that has clocks left in this tick issues one. (DESIGN CHOICE, log 5.) -/
def findClock (n : Nat) (s : State) : Option Res :=
  (turned n s.cores).findSome? fun k =>
    stepIf (decide (k.2.clk < s.clk0 + (64 - s.clockScale)) && s.canIssue k.1) fun _ => execIssueClock k.1 s

/-- The heartbeat advances when no core has a clock left that it could issue. (DESIGN CHOICE, log 5.) -/
def findTick (n : Nat) (s : State) : Option Res := stepIf (findClock n s).isNone fun _ => execHeartbeatTick s

/-- Steps that come about as soon as they can. (DESIGN CHOICE, log 44.) -/
def promptSteps : List Finder :=
  [findWake, findStanding, findKill, findHandlerEntry, findEntry, findHandlerOver, findMeeting, findElect, findCross, findFqnt, findBar,
   findGbar, findMbwt, findYield, findTimed]

/-- What goes on beside the cores' clocks. -/
def flowSteps : List Finder :=
  [findResult, findPoll, findPreempt, findSave, findEnd, findTail, findRequest, findUpdate, findPacket, findLink, findWindow,
   findMatrix, findEngine, findSignal, findEligible, findComplete, findHearthBind, findBind, findMailbox, findMigration]

/-- Steps of which any that can be taken may come next. (DESIGN CHOICE, log 44.) -/
def openSteps : List Finder := flowSteps ++ [findClock, findTick]

/-- The order taken when the schedule names none: the cores issue until none can, then all else goes on until it rests.
(DESIGN CHOICE, log 44.) -/
def State.usualStep (s : State) : Res :=
  let clock (s : State) : Res := (findClock 0 s).getD (execHeartbeatTick s)
  let flow := firstStep 0 { s with flowing := true } flowSteps
  if s.flowing then flow.getD (clock { s with flowing := false })
  else (findClock 0 s).getD (flow.getD (execHeartbeatTick s))

/-- A step of the device's own: as the schedule says. (DESIGN CHOICE, log 44.) -/
def State.ownStep (s : State) : Res :=
  match firstStep 0 s promptSteps, s.schedule with
  | some r, _ => r
  | none, n :: rest =>
    let s := { s with schedule := rest }
    (firstStep (n / openSteps.length) s (turned n openSteps)).getD (execHeartbeatTick s)
  | none, [] => s.usualStep

/-! ### The step -/

/-- An instruction of the group that issues. -/
noncomputable def runWord (l : Layout) (s : State) : Res :=
  match l.instr with
  | .ok i => exec i s
  | .error _ => .next s.illegalAll

/-- One step. A module that has stopped goes on only by a reset; a cut-over goes before all else (R315).
(DESIGN CHOICE, log 2.) -/
noncomputable def step (s : State) : Host.Outcome State Fault Refusal :=
  if s.stopped then
    match s.agenda with
    | .reset :: rest => execReset { s with agenda := rest }
    | _ => .fault .stopped
  else if s.cutting then execMigrationDone s
  else
    match s.granted, s.agenda with
    | _ :: _, _ => s.issueGroup runWord
    | [], i :: rest => exec i { s with agenda := rest }
    | [], [] => s.ownStep

/-! ### Placing one instruction -/

/-- The words of an instruction in a packet: the words above its bits are 0. (DESIGN CHOICE, log 43.) -/
def packetOf (nbits w : Nat) : List W32 :=
  let w := w % 2 ^ nbits
  [BitVec.ofNat 32 w, BitVec.ofNat 32 (w >>> 32), BitVec.ofNat 32 (w >>> 64)]

/-- A code line with one packet and its trailer (R18, R19). (DESIGN CHOICE, log 43.) -/
def lineOfPacket (ws : List W32) : List Byte :=
  let body := ws.flatMap bytesOfWord ++ List.replicate 48 0
  body ++ bytesOfNat (crc32c body) 4

/-- Bytes placed in memory. -/
def placeBytes (m : Tab Byte) (pa : Nat) (bs : List Byte) : Tab Byte :=
  bs.zipIdx.foldl (fun m p => Tab.set 0 m (pa + p.2) p.1) m

/-- The kernel of the instruction: one home warp of sixteen threads, five packets. (DESIGN CHOICE, log 43.) -/
def oneHdr : Hdr := { width := 16, vregs := 64, depth := 4, tiles := 4, spad := 4096, hwarps := 1, len := 5 }

/-- A page table of four levels at offset 4 KiB of the device's memory maps page 0 to the page at 20 KiB; a kernel's code
line stands there after its header, a workgroup of that kernel is on core 0, and its threads have been granted an issue
slot. (DESIGN CHOICE, log 43.) -/
def State.withFetchWord (s : State) (nbits w : Nat) : State :=
  let base := s.node * 2 ^ 44
  let entry (pa flags : Nat) : List Byte := bytesOfNat (pa + flags) 8
  let mem := (List.range 3).foldl (fun m i => placeBytes m (base + 0x1000 * (i + 1)) (entry (base + 0x1000 * (i + 2)) 0x81)) s.mem
  let mem := placeBytes mem (base + 0x4000) (entry (base + 0x5000) 0x187)
  let mem := placeBytes mem (base + 0x5040) (lineOfPacket (packetOf nbits w))
  let tids := List.range 16
  let g : Workgroup := {
    ctx := { asid := 1, root := base + 0x1000, key := 0 }, hdr := oneHdr, threads := startThreads oneHdr, boundAt := s.hb
    boundSeq := s.binds }
  { s with
    mem := mem, stopped := false, agenda := [], cur := none, wgs := Tab.put s.wgs s.binds g, binds := s.binds + 1
    granted := [{ wg := s.binds, tids, fw := 0, released := false, gathered := false }] }

end Sys2Proof.Machine
end

