-- ==== Sys2Proof/Safety.lean ====
section
/-! DEFINITION. The terms claims are stated in: the invariant of the machine, an instruction whose group is issuing, and what
the lanes of a group become. -/

namespace Sys2Proof.Machine

/-! ### The invariant -/

/-- What holds of every state a run reaches: memory stands in its canonical form; reserved bits of the route table read 0
(R403); throttling leaves a clock of every tick (R408); the node number is below 64 (R414); the power limit is within the
grade's (R408) and the demand floor within the cores (R266). -/
def State.Inv (s : State) : Prop :=
  Memory.wf s.mem = true ∧ (∀ n, Tab.get 0 s.routes n &&& 0xFFFFC000 = 0) ∧ s.clockScale ≤ 63 ∧ s.node < 64 ∧
  s.powerLimit ≤ s.gradeLimit ∧ s.floor ≤ 128

/-- Workgroups and their threads are listed once each, in rising order; a thread's own number is the one it is listed under,
and its home warp is one of at most 128 (R26, R225); a kernel that may be bound has no more. -/
def State.Numbered (s : State) : Prop :=
  Tab.sorted s.wgs = true ∧
  (∀ p ∈ s.wgs, Tab.sorted p.2.threads = true ∧ ∀ q ∈ p.2.threads, q.2.tid = q.1 ∧ p.2.home q.1 < 128) ∧
  ∀ p ∈ s.regions, p.2.ending = none → p.2.hdr.hwarps ≤ 128

/-! ### A group that issues -/

/-- The group `c` issues an instruction of opcode `op`, fields `x` and operand forms `sg`: its conditions of
issue have been checked for the group, or checking them holds no lane back. -/
structure Issuing (op : Nat) (x : Args) (sg : Sig) (c : Cur) (s : State) : Prop where
  cur : s.cur = some c
  clear : c.checked = true ∨ gate op x (ownPops op x s) s = s
  form : (c.source s).sig op x = some sg
  once : c.lanes.Nodup
  here : (Tab.find s.wgs c.wg).isSome
  one : ∀ p ∈ s.wgs, p.1 = c.wg → p.2 = s.wgOf c.wg
  hdr : (c.source s).hdr = (s.wgOf c.wg).hdr
  homes : ∀ l ∈ lanesOf s c none, l.hw < 128

/-- No lane of it meets a cause of its form or its registers (R25, R341). -/
structure Clean (op : Nat) (x : Args) (sg : Sig) (c : Cur) (s : State) : Prop extends Issuing op x sg c s where
  good : ∀ l ∈ lanesOf s c x.ctl.pfx, formCause (c.source s) op sg x 0 c l = none

/-- The lanes of the group that a prefix makes active. -/
def actives (s : State) (c : Cur) (x : Args) : List Lane := (lanesOf s c x.ctl.pfx).filter (·.act)

/-- The active lanes of one home warp. -/
def homeActives (s : State) (c : Cur) (x : Args) (h : Nat) : List Lane := (actives s c x).filter (·.hw = h)

/-- The lowest active lane of a home warp. -/
def lowest (s : State) (c : Cur) (x : Args) (h : Nat) : Option Lane := (actives s c x).find? (·.hw = h)

/-- The threads of some lanes change, each by itself; every other thread and every other part of the state is as before. -/
def State.lanesBecome (s : State) (w : Nat) (ls : List Lane) (f : Workgroup → Lane → Thread → Thread) : State :=
  s.modWg w fun g => { g with
    threads := Tab.map (fun tid t => match ls.find? (fun l => l.tid = tid) with | some l => f g l t | none => t) g.threads }

/-- Values written to the vector registers and predicates of a thread. -/
def Thread.take (t : Thread) (ws : List Write) : Thread :=
  ws.foldl (fun t w => match w.dest with
    | .v n => t.writeV n (w.val.setWidth 32)
    | .p n => t.writeP n (w.val.getLsbD 0)
    | .s _ => t) t

/-- An entry of the pending set for an instruction of the group (R24). -/
def Thread.awaits (c : Cur) (dests : List Dest) (src : PendSrc) (bank : Option Nat) (t : Thread) : Thread :=
  { t with pend := t.pend ++ [{ pkt := c.pc.pkt, slot := c.slot, stamp := c.stamp, dests, src, bank }] }

/-- The table bank an `ftab` reads: the one that is active when it issues (R131). -/
def tableBank (g : Workgroup) (op : Nat) : Option Nat := if op = 0x14E then some ((g.act.map (·.active)).getD 0) else none

/-- The operands of a lane that names no channel. -/
def laneInput (g : Workgroup) (op : Nat) (sg : Sig) (x : Args) (l : Lane) : LaneIn :=
  { a := readField op sg x l .a, b := readField op sg x l .b, f := readField op sg x l .f, d := dValue g op sg x l
    mode := modeOf x.ctl.pfx l.t }

/-- No operand names a channel. -/
def noChannel (sg : Sig) (x : Args) : Prop := ∀ k, fieldChan sg x k = none

/-- What a lane of a vector instruction without channels becomes: trapped where its form or its registers stop it (R341);
active, with its result and flags, at once or, of a special function, as a pending result (R24, R98, R113); inactive, with
its destination 0 if Z = 1, else unchanged (R98). -/
def laneBecomes (g : Workgroup) (op : Nat) (sg : Sig) (x : Args) (c : Cur) (out : Lane → LaneOut) (l : Lane) (t : Thread) :
    Thread :=
  match formCause g op sg x 0 c l with
  | some k => t.trap c.pc.pkt c.slot k
  | none =>
    if l.act then
      if isSpecial op then t.awaits c (destRegs sg x) (.ready (regWrites sg x (out l).v (out l).carry) (out l).flags) (tableBank g op)
      else (t.take (regWrites sg x (out l).v (out l).carry)).raise (out l).flags
    else if x.z then t.take (zeroWrites sg x)
    else t

/-- The home warps of a workgroup, and the threads of some lanes, change, each by itself; every other part of the state is as
before. -/
def HomesBecome (s t : State) (w : Nat) (ls : List Lane) (f : Nat → HWarp → HWarp) (u : Lane → Thread → Thread) : Prop :=
  ∃ H : Tab HWarp → Tab HWarp, (∀ m h, Tab.get {} (H m) h = f h (Tab.get {} m h)) ∧
    t = (s.lanesBecome w ls fun _ => u).modWg w fun g => { g with hwarps := H g.hwarps }

/-- The cause a lane of an instruction executed once for each home warp takes, from its form and its registers: its own; or
the first of its home warp's active lanes, when it is active (R341). -/
def homeCause (s : State) (op : Nat) (sg : Sig) (x : Args) (c : Cur) (l : Lane) : Option Cause :=
  let own := formCause (c.source s) op sg x 0 c
  if l.act then sharedCause own (homeActives s c x l.hw) l else own l

/-- What a home warp's threads become under it. -/
def homeTrap (s : State) (op : Nat) (sg : Sig) (x : Args) (c : Cur) (l : Lane) (t : Thread) : Thread :=
  match homeCause s op sg x c l with
  | some k => t.trap c.pc.pkt c.slot k
  | none => t

/-- An outcome whose next state, if there is one, satisfies `P`. -/
def Res.Keeps (P : State → Prop) (r : Res) : Prop :=
  match r with
  | .next t => P t
  | _ => True

end Sys2Proof.Machine
end

