-- ==== Sys2Proof/Certificates/Slice0/Obligations.lean ====
section
/-! DEFINITION. The statements for the provers. Results are written out from the spec's tables in exact integer arithmetic,
apart from the definitions of the model's meanings. -/

namespace Sys2Proof.Machine

/-! ### The words of the statements -/

/-- A number as a result of one or two registers, modulo 2^32 or 2^64. -/
def res32 (z : Int) : LaneOut := { v := (BitVec.ofInt 32 z).setWidth 128 }
def res64 (z : Int) : LaneOut := { v := (BitVec.ofInt 64 z).setWidth 128 }
/-- A predicate as a result. -/
def resP (b : Bool) : LaneOut := { v := if b then 1 else 0 }
/-- A result bit by bit. -/
def resBits (n : Nat) (f : Nat → Bool) : LaneOut := { v := (BitVec.ofBoolListLE ((List.range n).map f)).setWidth 128 }

/-- The operands of a lane as numbers: signed and unsigned, of 32 and of 64 bits. -/
def LaneIn.sa (i : LaneIn) : Int := i.a32.toInt
def LaneIn.sb (i : LaneIn) : Int := i.b32.toInt
def LaneIn.na (i : LaneIn) : Nat := i.a32.toNat
def LaneIn.nb (i : LaneIn) : Nat := i.b32.toNat
def LaneIn.sa64 (i : LaneIn) : Int := i.a64.toInt
def LaneIn.sb64 (i : LaneIn) : Int := i.b64.toInt
def LaneIn.na64 (i : LaneIn) : Nat := i.a64.toNat
def LaneIn.nb64 (i : LaneIn) : Nat := i.b64.toNat

/-- A number held between two bounds. -/
def between (lo hi z : Int) : Int := if z < lo then lo else if hi < z then hi else z
/-- The low `k` bits of a number as a signed one. -/
def signedLow (k n : Nat) : Int := if 2 ^ (k - 1) ≤ n % 2 ^ k then (n % 2 ^ k : Int) - 2 ^ k else n % 2 ^ k
/-- Quotient and remainder of R79 and R101 at width n. -/
def quotS (a b : Int) : Int := if b = 0 then -1 else a.tdiv b
def quotN (n a b : Nat) : Int := if b = 0 then 2 ^ n - 1 else (a / b : Nat)
def restS (a b : Int) : Int := if b = 0 then a else a.tmod b
def restN (a b : Nat) : Int := if b = 0 then a else (a % b : Nat)

/-- A vector instruction: its opcode, its constructor, and what it computes in a lane. -/
structure VRow where
  op : Nat
  instr : Args → Instr
  fn : LaneIn → LaneOut

/-- The instructions of some rows complete: each active lane receives the result of its row, and the others are left as
R98 says. -/
def Computes (rows : List VRow) : Prop :=
  ∀ r ∈ rows, ∀ (x : Args) (sg : Sig) (c : Cur) (s : State), Issuing r.op x sg c s → noChannel sg x →
    exec (r.instr x) s = .next (s.lanesBecome c.wg (lanesOf s c x.ctl.pfx) fun g =>
      laneBecomes g r.op sg x c fun l => r.fn (laneInput g r.op sg x l))

/-! ### Vector integer arithmetic (R101) -/

noncomputable def arithmeticRows : List VRow := [
  ⟨0x060, .vaddS32, fun i => res32 (i.sa + i.sb)⟩,
  ⟨0x061, .vaddS64, fun i => res64 (i.sa64 + i.sb64)⟩,
  ⟨0x062, .vaddSatS32, fun i => res32 (between (-2 ^ 31) (2 ^ 31 - 1) (i.sa + i.sb))⟩,
  ⟨0x063, .vaddSatN32, fun i => res32 (between 0 (2 ^ 32 - 1) (i.na + i.nb))⟩,
  ⟨0x064, .vsubS32, fun i => res32 (i.sa - i.sb)⟩,
  ⟨0x065, .vsubS64, fun i => res64 (i.sa64 - i.sb64)⟩,
  ⟨0x066, .vsubSatS32, fun i => res32 (between (-2 ^ 31) (2 ^ 31 - 1) (i.sa - i.sb))⟩,
  ⟨0x067, .vsubSatN32, fun i => res32 (between 0 (2 ^ 32 - 1) (i.na - i.nb))⟩,
  ⟨0x068, .vmulS32, fun i => res32 (i.sa * i.sb)⟩,
  ⟨0x069, .vmulS64, fun i => res64 (i.sa64 * i.sb64)⟩,
  ⟨0x06A, .vmulhS32, fun i => res32 (i.sa * i.sb / 2 ^ 32)⟩,
  ⟨0x06B, .vmulhN32, fun i => res32 (i.na * i.nb / 2 ^ 32)⟩,
  ⟨0x06C, .vmadS32, fun i => res32 (i.sa * i.sb + i.f32.toInt)⟩,
  ⟨0x06D, .vmadS64, fun i => res64 (i.sa64 * i.sb64 + i.f64.toInt)⟩,
  ⟨0x06E, .vadcN32, fun i =>
    { res32 (i.na + i.nb + i.pf.toNat) with carry := decide (2 ^ 32 ≤ i.na + i.nb + i.pf.toNat) }⟩,
  ⟨0x06F, .vsbcN32, fun i =>
    { res32 (i.na - i.nb - i.pf.toNat) with carry := decide (i.na < i.nb + i.pf.toNat) }⟩,
  ⟨0x070, .vdivS32, fun i => res32 (quotS i.sa i.sb)⟩,
  ⟨0x071, .vdivN32, fun i => res32 (quotN 32 i.na i.nb)⟩,
  ⟨0x072, .vdivS64, fun i => res64 (quotS i.sa64 i.sb64)⟩,
  ⟨0x073, .vdivN64, fun i => res64 (quotN 64 i.na64 i.nb64)⟩,
  ⟨0x074, .vremS32, fun i => res32 (restS i.sa i.sb)⟩,
  ⟨0x075, .vremN32, fun i => res32 (restN i.na i.nb)⟩,
  ⟨0x076, .vremS64, fun i => res64 (restS i.sa64 i.sb64)⟩,
  ⟨0x077, .vremN64, fun i => res64 (restN i.na64 i.nb64)⟩,
  ⟨0x078, .vabsS32, fun i => res32 |i.sb|⟩,
  ⟨0x079, .vabsS64, fun i => res64 |i.sb64|⟩,
  ⟨0x07A, .vnegS32, fun i => res32 (-i.sb)⟩,
  ⟨0x07B, .vnegS64, fun i => res64 (-i.sb64)⟩,
  ⟨0x07C, .vminS32, fun i => res32 (min i.sa i.sb)⟩,
  ⟨0x07D, .vminN32, fun i => res32 (min i.na i.nb : Nat)⟩,
  ⟨0x07E, .vmaxS32, fun i => res32 (max i.sa i.sb)⟩,
  ⟨0x07F, .vmaxN32, fun i => res32 (max i.na i.nb : Nat)⟩,
  ⟨0x080, .vminS64, fun i => res64 (min i.sa64 i.sb64)⟩,
  ⟨0x081, .vminN64, fun i => res64 (min i.na64 i.nb64 : Nat)⟩,
  ⟨0x082, .vmaxS64, fun i => res64 (max i.sa64 i.sb64)⟩,
  ⟨0x083, .vmaxN64, fun i => res64 (max i.na64 i.nb64 : Nat)⟩,
  ⟨0x0A0, .vaddS32I, fun i => res32 (i.sa + i.sb)⟩]

/-! ### Logic, shifts and moves (R103) -/

/-- The count of a shift: the low five or six bits of B. -/
def LaneIn.c5 (i : LaneIn) : Nat := i.nb % 32
def LaneIn.c6 (i : LaneIn) : Nat := i.nb % 64

def shlBits (n c : Nat) (a : Nat → Bool) : LaneOut := resBits n fun k => decide (c ≤ k) && a (k - c)
def shrBits (n c : Nat) (a : Nat → Bool) : LaneOut := resBits n fun k => decide (k + c < n) && a (k + c)
def sraBits (n c : Nat) (a : Nat → Bool) : LaneOut := resBits n fun k => a (min (k + c) (n - 1))
def rotBits (n c : Nat) (a : Nat → Bool) : LaneOut := resBits n fun k => a ((k + (n - c)) % n)
/-- Bits of A and B. -/
def LaneIn.ab (i : LaneIn) (k : Nat) : Bool := i.a.getLsbD k
def LaneIn.bb (i : LaneIn) (k : Nat) : Bool := i.b.getLsbD k

noncomputable def logicRows : List VRow := [
  ⟨0x084, .vandB32, fun i => resBits 32 fun k => i.ab k && i.bb k⟩,
  ⟨0x085, .vorB32, fun i => resBits 32 fun k => i.ab k || i.bb k⟩,
  ⟨0x086, .vxorB32, fun i => resBits 32 fun k => i.ab k != i.bb k⟩,
  ⟨0x087, .vandnB32, fun i => resBits 32 fun k => i.ab k && !i.bb k⟩,
  ⟨0x088, .vandB64, fun i => resBits 64 fun k => i.ab k && i.bb k⟩,
  ⟨0x089, .vorB64, fun i => resBits 64 fun k => i.ab k || i.bb k⟩,
  ⟨0x08A, .vxorB64, fun i => resBits 64 fun k => i.ab k != i.bb k⟩,
  ⟨0x08B, .vandnB64, fun i => resBits 64 fun k => i.ab k && !i.bb k⟩,
  ⟨0x08C, .vshlB32, fun i => shlBits 32 i.c5 i.ab⟩,
  ⟨0x08D, .vshrB32, fun i => shrBits 32 i.c5 i.ab⟩,
  ⟨0x08E, .vsraB32, fun i => sraBits 32 i.c5 i.ab⟩,
  ⟨0x08F, .vrotB32, fun i => rotBits 32 i.c5 i.ab⟩,
  ⟨0x090, .vshlB64, fun i => shlBits 64 i.c6 i.ab⟩,
  ⟨0x091, .vshrB64, fun i => shrBits 64 i.c6 i.ab⟩,
  ⟨0x092, .vsraB64, fun i => sraBits 64 i.c6 i.ab⟩,
  ⟨0x093, .vrotB64, fun i => rotBits 64 i.c6 i.ab⟩,
  ⟨0x094, .vclzB32, fun i => res32 ((List.range 32).countP fun k => decide (i.nb < 2 ^ k))⟩,
  ⟨0x095, .vclzB64, fun i => res32 ((List.range 64).countP fun k => decide (i.nb64 < 2 ^ k))⟩,
  ⟨0x096, .vpopcB32, fun i => res32 ((List.range 32).countP i.bb)⟩,
  ⟨0x097, .vpopcB64, fun i => res32 ((List.range 64).countP i.bb)⟩,
  ⟨0x098, .vbrevB32, fun i => resBits 32 fun k => i.bb (31 - k)⟩,
  ⟨0x099, .vbrevB64, fun i => resBits 64 fun k => i.bb (63 - k)⟩,
  ⟨0x09D, .vleaB64, fun i => res64 (i.na64 + i.sb)⟩,
  ⟨0x09E, .vmovB32, fun i => res32 i.nb⟩,
  ⟨0x09F, .vmovB64, fun i => res64 i.nb64⟩,
  ⟨0x0A1, .vandB32I, fun i => resBits 32 fun k => i.ab k && i.bb k⟩,
  ⟨0x0A2, .vorB32I, fun i => resBits 32 fun k => i.ab k || i.bb k⟩,
  ⟨0x0A3, .vxorB32I, fun i => resBits 32 fun k => i.ab k != i.bb k⟩,
  ⟨0x0A4, .vshlB32I, fun i => shlBits 32 i.c5 i.ab⟩,
  ⟨0x0A5, .vshrB32I, fun i => shrBits 32 i.c5 i.ab⟩,
  ⟨0x0A6, .vsraB32I, fun i => sraBits 32 i.c5 i.ab⟩,
  ⟨0x0A7, .vrotB32I, fun i => rotBits 32 i.c5 i.ab⟩,
  ⟨0x0A8, .vliB32, fun i => res32 i.nb⟩]

/-! ### Bit fields, conversions, select, compare and predicate logic (R104 to R108) -/

/-- Position and length of a field (R104). -/
def LaneIn.pos (i : LaneIn) : Nat := i.nb % 32
def LaneIn.len (i : LaneIn) : Nat := min (i.nb / 256 % 64) (32 - i.pos)

noncomputable def fieldRows : List VRow := [
  ⟨0x09A, .vbfeS32, fun i => if i.len = 0 then res32 0 else res32 (signedLow i.len (i.na / 2 ^ i.pos))⟩,
  ⟨0x09B, .vbfeN32, fun i => res32 (i.na / 2 ^ i.pos % 2 ^ i.len : Nat)⟩,
  ⟨0x09C, .vbfiB32, fun i => resBits 32 fun k =>
    if i.pos ≤ k ∧ k < i.pos + i.len then i.ab (k - i.pos) else i.d.getLsbD k⟩,
  ⟨0x0A9, .vselB32, fun i => if i.pf then res32 i.na else res32 i.nb⟩,
  ⟨0x0AA, .vselB64, fun i => if i.pf then res64 i.na64 else res64 i.nb64⟩,
  ⟨0x0AB, .vcvtS32S8, fun i => res32 (signedLow 8 i.nb)⟩,
  ⟨0x0AC, .vcvtS32S16, fun i => res32 (signedLow 16 i.nb)⟩,
  ⟨0x0AD, .vcvtN32N8, fun i => res32 (i.nb % 2 ^ 8 : Nat)⟩,
  ⟨0x0AE, .vcvtN32N16, fun i => res32 (i.nb % 2 ^ 16 : Nat)⟩,
  ⟨0x0AF, .vcvtS64S32, fun i => res64 i.sb⟩,
  ⟨0x0B0, .vcvtN64N32, fun i => res64 i.nb⟩,
  ⟨0x0B1, .vcvtS8S32, fun i => res32 (between (-128) 127 i.sb)⟩,
  ⟨0x0B2, .vcvtS16S32, fun i => res32 (between (-32768) 32767 i.sb)⟩,
  ⟨0x0B3, .vcvtN8N32, fun i => res32 (between 0 255 i.nb)⟩,
  ⟨0x0B4, .vcvtN16N32, fun i => res32 (between 0 65535 i.nb)⟩,
  ⟨0x0B5, .vcvtS32S64, fun i => res32 (between (-2 ^ 31) (2 ^ 31 - 1) i.sb64)⟩,
  ⟨0x0B6, .vcvtN32N64, fun i => res32 (between 0 (2 ^ 32 - 1) i.nb64)⟩,
  ⟨0x0B7, .vcvtS32N32, fun i => res32 (min i.nb (2 ^ 31 - 1) : Nat)⟩,
  ⟨0x0B8, .vcvtN32S32, fun i => res32 (max i.sb 0)⟩]

noncomputable def compareRows : List VRow := [
  ⟨0x0C0, .vcmpEqB32, fun i => resP (i.na == i.nb)⟩,
  ⟨0x0C1, .vcmpNeB32, fun i => resP (i.na != i.nb)⟩,
  ⟨0x0C2, .vcmpLtS32, fun i => resP (decide (i.sa < i.sb))⟩,
  ⟨0x0C3, .vcmpLeS32, fun i => resP (decide (i.sa ≤ i.sb))⟩,
  ⟨0x0C4, .vcmpLtN32, fun i => resP (decide (i.na < i.nb))⟩,
  ⟨0x0C5, .vcmpLeN32, fun i => resP (decide (i.na ≤ i.nb))⟩,
  ⟨0x0C6, .vcmpEqB64, fun i => resP (i.na64 == i.nb64)⟩,
  ⟨0x0C7, .vcmpNeB64, fun i => resP (i.na64 != i.nb64)⟩,
  ⟨0x0C8, .vcmpLtS64, fun i => resP (decide (i.sa64 < i.sb64))⟩,
  ⟨0x0C9, .vcmpLeS64, fun i => resP (decide (i.sa64 ≤ i.sb64))⟩,
  ⟨0x0CA, .vcmpLtN64, fun i => resP (decide (i.na64 < i.nb64))⟩,
  ⟨0x0CB, .vcmpLeN64, fun i => resP (decide (i.na64 ≤ i.nb64))⟩,
  ⟨0x0CD, .vcmpEqB32I, fun i => resP (i.na == i.nb)⟩,
  ⟨0x0CE, .vcmpLtS32I, fun i => resP (decide (i.sa < i.sb))⟩,
  ⟨0x0CF, .vcmpLtN32I, fun i => resP (decide (i.na < i.nb))⟩]

/-- The sixteen truth tables of `plop`. -/
noncomputable def plopRows : List VRow := (List.finRange 16).map fun t =>
  ⟨0x0D0 + t.val, .plop (BitVec.ofFin t), fun i => resP (t.val / 2 ^ (2 * (i.ab 0).toNat + (i.bb 0).toNat) % 2 == 1)⟩

/-! ### Cross-lane operations (R110, R111) -/

/-- The participants of an active lane, in ascending home lane order: the active lanes of its home warp that were released
with it, or whose bit in the mask is set when its own is; else the lane alone (R110). A lane with a cause of its form does
not take part. -/
def participants (s : State) (c : Cur) (op : Nat) (sg : Sig) (x : Args) (l : Lane) : List Lane :=
  let on (m : Lane) : Bool := m.hw == l.hw && (c.gathered || m.h.bitK (x.fld .f).toNat m.lane)
  (actives s c x).filter fun m =>
    (formCause (s.wgOf c.wg) op sg x 0 c m).isNone && (if on l then on m else m.tid == l.tid)

/-- A cross-lane instruction: its opcode, its constructor, and the result from the participants' home lanes and operands,
the own rank and the own operands. -/
structure CrossRow where
  op : Nat
  instr : Args → Instr
  fn : List (Nat × LaneIn) → Nat → LaneIn → W128

/-- a(j), or the own value beyond the participants. -/
def valueOf (P : List (Nat × LaneIn)) (own : LaneIn) (j : Nat) : W128 := if h : j < P.length then P[j].2.a else own.a
/-- A reduction at width n in rank order, of at least one value. -/
def reduce (n : Nat) (f : BitVec n → BitVec n → BitVec n) (vs : List W128) : W128 :=
  match vs.map (·.setWidth n) with
  | [] => 0
  | v :: rest => (rest.foldl f v).setWidth 128
def leastS {n : Nat} (a b : BitVec n) : BitVec n := if a.toInt ≤ b.toInt then a else b
def mostS {n : Nat} (a b : BitVec n) : BitVec n := if a.toInt ≤ b.toInt then b else a
def leastN {n : Nat} (a b : BitVec n) : BitVec n := if a.toNat ≤ b.toNat then a else b
def mostN {n : Nat} (a b : BitVec n) : BitVec n := if a.toNat ≤ b.toNat then b else a
/-- A values in rank order. -/
def avals (P : List (Nat × LaneIn)) : List W128 := P.map (·.2.a)
def red (n : Nat) (f : BitVec n → BitVec n → BitVec n) : List (Nat × LaneIn) → Nat → LaneIn → W128 :=
  fun P _ _ => reduce n f (avals P)
def scan (n : Nat) (f : BitVec n → BitVec n → BitVec n) : List (Nat × LaneIn) → Nat → LaneIn → W128 :=
  fun P r _ => reduce n f ((avals P).take (r + 1))
def scanBefore (n : Nat) : List (Nat × LaneIn) → Nat → LaneIn → W128 :=
  fun P r _ => reduce n (· + ·) ((avals P).take r)
def shuffle (j : List (Nat × LaneIn) → Nat → LaneIn → Option Nat) : List (Nat × LaneIn) → Nat → LaneIn → W128 :=
  fun P r i => match j P r i with | some k => valueOf P i k | none => i.a
def vote (f : List Bool → Bool) : List (Nat × LaneIn) → Nat → LaneIn → W128 :=
  fun P _ _ => if f (P.map fun p => p.2.a.getLsbD 0) then 1 else 0
def matching : List (Nat × LaneIn) → Nat → LaneIn → W128 :=
  fun P _ i => BitVec.ofNat 128 (((P.find? fun p => p.2.a == i.a).map (·.1)).getD 0)

noncomputable def crossRows : List CrossRow := [
  ⟨0x0E0, .xshfB32, shuffle fun _ _ i => some i.nb⟩,
  ⟨0x0E1, .xshuB32, shuffle fun _ r i => if i.nb ≤ r then some (r - i.nb) else none⟩,
  ⟨0x0E2, .xshdB32, shuffle fun _ r i => some (r + i.nb)⟩,
  ⟨0x0E3, .xbflB32, shuffle fun _ r i => some (r ^^^ i.nb)⟩,
  ⟨0x0E4, .xvoteAny, vote (·.any id)⟩,
  ⟨0x0E5, .xvoteAll, vote (·.all id)⟩,
  ⟨0x0E7, .xmatchB32, matching⟩,
  ⟨0x0E8, .xbcastB32, shuffle fun P _ _ => (P.head?).map (·.2.nb)⟩,
  ⟨0x0E9, .xshfB64, shuffle fun _ _ i => some i.nb⟩,
  ⟨0x0EA, .xbcastB64, shuffle fun P _ _ => (P.head?).map (·.2.nb)⟩,
  ⟨0x0EB, .xmatchB64, matching⟩,
  ⟨0x0F0, .xredAddS32, red 32 (· + ·)⟩,
  ⟨0x0F1, .xredMinS32, red 32 leastS⟩,
  ⟨0x0F2, .xredMaxS32, red 32 mostS⟩,
  ⟨0x0F3, .xredMinN32, red 32 leastN⟩,
  ⟨0x0F4, .xredMaxN32, red 32 mostN⟩,
  ⟨0x0F5, .xredAndB32, red 32 (· &&& ·)⟩,
  ⟨0x0F6, .xredOrB32, red 32 (· ||| ·)⟩,
  ⟨0x0F7, .xredXorB32, red 32 (· ^^^ ·)⟩,
  ⟨0x0F8, .xredAddS64, red 64 (· + ·)⟩,
  ⟨0x0F9, .xscanAddS32, scan 32 (· + ·)⟩,
  ⟨0x0FA, .xscanAddxS32, scanBefore 32⟩,
  ⟨0x0FB, .xscanMinS32, scan 32 leastS⟩,
  ⟨0x0FC, .xscanMaxS32, scan 32 mostS⟩,
  ⟨0x0FD, .xscanOrB32, scan 32 (· ||| ·)⟩,
  ⟨0x0FE, .xscanAddxS64, scanBefore 64⟩]

/-! ### Floating point (R117 to R122) -/

/-- One 32-bit element, or two of 16 bits whose flags join (R113). -/
def oneElem (f : Nat → Nat → Nat → Nat × Flags) (i : LaneIn) : LaneOut :=
  { v := BitVec.ofNat 128 (f i.na i.nb i.f32.toNat).1, flags := (f i.na i.nb i.f32.toNat).2 }
def twoElems (f : Nat → Nat → Nat → Nat × Flags) (i : LaneIn) : LaneOut :=
  let lo := f (i.na % 2 ^ 16) (i.nb % 2 ^ 16) (i.f32.toNat % 2 ^ 16)
  let hi := f (i.na / 2 ^ 16) (i.nb / 2 ^ 16) (i.f32.toNat / 2 ^ 16)
  { v := BitVec.ofNat 128 (lo.1 + 2 ^ 16 * hi.1), flags := lo.2 ||| hi.2 }

/-- The values added and multiplied, exactly, then one rounding under the mode. -/
def fmaOf (f : FloatFmt) (m : Mode) (a b c : Nat) : Nat × Flags := fusedSum f m [(f.decode a, f.decode b)] [f.decode c]
def addOf (f : FloatFmt) (m : Mode) (a b _c : Nat) : Nat × Flags := fusedSum f m [] [f.decode a, f.decode b]
def subOf (f : FloatFmt) (m : Mode) (a b _c : Nat) : Nat × Flags := fusedSum f m [] [f.decode a, (f.decode b).neg]
def mulOf (f : FloatFmt) (m : Mode) (a b _c : Nat) : Nat × Flags := fusedSum f m [(f.decode a, f.decode b)] []

/-- R117: rounded to an integral value. -/
def integralOf (f : FloatFmt) (m : Mode) (_a b _c : Nat) : Nat × Flags :=
  match f.decode b with
  | .nan s => (f.nanBits, if s then fInvalid else 0)
  | .inf _ => (b, 0)
  | .zero _ => (b, 0)
  | .fin n k e =>
    let r := roundToInt m n k e
    (if r.1 = 0 then f.place n 0 else (convert f .rne (.ofInt r.1)).1, if r.2 then fInexact else 0)
def scaledOf (f : FloatFmt) (w : Nat) (m : Mode) (a b _c : Nat) : Nat × Flags :=
  convert f m ((f.decode a).scale (BitVec.ofNat w b).toInt)
/-- R119: the exponent of a value. -/
def exponentOf (f : FloatFmt) (_a b _c : Nat) : Nat × Flags :=
  match f.decode b with
  | .nan s => (f.nanBits, if s then fInvalid else 0)
  | .inf _ => (f.place false (f.infCode.getD 0), 0)
  | .zero _ => (f.place true (f.infCode.getD 0), fDivZero)
  | .fin _ k e => ((convert f .rne (.ofInt (ilog2 k e))).1, 0)
/-- R118: the lesser or the greater of two elements, −0 below +0; a NaN is passed over, or (`strict`) taken. -/
def extremeOf (f : FloatFmt) (greater strict : Bool) (a b _c : Nat) : Nat × Flags :=
  let x := f.decode a
  let y := f.decode b
  let below (u v : FVal) : Bool := u.cmp v == -1 || (u == .zero true && v == .zero false)
  let fl : Flags := if x.isSignalling || y.isSignalling then fInvalid else 0
  if (x.isNan && y.isNan) || (strict && (x.isNan || y.isNan)) then (f.nanBits, fl)
  else if x.isNan then (b, fl)
  else if y.isNan then (a, fl)
  else (if (if greater then below x y else below y x) then b else a, fl)
/-- R119: sign and class of a pattern of n bits. -/
def absOf (n : Nat) (_a b _c : Nat) : Nat × Flags := (b % 2 ^ (n - 1), 0)
def negOf (n : Nat) (_a b _c : Nat) : Nat × Flags := (if b < 2 ^ (n - 1) then b + 2 ^ (n - 1) else b - 2 ^ (n - 1), 0)
def copySignOf (n : Nat) (a b _c : Nat) : Nat × Flags := (a % 2 ^ (n - 1) + (b / 2 ^ (n - 1)) * 2 ^ (n - 1), 0)
/-- The class mask of a pattern with `t` fraction bits in `n` bits. -/
def classOf (t n : Nat) (_a b _c : Nat) : Nat × Flags :=
  let neg := 2 ^ (n - 1) ≤ b
  let exp := b % 2 ^ (n - 1) / 2 ^ t
  let frac := b % 2 ^ t
  let top := 2 ^ (n - 1 - t) - 1
  let i := if exp = top ∧ frac ≠ 0 then (if frac < 2 ^ (t - 1) then 0 else 1)
    else if exp = top then (if neg then 2 else 9)
    else if exp = 0 ∧ frac = 0 then (if neg then 5 else 6)
    else if exp = 0 then (if neg then 4 else 7)
    else if neg then 3 else 8
  (2 ^ i, 0)

/-- The arithmetic of one format: opcodes from `base`, its constructors in opcode order. -/
def floatRows (base t n : Nat) (f : FloatFmt) (elems : (Nat → Nat → Nat → Nat × Flags) → LaneIn → LaneOut)
    (cs : List (Args → Instr)) : List VRow :=
  (cs.zip [
    fun i => elems (fmaOf f i.mode) i, fun i => elems (addOf f i.mode) i, fun i => elems (subOf f i.mode) i,
    fun i => elems (mulOf f i.mode) i, elems (extremeOf f false false), elems (extremeOf f true false),
    elems (extremeOf f false true), elems (extremeOf f true true), elems (absOf n), elems (negOf n), elems (copySignOf n),
    elems (classOf t n), fun i => elems (integralOf f i.mode) i, fun i => elems (scaledOf f n i.mode) i,
    elems (exponentOf f)]).mapIdx fun k p => ⟨base + k, p.1, p.2⟩

noncomputable def floatArithmeticRows : List VRow :=
  floatRows 0x100 23 32 fp32 oneElem [.ffmaF32, .faddF32, .fsubF32, .fmulF32, .fminF32, .fmaxF32, .fminnF32, .fmaxnF32,
    .fabsF32, .fnegF32, .fcpsF32, .fclassF32, .frndF32, .fsclF32, .fgetxF32] ++
  floatRows 0x110 10 16 fp16 twoElems [.ffmaH2, .faddH2, .fsubH2, .fmulH2, .fminH2, .fmaxH2, .fminnH2, .fmaxnH2,
    .fabsH2, .fnegH2, .fcpsH2, .fclassH2, .frndH2, .fsclH2, .fgetxH2] ++
  floatRows 0x120 7 16 bf16 twoElems [.ffmaBh2, .faddBh2, .fsubBh2, .fmulBh2, .fminBh2, .fmaxBh2, .fminnBh2, .fmaxnBh2,
    .fabsBh2, .fnegBh2, .fcpsBh2, .fclassBh2, .frndBh2, .fsclBh2, .fgetxBh2]

/-- R120: a dot product over two elements of a 16-bit format, rounded once. -/
def dot2Of (f : FloatFmt) (i : LaneIn) : LaneOut :=
  let r := fusedSum fp32 i.mode
    [(f.decode (i.na % 2 ^ 16), f.decode (i.nb % 2 ^ 16)), (f.decode (i.na / 2 ^ 16), f.decode (i.nb / 2 ^ 16))]
    [fp32.decode i.f32.toNat]
  { v := BitVec.ofNat 128 r.1, flags := r.2 }

/-- R121: a compare; `quiet` ones raise invalid for a signalling NaN only. -/
def fcompare (quiet : Bool) (rel : FVal → FVal → Bool) (i : LaneIn) : LaneOut :=
  let a := fp32.decode i.na
  let b := fp32.decode i.nb
  { resP (rel a b) with
    flags := if (if quiet then a.isSignalling || b.isSignalling else a.isNan || b.isNan) then fInvalid else 0 }
def unordered (a b : FVal) : Bool := a.isNan || b.isNan

/-- R66: to an integer between two bounds, at width n; and from an integer. -/
def toIntOf (n : Nat) (lo hi : Int) (i : LaneIn) : LaneOut :=
  let r := toInteger i.mode lo hi (fp32.decode i.nb)
  { v := (BitVec.ofInt n r.1).setWidth 128, flags := r.2 }
def fromIntOf (z : Int) (m : Mode) : LaneOut :=
  { v := BitVec.ofNat 128 (convert fp32 m (.ofInt z)).1, flags := (convert fp32 m (.ofInt z)).2 }
/-- R122: conversions among floating-point formats. -/
def widenOf (f : FloatFmt) (i : LaneIn) : LaneOut :=
  { v := BitVec.ofNat 128 (convert fp32 .rne (f.decode (i.nb % 2 ^ 16))).1
    flags := (convert fp32 .rne (f.decode (i.nb % 2 ^ 16))).2 }
def packOf (f : FloatFmt) (i : LaneIn) : LaneOut :=
  { v := BitVec.ofNat 128 ((convert f i.mode (fp32.decode i.na)).1 + 2 ^ 16 * (convert f i.mode (fp32.decode i.nb)).1)
    flags := (convert f i.mode (fp32.decode i.na)).2 ||| (convert f i.mode (fp32.decode i.nb)).2 }

noncomputable def floatOtherRows : List VRow := [
  ⟨0x10F, .fdot2F32H2, dot2Of fp16⟩,
  ⟨0x11F, .fdot2F32Bh2, dot2Of bf16⟩,
  ⟨0x130, .fcmpEqF32, fcompare true fun a b => !unordered a b && a.cmp b == 0⟩,
  ⟨0x131, .fcmpNeF32, fcompare true fun a b => unordered a b || a.cmp b != 0⟩,
  ⟨0x132, .fcmpLtF32, fcompare false fun a b => !unordered a b && decide (a.cmp b < 0)⟩,
  ⟨0x133, .fcmpLeF32, fcompare false fun a b => !unordered a b && decide (a.cmp b ≤ 0)⟩,
  ⟨0x134, .fcmpUnF32, fcompare true unordered⟩,
  ⟨0x135, .fcmpOrdF32, fcompare true fun a b => !unordered a b⟩,
  ⟨0x136, .fcvtF32F16, widenOf fp16⟩,
  ⟨0x137, .fcvtF32Bf16, widenOf bf16⟩,
  ⟨0x138, .fcvtH2F32, packOf fp16⟩,
  ⟨0x139, .fcvtBh2F32, packOf bf16⟩,
  ⟨0x13C, .fcvtiS32F32, toIntOf 32 (-2 ^ 31) (2 ^ 31 - 1)⟩,
  ⟨0x13D, .fcvtiN32F32, toIntOf 32 0 (2 ^ 32 - 1)⟩,
  ⟨0x13E, .fcvtfF32S32, fun i => fromIntOf i.sb i.mode⟩,
  ⟨0x13F, .fcvtfF32N32, fun i => fromIntOf i.nb i.mode⟩,
  ⟨0x140, .fcvtiS64F32, toIntOf 64 (-2 ^ 63) (2 ^ 63 - 1)⟩,
  ⟨0x141, .fcvtiN64F32, toIntOf 64 0 (2 ^ 64 - 1)⟩,
  ⟨0x142, .fcvtfF32S64, fun i => fromIntOf i.sb64 i.mode⟩,
  ⟨0x143, .fcvtfF32N64, fun i => fromIntOf i.nb64 i.mode⟩]

/-! ### Special functions, formats and the table (R123 to R131) -/

noncomputable def specialRows : List VRow := [
  ⟨0x146, .fsqrtF32, laneFsqrtF32⟩, ⟨0x147, .frcpF32, laneFrcpF32⟩, ⟨0x148, .frsqF32, laneFrsqF32⟩,
  ⟨0x149, .fex2F32, laneFex2F32⟩, ⟨0x14A, .flg2F32, laneFlg2F32⟩, ⟨0x14B, .fsinF32, laneFsinF32⟩,
  ⟨0x14C, .fcosF32, laneFcosF32⟩, ⟨0x14D, .ftnhF32, laneFtnhF32⟩]

/-- A result that is one pattern with its flags. -/
def patternOut (v : Nat) (fl : Flags) : LaneOut := { v := BitVec.ofNat 128 v, flags := fl }
/-- A row of R127's special cases: for −∞, +∞, −0, +0 and a number below 0. -/
structure SpecialCases where
  fn : LaneIn → LaneOut
  negInf : LaneOut
  posInf : LaneOut
  negZero : LaneOut
  posZero : LaneOut
  below : Option LaneOut

def qnan : LaneOut := patternOut 0x7FC00000 fInvalid

def specialCases : List SpecialCases := [
  ⟨laneFsqrtF32, qnan, patternOut 0x7F800000 0, patternOut 0x80000000 0, patternOut 0 0, some qnan⟩,
  ⟨laneFrcpF32, patternOut 0x80000000 0, patternOut 0 0, patternOut 0xFF800000 fDivZero, patternOut 0x7F800000 fDivZero, none⟩,
  ⟨laneFrsqF32, qnan, patternOut 0 0, patternOut 0xFF800000 fDivZero, patternOut 0x7F800000 fDivZero, some qnan⟩,
  ⟨laneFex2F32, patternOut 0 0, patternOut 0x7F800000 0, patternOut 0x3F800000 0, patternOut 0x3F800000 0, none⟩,
  ⟨laneFlg2F32, qnan, patternOut 0x7F800000 0, patternOut 0xFF800000 fDivZero, patternOut 0xFF800000 fDivZero, some qnan⟩,
  ⟨laneFsinF32, qnan, qnan, patternOut 0x80000000 0, patternOut 0 0, none⟩,
  ⟨laneFcosF32, qnan, qnan, patternOut 0x3F800000 0, patternOut 0x3F800000 0, none⟩,
  ⟨laneFtnhF32, patternOut 0xBF800000 0, patternOut 0x3F800000 0, patternOut 0x80000000 0, patternOut 0 0, none⟩]

/-- The 8-bit elements of a format, and their exact products with one addend. -/
def dot4Of (g : FloatFmt) (i : LaneIn) : LaneOut :=
  let e (n k : Nat) : FVal := g.decode (n / 2 ^ (8 * k) % 256)
  let r := fusedSum fp32 i.mode ((List.range 4).map fun k => (e i.na k, e i.nb k)) [fp32.decode i.d32.toNat]
  patternOut r.1 r.2
def widen8Of (g : FloatFmt) (i : LaneIn) : LaneOut := patternOut (convert fp32 .rne (g.decode (i.na % 256))).1 0
def narrow8Of (g : FloatFmt) (i : LaneIn) : LaneOut :=
  patternOut (convert g i.mode (fp32.decode i.na)).1 (convert g i.mode (fp32.decode i.na)).2
/-- R126: four elements times the scale; NaNs where the scale byte is 0xFF. -/
def dequantOf (g : FloatFmt) (i : LaneIn) : LaneOut :=
  let s : Nat := i.na64 / 2 ^ 32 % 256
  let r (k : Nat) : Nat × Flags :=
    if s = 255 then (0x7FC00000, 0)
    else convert fp32 i.mode ((g.decode (i.na / 2 ^ (8 * k) % 256)).scale ((s : Int) - 127))
  { v := BitVec.ofNat 128 ((r 0).1 + (r 1).1 * 2 ^ 32 + (r 2).1 * 2 ^ 64 + (r 3).1 * 2 ^ 96)
    flags := (r 0).2 ||| (r 1).2 ||| (r 2).2 ||| (r 3).2 }

/-- An instruction with a format word: the operand that holds it, and its result under the format. -/
structure FmtRow where
  op : Nat
  instr : Args → Instr
  field : Fld
  word : LaneIn → W32
  fn : FloatFmt → LaneIn → LaneOut

noncomputable def fmtRows : List FmtRow := [
  ⟨0x12F, .fdot4F32Q8, .f, LaneIn.f32, dot4Of⟩, ⟨0x13A, .fcvtF32Q8, .b, LaneIn.b32, widen8Of⟩,
  ⟨0x13B, .fcvtQ8F32, .b, LaneIn.b32, narrow8Of⟩, ⟨0x145, .fdqntF32Q8, .b, LaneIn.b32, dequantOf⟩]

/-- The lanes of an octet that take part in an `fqnt`. -/
def octetParts (s : State) (c : Cur) (sg : Sig) (x : Args) (l : Lane) : List Lane :=
  (actives s c x).filter fun m =>
    (formCause (s.wgOf c.wg) 0x144 sg x 0 c m).isNone && octetOf m.tid == octetOf l.tid

/-- R125: the exponent byte of the block, and the four quantised elements of a lane with it. -/
def quantOf (f : FloatFmt) (mode : Mode) (ps : List LaneIn) (own : LaneIn) : LaneOut :=
  let elems (i : LaneIn) : List FVal := (List.range 4).map fun k => fp32.decode (i.a.toNat / 2 ^ (32 * k) % 2 ^ 32)
  let e := blockExp f (ps.flatMap elems)
  let q (k : Nat) : Nat × Flags := quantElem f mode e (fp32.decode (own.a.toNat / 2 ^ (32 * k) % 2 ^ 32))
  { v := BitVec.ofNat 128 ((q 0).1 + (q 1).1 * 2 ^ 8 + (q 2).1 * 2 ^ 16 + (q 3).1 * 2 ^ 24 + e * 2 ^ 32)
    flags := (q 0).2 ||| (q 1).2 ||| (q 2).2 ||| (q 3).2 }

/-- R131: the quadratic of a lane on the active bank; the segment of x is sign, clamped exponent and the top three fraction
bits. -/
def tableOf (a : ActTab) (i : LaneIn) : LaneOut :=
  let exp := i.nb / 2 ^ 23 % 256
  let seg := i.nb / 2 ^ 31 * 128 + min (exp - 120) 15 * 8 + i.nb / 2 ^ 20 % 8
  let coef (k : Nat) : W32 := Tab.get 0 a.coef (a.active * 768 + seg * 3 + k)
  match fp32.decode i.nb with
  | .nan sig => patternOut 0x7FC00000 (if sig then fInvalid else 0)
  | .inf _ =>
    let r := convert fp32 .rne (fp32.decode (coef 0).toNat)
    patternOut r.1 r.2
  | x =>
    let r := fusedSum fp32 i.mode [(fp32.decode (coef 2).toNat, (x.mul x).1), (fp32.decode (coef 1).toNat, x)]
      [fp32.decode (coef 0).toNat]
    patternOut r.1 r.2

/-! ### Scalar instructions (R47, R79, R80) -/

/-- A scalar instruction: its opcode, its constructor, and the value of s[h][D] from the operands A and B. -/
structure SRow where
  op : Nat
  instr : Args → Instr
  fn : W64 → W64 → W64
/-- A compare: the relation. -/
structure SCmpRow where
  op : Nat
  instr : Args → Instr
  rel : W64 → W64 → Prop

def word64 (z : Int) : W64 := BitVec.ofInt 64 z
def bits64 (f : Nat → Bool) : W64 := (BitVec.ofBoolListLE ((List.range 64).map f)).setWidth 64

noncomputable def scalarRows : List SRow := [
  ⟨0x001, .sadd, fun a b => word64 (a.toInt + b.toInt)⟩,
  ⟨0x002, .ssub, fun a b => word64 (a.toInt - b.toInt)⟩,
  ⟨0x003, .smul, fun a b => word64 (a.toInt * b.toInt)⟩,
  ⟨0x004, .smulhS64, fun a b => word64 (a.toInt * b.toInt / 2 ^ 64)⟩,
  ⟨0x005, .smulhN64, fun a b => word64 (a.toNat * b.toNat / 2 ^ 64)⟩,
  ⟨0x006, .sdivS64, fun a b => word64 (quotS a.toInt b.toInt)⟩,
  ⟨0x007, .sdivN64, fun a b => word64 (quotN 64 a.toNat b.toNat)⟩,
  ⟨0x008, .sremS64, fun a b => word64 (restS a.toInt b.toInt)⟩,
  ⟨0x009, .sremN64, fun a b => word64 (restN a.toNat b.toNat)⟩,
  ⟨0x00A, .sand, fun a b => bits64 fun k => a.getLsbD k && b.getLsbD k⟩,
  ⟨0x00B, .sor, fun a b => bits64 fun k => a.getLsbD k || b.getLsbD k⟩,
  ⟨0x00C, .sxor, fun a b => bits64 fun k => a.getLsbD k != b.getLsbD k⟩,
  ⟨0x00D, .sshl, fun a b => bits64 fun k => decide (b.toNat % 64 ≤ k) && a.getLsbD (k - b.toNat % 64)⟩,
  ⟨0x00E, .sshr, fun a b => bits64 fun k => a.getLsbD (k + b.toNat % 64)⟩,
  ⟨0x00F, .ssra, fun a b => bits64 fun k => a.getLsbD (min (k + b.toNat % 64) 63)⟩,
  ⟨0x010, .sminS64, fun a b => word64 (min a.toInt b.toInt)⟩,
  ⟨0x011, .sminN64, fun a b => word64 (min a.toNat b.toNat : Nat)⟩,
  ⟨0x012, .smaxS64, fun a b => word64 (max a.toInt b.toInt)⟩,
  ⟨0x013, .smaxN64, fun a b => word64 (max a.toNat b.toNat : Nat)⟩,
  ⟨0x014, .smov, fun _ b => b⟩,
  ⟨0x01A, .saddI, fun a b => word64 (a.toInt + b.toInt)⟩,
  ⟨0x01B, .sandI, fun a b => bits64 fun k => a.getLsbD k && b.getLsbD k⟩,
  ⟨0x01C, .sorI, fun a b => bits64 fun k => a.getLsbD k || b.getLsbD k⟩,
  ⟨0x01D, .sxorI, fun a b => bits64 fun k => a.getLsbD k != b.getLsbD k⟩,
  ⟨0x01E, .sshlI, fun a b => bits64 fun k => decide (b.toNat % 64 ≤ k) && a.getLsbD (k - b.toNat % 64)⟩,
  ⟨0x01F, .sshrI, fun a b => bits64 fun k => a.getLsbD (k + b.toNat % 64)⟩,
  ⟨0x020, .ssraI, fun a b => bits64 fun k => a.getLsbD (min (k + b.toNat % 64) 63)⟩,
  ⟨0x021, .sli, fun _ b => b⟩]

noncomputable def scalarCompareRows : List SCmpRow := [
  ⟨0x022, .scmpEq, fun a b => a.toNat = b.toNat⟩, ⟨0x023, .scmpNe, fun a b => a.toNat ≠ b.toNat⟩,
  ⟨0x024, .scmpLtS64, fun a b => a.toInt < b.toInt⟩, ⟨0x025, .scmpLeS64, fun a b => a.toInt ≤ b.toInt⟩,
  ⟨0x026, .scmpLtN64, fun a b => a.toNat < b.toNat⟩, ⟨0x027, .scmpLeN64, fun a b => a.toNat ≤ b.toNat⟩,
  ⟨0x028, .scmpEqI, fun a b => a.toNat = b.toNat⟩, ⟨0x029, .scmpNeI, fun a b => a.toNat ≠ b.toNat⟩,
  ⟨0x02A, .scmpLtS64I, fun a b => a.toInt < b.toInt⟩, ⟨0x02B, .scmpLtN64I, fun a b => a.toNat < b.toNat⟩]

/-- The scalar operand of a field in a lane's home warp: a register, or the sign-extended literal or immediate. -/
def operand (op : Nat) (sg : Sig) (x : Args) (l : Lane) (k : Fld) : W64 := (readField op sg x l k).setWidth 64

/-- A scalar instruction completes: each home warp with an active lane, none of which meets a cause, receives `val` of its
lowest active lane in s[h][D]; the lanes of the others trap. -/
def HomesReceive (op : Nat) (i : Args → Instr) (val : Sig → Args → Lane → W64) : Prop :=
  ∀ (x : Args) (sg : Sig) (c : Cur) (s : State), Issuing op x sg c s →
    ∃ t, exec (i x) s = .next t ∧
      HomesBecome s t c.wg (lanesOf s c x.ctl.pfx)
        (fun h w => match lowest s c x h with
          | some l =>
            if (homeActives s c x h).all fun m => (formCause (c.source s) op sg x 0 c m).isNone
            then w.writeS x.d.toNat (val sg x l) else w
          | none => w)
        (homeTrap s op sg x c)

/-! ### Instructions each active lane executes for itself -/

/-- The threads of the group after such an instruction: a lane traps for its form or an illegal value, an active one for a
cause of its own; else an active one does what the instruction says. -/
def eachLane (op : Nat) (x : Args) (sg : Sig) (c : Cur) (s : State) (ill : Lane → Bool) (more : Lane → Option Cause)
    (does : Lane → Thread → Thread) : State :=
  s.lanesBecome c.wg (lanesOf s c x.ctl.pfx) fun _ l t =>
    match if ill l then some (illegal c) else formCause (c.source s) op sg x 0 c l with
    | some k => t.trap c.pc.pkt c.slot k
    | none =>
      if l.act then
        match more l with
        | some k => t.trap c.pc.pkt c.slot k
        | none => does l t
      else t

/-- An instruction of the kind: opcode, constructor, causes, effect, and the illegal values of an active lane. -/
structure LaneRow where
  op : Nat
  instr : Args → Instr
  more : State → Cur → Sig → Args → Lane → Option Cause
  does : State → Cur → Sig → Args → Lane → Thread → Thread
  ill : Sig → Args → Lane → Bool := fun _ _ _ => false

def EachLaneDoes (rows : List LaneRow) : Prop :=
  ∀ r ∈ rows, ∀ (x : Args) (sg : Sig) (c : Cur) (s : State), Issuing r.op x sg c s →
    exec (r.instr x) s = .next (eachLane r.op x sg c s (r.ill sg x) (r.more s c sg x) (r.does s c sg x))

/-- A thread goes on at slot 0 of a packet. -/
def Thread.goTo (pkt : Nat) (t : Thread) : Thread := { t with pc := ⟨pkt, 0⟩ }

noncomputable def jumpRows : List LaneRow := [
  { op := 0x041, instr := .bra, more := fun _ _ _ _ _ => none
    does := fun _ _ _ x l t => t.goTo (l.h.readS x.a.toNat).toNat },
  { op := 0x042, instr := .brx, more := fun _ _ _ _ _ => none
    does := fun _ _ _ x l t => t.goTo (l.t.readV x.a.toNat).toNat },
  { op := 0x043, instr := .call, more := fun _ _ _ _ _ => none
    does := fun _ c sg x l t =>
      (t.writeV x.d.toNat (BitVec.ofNat 32 (c.pc.pkt + 1))).goTo (operand 0x043 sg x l .b).toNat },
  { op := 0x044, instr := .ret, more := fun _ _ _ _ _ => none
    does := fun _ _ _ x l t => t.goTo (l.t.readV x.a.toNat).toNat }]

/-- Outside a privileged handler, code 0x11 (R44). -/
def needsPriv (l : Lane) : Option Cause := if l.t.priv then none else some (0x11, 0)
/-- The packet, slot and AT of `tpos` (R342). -/
def tposPkt (t : Thread) : Nat := t.tpos.toNat % 2 ^ 27
def tposSlot (t : Thread) : Nat := t.tpos.toNat / 2 ^ 27 % 4
def tposAt (t : Thread) : Bool := t.tpos.getLsbD 29

noncomputable def systemRows : List LaneRow := [
  { op := 0x1F8, instr := .trap, more := fun _ _ _ x _ => some (0x21, x.b.setWidth 64), does := fun _ _ _ _ _ t => t },
  { op := 0x1F9, instr := .brk, more := fun _ _ _ x _ => some (0x20, x.b.setWidth 64), does := fun _ _ _ _ _ t => t },
  { op := 0x1FB, instr := .perf, more := fun _ _ _ _ _ => none
    does := fun s c _ x l t =>
      let v := Tab.get 0 (s.wgOf c.wg).perf (l.h.readS x.a.toNat).toNat
      (t.writeV x.d.toNat (v.setWidth 32)).writeV (x.d.toNat + 1) ((v >>> 32).setWidth 32)
    ill := fun sg x l => l.act && known sg x l .a && decide (5 < (l.h.readS x.a.toNat).toNat) },
  { op := 0x1FA, instr := .rst
    more := fun _ _ _ _ l => if l.t.priv = false ∧ l.t.user = .restoreHandler then none else some (0x11, 0)
    does := fun _ _ _ _ _ t => t.popFrame }]

/-! ### Memory instructions (R132 to R149) -/

/-- An access of an active lane is aligned and its address translates, with nothing to install and no fault to log. -/
def Reaches (s : State) (c : Cur) (write : Bool) (align : Nat) (va : W64) (l : Lane) : Prop :=
  va.toNat % align = 0 ∧ va.toNat < 2 ^ 48 ∧ ∃ pa, s.reach (c.source s) l.t write va = (.ok pa, s)

/-- No thread of the group owes a trap for a write that failed (R139). -/
def NothingOwed (s : State) (c : Cur) : Prop := ∀ l ∈ lanesOf s c none, l.t.failed = []

/-- The physical address a lane's read reaches. -/
def reached (s : State) (c : Cur) (va : W64) (l : Lane) : Nat :=
  match (s.reach (c.source s) l.t false va).1 with
  | .ok pa => pa
  | .error _ => 0

/-- The lanes that Z = 1 writes with 0 (R98). -/
def State.zeroed (s : State) (c : Cur) (sg : Sig) (x : Args) : State :=
  s.lanesBecome c.wg (lanesOf s c x.ctl.pfx) fun _ l t => if !l.act && x.z then t.take (zeroWrites sg x) else t

/-- Addresses (R132, R137): the pair v[A+1]:v[A], or s[h][A] and the lane's element, and an offset in elements. -/
def pairVa (x : Args) (k : Nat) (l : Lane) : W64 :=
  BitVec.ofInt 64 ((l.t.readV x.a.toNat).toNat + 2 ^ 32 * (l.t.readV (x.a.toNat + 1)).toNat + x.b.toInt * k)
def scalarVa (x : Args) (k : Nat) (l : Lane) : W64 :=
  BitVec.ofInt 64 ((l.h.readS x.a.toNat).toNat + x.b.toInt * k + l.lane * k)
def plainVa (x : Args) (_k : Nat) (l : Lane) : W64 :=
  BitVec.ofNat 64 ((l.t.readV x.a.toNat).toNat + 2 ^ 32 * (l.t.readV (x.a.toNat + 1)).toNat)

/-- A vector access of memory: opcode, constructor, bytes, whether it writes, its address, and what one lane does. -/
structure MemRow where
  op : Nat
  instr : Args → Instr
  size : Nat
  write : Bool
  addr : Args → Nat → Lane → W64
  one : Args → Cur → State → Lane → State
  /-- What else must hold of a lane. -/
  sound : Args → State → Cur → Lane → Prop := fun _ _ _ _ => True
  /-- What is counted for a lane before any of them acts. -/
  note : Args → Cur → State → Lane → State := fun _ _ s _ => s

/-- The instructions of some rows complete: the active lanes act one after another in ascending home lane order. -/
def LanesAccess (rows : List MemRow) : Prop :=
  ∀ r ∈ rows, ∀ (x : Args) (sg : Sig) (c : Cur) (s : State), Clean r.op x sg c s → NothingOwed s c →
    (∀ l ∈ actives s c x, Reaches s c r.write r.size (r.addr x r.size l) l ∧ r.sound x s c l) →
    exec (r.instr x) s = .next ((actives s c x).foldl (r.one x c)
      ((actives s c x).foldl (r.note x c) (s.zeroed c sg x)))

/-- The scope of an acquire from a qualifier: [1:0] scope, [3:2] order (R42). -/
def qualAcquire (x : Args) : Option Nat := if x.b.toNat / 4 % 4 = 1 then some (x.b.toNat % 4) else none
/-- A load: bytes, sign, address; the scope of its acquire, and its promotion. The copy that would serve it is correctable
(R347); a load that the L1 does not serve is counted (R219). -/
def loadRowOf (op : Nat) (i : Args → Instr) (k : Nat) (signed : Bool) (addr : Args → Nat → Lane → W64)
    (acq : Args → Option Nat) (prom : Args → Bool) : MemRow :=
  { op, instr := i, size := k, write := false, addr
    one := fun x c s l => loadLane (fun l => addr x k l) ⟨k, signed⟩ x.d.toNat (acq x) (prom x) c s l
    sound := fun x s c l => (acq x).any (· != 0) = true ∨
      s.badCopy (s.wgOf c.wg).core (s.wgOf c.wg).ctx.asid (reached s c (addr x k l) l) k = false
    note := fun x c s l => s.countMiss c.wg (reached s c (addr x k l) l) k }
def loadRow (op : Nat) (i : Args → Instr) (k : Nat) (signed : Bool) (addr : Args → Nat → Lane → W64) : MemRow :=
  loadRowOf op i k signed addr (fun _ => none) fun _ => false
/-- A load with a qualifier: [1:0] scope, [3:2] order, [4] promotion (R42). -/
def qualRow (op : Nat) (i : Args → Instr) (k : Nat) : MemRow :=
  loadRowOf op i k false plainVa qualAcquire fun x => x.b.getLsbD 4

noncomputable def loadRows : List MemRow := [
  loadRow 0x180 .ldN8 1 false pairVa, loadRow 0x181 .ldS8 1 true pairVa, loadRow 0x182 .ldN16 2 false pairVa,
  loadRow 0x183 .ldS16 2 true pairVa, loadRow 0x184 .ldB32 4 false pairVa, loadRow 0x185 .ldB64 8 false pairVa,
  loadRow 0x186 .ldB128 16 false pairVa, loadRow 0x187 .ldB32S 4 false scalarVa, loadRow 0x188 .ldB64S 8 false scalarVa,
  loadRow 0x189 .ldB128S 16 false scalarVa, qualRow 0x18A .ldB32Q 4, qualRow 0x18B .ldB64Q 8]

/-- The bytes a lane stores: the low bytes of D, of a pair or of a quad. -/
def storedBytes (x : Args) (k : Nat) (l : Lane) : List Byte :=
  (List.range k).map fun i =>
    BitVec.ofNat 8 ((l.t.readV (x.d.toNat + i / 4)).toNat / 2 ^ (8 * (i % 4)))

/-- A row of a store: core-weak, or written through at once from die scope on. -/
def storeRow (op : Nat) (i : Args → Instr) (k : Nat) (addr : Args → Nat → Lane → W64) (through : Args → Bool) : MemRow :=
  { op, instr := i, size := k, write := true, addr
    one := fun x c s l =>
      if through x then s.storeThrough c l (s.paOf c true (addr x k l) l) (addr x k l) (storedBytes x k l)
      else s.weakStore c (s.wgOf c.wg) (s.paOf c true (addr x k l) l) (addr x k l) (storedBytes x k l) [l.tid] }

noncomputable def storeRows : List MemRow := [
  storeRow 0x18C .stN8 1 pairVa fun _ => false, storeRow 0x18D .stN16 2 pairVa fun _ => false,
  storeRow 0x18E .stB32 4 pairVa fun _ => false, storeRow 0x18F .stB64 8 pairVa fun _ => false,
  storeRow 0x190 .stB128 16 pairVa fun _ => false, storeRow 0x191 .stB32S 4 scalarVa fun _ => false,
  storeRow 0x192 .stB64S 8 scalarVa fun _ => false, storeRow 0x193 .stB128S 16 scalarVa fun _ => false,
  storeRow 0x194 .stB32Q 4 plainVa fun x => x.b.toNat % 4 != 0, storeRow 0x195 .stB64Q 8 plainVa fun x => x.b.toNat % 4 != 0]

/-- A load at home (R141, R334): the core's stores to the sector leave first; the request reads outside the windows. -/
def homeLoadRow (op : Nat) (i : Args → Instr) (k : Nat) : MemRow :=
  { op, instr := i, size := k, write := false, addr := pairVa
    one := fun x c s l =>
      let pa := s.paOf c false (pairVa x k l) l
      let f := s.flushSector (s.wgOf c.wg).core pa
      f.2.ask c l (laneReq f.2 c l .readAlone pa (pairVa x k l) k) f.1 x.d.toNat ⟨k, false⟩ }
/-- R149: the value of a window slot, which becomes 0 at its home. -/
def finRow (op : Nat) (i : Args → Instr) (float : Bool) : MemRow :=
  { op, instr := i, size := 8, write := true, addr := plainVa
    one := fun x c s l =>
      let pa := s.paOf c true (plainVa x 8 l) l
      let f := s.flushSector (s.wgOf c.wg).core pa
      let r := laneReq f.2 c l (.wfin float ((windowExp (l.h.readS x.b.toNat)).getD 0) (modeOf x.ctl.pfx l.t)) pa (plainVa x 8 l) 8
      f.2.ask c l { r with huge := f.2.isHuge r.core r.asid r.va } f.1 x.d.toNat ⟨if float then 4 else 8, false⟩ }
/-- R143: a sealed copy of the L1 or the Porch under the version in B, else a request that the home checks. -/
def sealedLoadRow (op : Nat) (i : Args → Instr) (k : Nat) : MemRow :=
  { op, instr := i, size := k, write := false, addr := plainVa
    one := fun x c s l =>
      let pa := s.paOf c false (plainVa x k l) l
      let v := (l.h.readS x.b.toNat).toNat
      match s.sealedHit (s.wgOf c.wg).core v pa with
      | some (d, s) =>
        s.modWg c.wg (·.pendAdd c l.tid ((List.range (k / 4)).map fun i => .v (x.d.toNat + i))
          (.ready (wordWrites x.d.toNat (k / 4)
            (BitVec.ofNat 128 (natOfBytes ((List.range k).map fun i => dataByte d (pa % 64 + i))))) 0))
      | none => s.ask c l { laneReq s c l (.readSealed v) pa (plainVa x k l) k with fill := true } [] x.d.toNat ⟨k, false⟩ }

noncomputable def homeLoadRows : List MemRow := [
  homeLoadRow 0x1A2 .ldncB32 4, homeLoadRow 0x1A3 .ldncB64 8, homeLoadRow 0x1A4 .ldncB128 16]
noncomputable def sealedLoadRows : List MemRow := [
  sealedLoadRow 0x1A5 .ldvB32 4, sealedLoadRow 0x1A6 .ldvB64 8, sealedLoadRow 0x1A7 .ldvB128 16]
noncomputable def finRows : List MemRow := [finRow 0x1B2 .wfinF32 true, finRow 0x1B3 .wfinS64 false]

/-- The active lanes that name one physical address, in ascending home lane order. -/
def namedAt (s : State) (c : Cur) (x : Args) (va : Lane → W64) (pa : Nat) : List Lane :=
  (actives s c x).filter fun l => s.paOf c true (va l) l = pa
/-- The physical addresses the active lanes name, each once, by the lowest lane that names it. -/
def namedAddrs (s : State) (c : Cur) (x : Args) (va : Lane → W64) : List Nat :=
  distinct ((actives s c x).map fun l => s.paOf c true (va l) l)

/-- An access that combines the lanes of one address into one request (R145, R147, R148). -/
structure ShareRow where
  op : Nat
  instr : Args → Instr
  size : Nat
  one : Args → Cur → List Lane → Nat → State → State

def AddressesAccess (rows : List ShareRow) (extra : Args → Lane → Prop) (start : ShareRow → Args → Cur → State → State) : Prop :=
  ∀ r ∈ rows, ∀ (x : Args) (sg : Sig) (c : Cur) (s : State), Clean r.op x sg c s → NothingOwed s c →
    (∀ l ∈ actives s c x, extra x l ∧ Reaches s c true r.size (plainVa x 8 l) l) →
    exec (r.instr x) s = .next ((namedAddrs s c x (plainVa x 8)).foldl
      (fun s' pa => r.one x c (namedAt s c x (plainVa x 8) pa) pa s') (start r x c (s.zeroed c sg x)))

/-- R145: the atomic of some lanes on one address. -/
def amoRow (op : Nat) (i : Args → Instr) (k : Nat) : ShareRow :=
  ⟨op, i, k, fun x c here pa s =>
    match here with
    | [] => s
    | first :: _ =>
      let f := s.flushSector (s.wgOf c.wg).core pa
      let opn := x.b.toNat % 16
      let r := laneReq f.2 c first (.amo opn (here.map fun l => (l.tid, modeOf x.ctl.pfx l.t))) pa (plainVa x k first) k
      let q := f.2.newReq { r with
        data := here.flatMap fun l => storedBytes x (if opn = 10 then 2 * k else k) l
        acq := if x.b.getLsbD 6 then some (x.b.toNat / 16 % 4) else none
        huge := f.2.isHuge r.core r.asid r.va } f.1
      here.foldl (fun s l => s.modWg c.wg (·.pendAdd c l.tid ((List.range (k / 4)).map fun i => .v (x.d.toNat + i))
        (.mem q.1 x.d.toNat ⟨k, false⟩))) q.2⟩

/-- The reduction of R147 on two values of k bytes: add, FP32 add, and the orders and logic. -/
def redStep (opn k : Nat) (mode : Mode) (a b : Nat) : Nat :=
  let s (n : Nat) : Int := (BitVec.ofNat (8 * k) n).toInt
  match opn with
  | 0 => (a + b) % 2 ^ (8 * k)
  | 1 => (fusedSum fp32 mode [] [fp32.decode a, fp32.decode b]).1
  | 2 => if s a < s b then a else b
  | 3 => if s a < s b then b else a
  | 4 => min a b
  | 5 => max a b
  | 6 => a &&& b
  | 7 => a ||| b
  | 8 => a ^^^ b
  | _ => b

def redRow (op : Nat) (i : Args → Instr) (k : Nat) : ShareRow :=
  ⟨op, i, k, fun x c here pa s =>
    match here with
    | [] => s
    | first :: rest =>
      let mode := modeOf x.ctl.pfx first.t
      let val (l : Lane) : Nat := natOfBytes (storedBytes x k l)
      s.sendRed c here (.red (x.b.toNat % 16) mode) pa (plainVa x k first)
        (bytesOfNat (rest.foldl (fun a l => redStep (x.b.toNat % 16) k mode a (val l)) (val first)) k)⟩

def redwRow (op : Nat) (i : Args → Instr) (float : Bool) : ShareRow :=
  ⟨op, i, 8, fun x c here pa s =>
    match here with
    | [] => s
    | first :: _ =>
      s.sendRed c here .redw pa (plainVa x 8 first)
        (bytesOfNat (((here.map fun l => (windowPart x float l).1).sum % 2 ^ 64).toNat) 8)⟩

/-- Scratchpad offsets (R140): v[A] and an offset in elements. -/
def spadOff (x : Args) (k : Nat) (l : Lane) : Int := (l.t.readV x.a.toNat).toNat + x.b.toInt * k
/-- An access of k bytes at an offset lies in the workgroup's allocation, aligned. -/
def InSpad (g : Workgroup) (k : Nat) (o : Int) : Prop := 0 ≤ o ∧ o % k = 0 ∧ o + k ≤ g.hdr.spad

structure SpadRow where
  op : Nat
  instr : Args → Instr
  size : Nat
  signed : Bool := false

noncomputable def spadLoadRows : List SpadRow := [
  ⟨0x196, .ldsN8, 1, false⟩, ⟨0x197, .ldsS8, 1, true⟩, ⟨0x198, .ldsN16, 2, false⟩, ⟨0x199, .ldsS16, 2, true⟩,
  ⟨0x19A, .ldsB32, 4, false⟩, ⟨0x19B, .ldsB64, 8, false⟩, ⟨0x19C, .ldsB128, 16, false⟩]
noncomputable def spadStoreRows : List SpadRow := [
  ⟨0x19D, .stsN8, 1, false⟩, ⟨0x19E, .stsN16, 2, false⟩, ⟨0x19F, .stsB32, 4, false⟩, ⟨0x1A0, .stsB64, 8, false⟩,
  ⟨0x1A1, .stsB128, 16, false⟩]
noncomputable def spadAtomicRows : List SpadRow := [⟨0x1AB, .amosB32, 4, false⟩, ⟨0x1AC, .amosB64, 8, false⟩]

/-- The bytes of the scratchpad from an offset as a number, the first the least significant. -/
def spadValue (m : Tab Byte) (o k : Nat) : Nat := ((List.range k).map fun i => (Tab.get 0 m (o + i)).toNat * 256 ^ i).sum
/-- A loaded value in its registers: a value below 32 bits extended by its sign or by zeros. -/
def loadedWrites (x : Args) (k : Nat) (signed : Bool) (n : Nat) : List Write :=
  wordWrites x.d.toNat (max 1 (k / 4))
    (if signed then (BitVec.ofInt 32 (signedLow (8 * k) n)).setWidth 128 else BitVec.ofNat 128 n)

/-- R144, R145: the value an atomic leaves, if it writes one, and its flags; for cas `b` is compared and `d` written. -/
def atomicOf (opn k : Nat) (mode : Mode) (old b d : Nat) : Option Nat × Flags :=
  if opn = 10 then (if old = b then some d else none, 0)
  else (some (redStep opn k mode old b),
    if opn = 1 then (fusedSum fp32 mode [] [fp32.decode old, fp32.decode b]).2 else 0)

/-- One lane of an atomic on the scratchpad: its bytes after it. -/
def amosOne (x : Args) (k : Nat) (m : Tab Byte) (l : Lane) : Tab Byte :=
  let o := (l.t.readV x.a.toNat).toNat
  let opn := x.b.toNat % 16
  let bs := natOfBytes (storedBytes x (if opn = 10 then 2 * k else k) l)
  match (atomicOf opn k (modeOf x.ctl.pfx l.t) (spadValue m o k) (bs % 2 ^ (8 * k)) (bs / 2 ^ (8 * k))).1 with
  | some v => (List.range k).foldl (fun m i => Tab.set 0 m (o + i) (BitVec.ofNat 8 (v / 256 ^ i))) m
  | none => m

/-! ### Instructions executed for one home warp -/

/-- Every lane of the group is of one home warp. -/
def OneHome (s : State) (c : Cur) (h : Nat) : Prop := ∀ l ∈ lanesOf s c none, l.hw = h

/-- An address translates for every active lane, with nothing to install and no fault to log. -/
def AllReach (s : State) (c : Cur) (x : Args) (write : Bool) (va : W64) (pa : Nat) : Prop :=
  ∀ l ∈ actives s c x, s.reach (c.source s) l.t write va = (.ok pa, s) ∧ s.reach (s.wgOf c.wg) l.t write va = (.ok pa, s)

/-- Base, and an offset in elements of k bytes (R81). -/
def scalarBase (x : Args) (k : Nat) (l : Lane) : W64 := BitVec.ofInt 64 ((l.h.readS x.a.toNat).toNat + x.b.toInt * k)

structure SMemRow where
  op : Nat
  instr : Args → Instr
  size : Nat
  signed : Bool := false

noncomputable def sldRows : List SMemRow := [
  ⟨0x030, .sldN8, 1, false⟩, ⟨0x031, .sldS8, 1, true⟩, ⟨0x032, .sldN16, 2, false⟩, ⟨0x033, .sldS16, 2, true⟩,
  ⟨0x034, .sldN32, 4, false⟩, ⟨0x035, .sldS32, 4, true⟩, ⟨0x036, .sldB64, 8, false⟩]
noncomputable def sstRows : List SMemRow := [
  ⟨0x037, .sstN8, 1, false⟩, ⟨0x038, .sstN16, 2, false⟩, ⟨0x039, .sstN32, 4, false⟩, ⟨0x03A, .sstB64, 8, false⟩]

/-- R49: the special registers a lane reads. -/
def specialOf (s : State) (c : Cur) (l : Lane) (n : Nat) : W64 :=
  let g := c.source s
  let k := s.coreOf g.core
  match n with
  | 0 => BitVec.ofNat 64 l.tid
  | 1 => BitVec.ofNat 64 (l.tid % g.hdr.width)
  | 2 => BitVec.ofNat 64 (l.tid / g.hdr.width)
  | 3 => BitVec.ofNat 64 c.fw
  | 4 => BitVec.ofNat 64 (l.tid % g.hdr.width / 8)
  | 5 => BitVec.ofNat 64 g.wg
  | 6 => BitVec.ofNat 64 g.core
  | 7 => BitVec.ofNat 64 (g.core % 64 / 4)
  | 8 => BitVec.ofNat 64 (g.core / 64)
  | 9 => BitVec.ofNat 64 s.node
  | 10 => BitVec.ofNat 64 (g.hdr.roleKind l.hw)
  | 11 => s.hb
  | 12 => BitVec.ofNat 64 k.clk
  | 13 => BitVec.ofNat 64 l.t.rm.toNat
  | 14 => BitVec.ofNat 64 l.t.fflags.toNat
  | 15 => BitVec.ofNat 64 g.spass.toNat
  | 16 => l.h.faultm
  | 17 => BitVec.ofNat 64 l.t.tcause.toNat
  | 18 => BitVec.ofNat 64 l.t.depth
  | _ => l.h.psave

/-- The active lanes of one home warp, changed in turn. -/
def homeFold (s : State) (c : Cur) (x : Args) (f : Lane → HWarp → HWarp) (h : Nat) (w : HWarp) : HWarp :=
  (homeActives s c x h).foldl (fun w l => f l w) w

/-- The lane's bit of every mask and of `%faultm` is cleared (R94). -/
def HWarp.forget (lane : Nat) (w : HWarp) : HWarp :=
  { (List.range 12).foldl (fun w n => w.setK n lane false) w with faultm := setBit w.faultm lane false }

/-- A thread that has ended (R94, R95). -/
def Thread.over (byTail : Bool) (t : Thread) : Thread :=
  { t with ended := true, tailed := byTail, hold := .ready, priv := false, trapSlot := none, again := [], alone := [] }

/-- The matrix and engine instructions are executed once for the formed warp: none of its active lanes meets a cause. -/
def NoCause (s : State) (c : Cur) (sg : Sig) (x : Args) (cause : State → Cur → Sig → List Lane → Lane → Option Cause) : Prop :=
  ∀ l ∈ actives s c x, cause s c sg (actives s c x) l = none

/-- A command is accepted into a free slot (R194, R195): its record, its successor, its handle pending in every lane. -/
def Accepted (s t : State) (eng op : Nat) (x : Args) (c : Cur) (act : List Lane) (l : Lane) : Prop :=
  ∃ slot seq, slot ∈ s.freeSlots (s.wgOf c.wg).core ∧ seq = Tab.get 0 (s.coreOf (s.wgOf c.wg).core).seqs slot ∧
    let h := slot + eng * 2 ^ 10 + seq % 2 ^ 16 * 2 ^ 12
    t = (({ s with fresh := s.fresh + 1, nextReq := s.nextReq + 1 }.modCore (s.wgOf c.wg).core fun k =>
        { k with seqs := Tab.put k.seqs slot (seq + 1) }).lanesBecome c.wg act fun _ _ t =>
          t.awaits c [.v x.d.toNat] (.ready [⟨.v x.d.toNat, BitVec.ofNat 64 h⟩] 0) none).modWg c.wg fun g =>
      { g with cmds := Tab.put g.cmds h (commandOf eng op x (s.wgOf c.wg) act l s.nextReq) }

/-- An engine command: opcode, constructor, engine (R193). -/
structure CmdRow where
  op : Nat
  instr : Args → Instr
  eng : Nat

noncomputable def commandRows : List CmdRow := [
  ⟨0x1E0, .cpy, 0⟩, ⟨0x1E1, .cpyg, 0⟩, ⟨0x1E2, .cpys, 0⟩, ⟨0x1E3, .cpyf, 0⟩, ⟨0x1E4, .ceIns, 1⟩, ⟨0x1E5, .ceQry, 1⟩,
  ⟨0x1E6, .ceAcc, 1⟩, ⟨0x1E7, .ceMap, 1⟩, ⟨0x1E8, .ceClr, 1⟩, ⟨0x1E9, .ceSeal, 1⟩, ⟨0x1EB, .scnz, 3⟩, ⟨0x1EC, .sctk, 3⟩]

/-- The matrix operations of some octet groups are queued, in ascending octets. -/
def queued (s : State) (c : Cur) (x : Args) (op : Nat → Lane → List Lane → State → MxOp) : State :=
  (byOctet (actives s c x)).foldl (fun s' o =>
    match o.2 with
    | [] => s'
    | first :: _ => s'.mxPut c.wg (o.2.map (·.tid)) (op o.1 first o.2 s')) s

/-- Lanes of one octet among some. -/
def octetLanes (ls : List Lane) (l : Lane) : List Lane := ls.filter fun m => octetOf m.tid = octetOf l.tid

/-- The word of a phase barrier (R164): EXP, ARR, PH and SUR. -/
def phaseWord (exp arr ph sur : Nat) : W64 := BitVec.ofNat 64 (exp + arr * 2 ^ 16 + ph * 2 ^ 32 + sur * 2 ^ 33)

/-! ### The words of the statements about the device's steps -/

def State.thread (s : State) (w i : Nat) : Thread := (s.wgOf w).thread i
def State.byte (s : State) (a : Nat) : Byte := Tab.get 0 s.mem a
def State.core (s : State) (w : Nat) : Nat := (s.wgOf w).core

/-- A thread as it stands, but for whether its next group was found unable to issue (R229). -/
def Thread.stands (t : Thread) : Thread := { t with blocked := none }

/-- The threads that `p` does not name are as before. -/
def OthersStand (s t : State) (w : Nat) (p : Nat → Prop) : Prop :=
  ∀ v i, ¬(v = w ∧ p i) → (t.thread v i).stands = (s.thread v i).stands

/-- A thread of a workgroup of which something holds. -/
def IsThread (s : State) (w : Nat) (f : Thread → Prop) (i : Nat) : Prop :=
  ∃ u, Tab.find (s.wgOf w).threads i = some u ∧ f u

/-- Some threads go on together as one release set. -/
def GoTogether (t : State) (w : Nat) (p : Nat → Prop) (gathered : Bool) : Prop :=
  ∃ r ∈ (t.wgOf w).relSets, r.gathered = gathered ∧ ∀ i, p i → i ∈ r.tids

/-- Every live thread of home warp `h` whose bit of a mask is set is among some. -/
def MaskWithin (s : State) (w h mask : Nat) (p : Nat → Prop) : Prop :=
  ∀ i u, Tab.find (s.wgOf w).threads i = some u → (s.wgOf w).home i = h → u.ended = false →
    ((s.wgOf w).hw h).bitK mask ((s.wgOf w).laneOf i) = true → p i

/-- The operations of `bar` on 64-bit values, and their identities (R161). -/
def barCombine : Nat → W64 → W64 → W64
  | 0 => (· + ·)
  | 2 => leastS
  | 3 => mostS
  | 4 => leastN
  | 5 => mostN
  | 6 => (· &&& ·)
  | _ => (· ||| ·)
def barUnit : Nat → W64
  | 2 => 2 ^ 63 - 1
  | 3 => 2 ^ 63
  | 4 | 6 => BitVec.allOnes 64
  | _ => 0

/-- A write of `bytes` at an address is all that happens to memory. -/
def OnlyWrites (s t : State) (pa : Nat) (bytes : List Byte) : Prop :=
  ∀ a, t.byte a = if pa ≤ a ∧ a < pa + bytes.length then bytes.getD (a - pa) 0 else s.byte a

/-- A request is at its home and its turn has come; nothing stops its bytes from being written, and they are no state
word. -/
structure Writable (s : State) (r : Req) (n : Nat) : Prop where
  turn : s.turn r = true
  fits : r.pa % 64 + n ≤ 64
  some_ : 0 < n
  open_ : ∀ k < n, s.sealedAt (r.pa + k) 1 = false
  sound : s.isBad r.pa = false
  ours : s.hostHolds r.pa = false
  plain : s.hitsState (sectorOf r.pa) (spanMask (r.pa % 64) n) = false

/-- The reply of a request has left. -/
def Replied (t : State) (id : Nat) : Prop :=
  ∃ r, Tab.find t.reqs id = some r ∧ (r.state = .replying ∨ r.state = .done)

/-- A core's L1, its bytes of a sector other than core-weak ones gone. -/
def Dropped (t : State) (core : Nat) (hit : Nat → Sector → Prop) (s : State) : Prop :=
  ∀ key x y, Tab.find (s.coreOf core).l1 key = some x → hit key x → Tab.find (t.coreOf core).l1 key = some y → y.valid = y.weak

/-- What the mailbox answers: its reply, then MSI-X vector 0 (R407, R413). -/
def Answers (s t : State) (cmd code : Nat) (payload : List Byte) : Prop := t.out = s.out ++ [.mailbox cmd code payload, .msix 0]

/-- A command of the mailbox: busy before training is over and while another is under way, refused for operands out of
range, else answered with its effect (R413). -/
def MailboxCommand (i : Instr) (cmd : Nat) (good : State → Prop) (code : Nat) (payload : State → List Byte)
    (effect : State → State) : Prop :=
  ∀ s : State,
    (s.phase ≠ 2 ∨ s.enabling ≠ [] → exec i s = .next { s with out := s.out ++ [.mailbox cmd 6 [], .msix 0] }) ∧
    (s.phase = 2 → s.enabling = [] → ¬good s → exec i s = .next { s with out := s.out ++ [.mailbox cmd 2 [], .msix 0] }) ∧
    (s.phase = 2 → s.enabling = [] → good s →
      exec i s = .next { effect s with out := (effect s).out ++ [.mailbox cmd code (payload s), .msix 0] })

/-- The bytes a write request names: all of its data, or those of its mask. -/
def Req.names (r : Req) (k : Nat) : Prop := k < r.data.length ∧ (r.mask = [] ∨ r.mask.getD k false = true)
def Req.plainMask (r : Req) : Prop := r.mask = [] ∨ r.mask.length = r.data.length

/-- Memory holds the bytes a request names, and is as before everywhere else. -/
def Stores (s t : State) (r : Req) : Prop :=
  ∀ a, (r.pa ≤ a ∧ r.names (a - r.pa) → t.byte a = r.data.getD (a - r.pa) 0) ∧
    (¬(r.pa ≤ a ∧ r.names (a - r.pa)) → t.byte a = s.byte a)

/-- A read has been served: its sector as memory holds it is on its way back. -/
def Served (s t : State) (id : Nat) (r : Req) : Prop :=
  ∃ q, Tab.find t.reqs id = some q ∧ (q.state = .replying ∨ q.state = .done) ∧ q.err = r.err ∧
    ∀ i < 64, dataByte q.sect i = s.byte (r.pa / 64 * 64 + i)

/-- The command a step of an engine serves. -/
def Serves (s : State) (core slot : Nat) (ok : Nat → Nat → Cmd → Bool) (w h : Nat) (c : Cmd) : Prop :=
  s.slotCmd core slot ok = some (w, h, c) ∧ Tab.find (s.wgOf w).cmds h = some c

/-- Its words of the scratchpad: entry `i` of the coordinate table, and a 32-bit word. -/
def tableKey (g : Workgroup) (base i : Nat) : Nat := g.spadRead (base + 64 + 16 * i) 8
/-- The `j`-th slot a key is looked for in (R209). -/
def probeSlot (key log j : Nat) : Nat := (key * 0x9E3779B97F4A7C15 % 2 ^ 64 / 2 ^ (64 - log) + j) % 2 ^ log
/-- The search for a key ends at its `j`-th slot. -/
def ProbeEnds (g : Workgroup) (base key log j : Nat) : Prop :=
  j < 2 ^ log ∧ (∀ i < j, tableKey g base (probeSlot key log i) ≠ key ∧ tableKey g base (probeSlot key log i) ≠ 2 ^ 64 - 1) ∧
    (tableKey g base (probeSlot key log j) = key ∨ tableKey g base (probeSlot key log j) = 2 ^ 64 - 1)

/-- The operation of a core's array that a step serves. -/
def Runs (s : State) (core : Nat) (ok : Workgroup → MxEntry → Bool) (w : Nat) (e : MxEntry) : Prop :=
  s.Numbered ∧ s.findMx core ok = some (w, e)

/-! ### The words of the statements about issue, decoding and the whole machine -/

/-- `vmov.b32` with a channel operand issues: no lane meets a cause, and channel `q` is bound. -/
structure Moves (x : Args) (sg : Sig) (c : Cur) (s : State) (q : Nat) (ch : Chan) : Prop extends Issuing 0x09E x sg c s where
  good : ∀ l ∈ lanesOf s c x.ctl.pfx, formCause (s.wgOf c.wg) 0x09E sg x (actives s c x).length c l = none
  bound : Tab.find (s.wgOf c.wg).chans q = some ch
  room : ch.tail - ch.head ≤ ch.depth
  order : ch.head ≤ ch.tail
  past : ∀ i ∈ ch.unready, i < ch.tail

/-- The place of a lane among the active ones, in ascending home lane. -/
def rankOf (s : State) (c : Cur) (x : Args) (l : Lane) : Nat := ((actives s c x).takeWhile (·.tid != l.tid)).length

/-- Where element `i` of a channel of 4-byte elements lies in the scratchpad (R168). -/
def elemAt (ch : Chan) (i : Nat) : Nat := ch.base + i % 2 ^ ch.ldep * 4

/-- The value of element `i` of channel `q`, if it is there (R168). -/
def elementOf (g : Workgroup) (q i : Nat) : Option Nat :=
  (Tab.find g.chans q).bind fun ch =>
    if ch.has i then some (spadValue g.spad (ch.base + i % 2 ^ ch.ldep * (4 * 2 ^ ch.esz)) (4 * 2 ^ ch.esz)) else none
/-- As the group finds it: as it was before the group, else as a push of the group left it (R22). -/
def elementFor (s : State) (c : Cur) (q i : Nat) : Option Nat :=
  (elementOf (c.source s) q i).or (elementOf (s.wgOf c.wg) q i)

/-- An operand that awaited one of `n` elements from `first` on receives it. -/
def Src.given (q first n : Nat) (value : Nat → W128) (y : Src) : Src :=
  match y with
  | .elem r i => if r = q ∧ first ≤ i ∧ i < first + n then .val (value (i - first)) else y
  | y => y

/-- What comes after an outcome that is a next state. -/
def andThen (r : Res) (f : State → State) : Res :=
  match r with
  | .next t => .next (f t)
  | r => r

/-- A formed warp of ready threads is granted; they stand at one slot of a packet, which is fetched, and whose words from that slot
on are a group of one instruction. -/
structure AtGroup (s s1 : State) (gr : Grant) (rest : List Grant) (at_ : PC) (ws : List W32) (l : Layout) : Prop where
  running : s.stopped = false
  still : s.cutting = false
  granted : s.granted = gr :: rest
  some_ : gr.tids ≠ []
  there : ∀ i ∈ gr.tids, let u := s.thread gr.wg i; u.pc = at_ ∧ u.ended = false ∧ u.parked = false ∧ u.hold = .ready ∧
    u.owedNow = false ∧ u.alone = []
  fetched : ∀ i, gr.tids.head? = some i →
    { s with granted := rest }.fetchPacket (s.wgOf gr.wg) (s.thread gr.wg i) at_.pkt = (.ok ws, s1)
  words : ∃ more, layoutOne (ws.drop at_.slot) = some (l, more)
  single : l.chain = false

/-- The group is illegal (R21). -/
def IllegalGroup (s1 : State) (gr : Grant) (at_ : PC) (l : Layout) : Prop :=
  groupBad (s1.wgOf gr.wg) (mdrvNames (s1.wgOf gr.wg) gr.tids) [(at_.slot, l)] = true

/-- The group as it is looked at before it issues: the threads' PCs are past it. -/
def groupCur (s1 : State) (gr : Grant) (at_ : PC) (l : Layout) : Cur := {
  wg := gr.wg, lanes := gr.tids, pc := at_, next := pcFrom at_.pkt (at_.slot + l.size), slot := at_.slot, word := l.w
  released := gr.released, gathered := gr.gathered, fw := gr.fw, snap := none, all := gr.tids, stamp := s1.nextReq }
def beforeGroup (s1 : State) (gr : Grant) (at_ : PC) (l : Layout) : State :=
  { s1.modWg gr.wg fun g => gr.tids.foldl (fun g i => g.modThread i fun t => { t with pc := (groupCur s1 gr at_ l).next }) g with
    cur := some { groupCur s1 gr at_ l with slot := 0, word := 0 }
    nextReq := s1.nextReq + 1 }
/-- Nothing it must wait for holds a lane of the group, or the group. -/
def NothingWaits (s1 : State) (gr : Grant) (at_ : PC) (l : Layout) : Prop :=
  ∃ slot word, (beforeGroup s1 gr at_ l).gateGroup [(at_.slot, l)] =
    { beforeGroup s1 gr at_ l with cur := some { groupCur s1 gr at_ l with slot, word } }
/-- The state the instruction is executed in: the group counts as issued (R219), participants of an operation that gathers
them are ordered (R326), and its conditions are checked. -/
def issued (s1 : State) (gr : Grant) (at_ : PC) (l : Layout) : State :=
  let c := groupCur s1 gr at_ l
  let s := ({ beforeGroup s1 gr at_ l with cur := some c }.startLanes c).modWg gr.wg (·.count 0 1)
  { (if gathers (opOf l.w) then ((s.wgOf gr.wg).homeSets gr.tids).foldl (fun s ts => s.join gr.wg ts) s else s) with
    cur := some { c with checked := true } }
/-- What follows the group: settles, meetings, traps (R25, R89, R342). -/
def afterwards (s1 : State) (gr : Grant) (at_ : PC) (l : Layout) (t : State) : State :=
  { t with cur := none }.endGroup (groupCur s1 gr at_ l) false l.settle

/-- The threads of a group that have trapped in it, once it is over. -/
def trappedIn (s : State) (c : Cur) : List Nat :=
  c.lanes.filter fun i => (s.thread c.wg i).trapSlot.isSome && !(s.thread c.wg i).ended

/-- The cells of the opcode map that hold no instruction (R39, R40). -/
def unassigned (op : Nat) : Bool :=
  [(0x000, 0x000), (0x02C, 0x02F), (0x03B, 0x03F), (0x04D, 0x05F), (0x0B9, 0x0BF), (0x0CC, 0x0CC), (0x0EC, 0x0EF), (0x0FF, 0x0FF),
   (0x151, 0x17F), (0x1BA, 0x1BF), (0x1C9, 0x1CF), (0x1DA, 0x1DF), (0x1F0, 0x1F7), (0x1FF, 0x1FF)].any fun r =>
    decide (r.1 ≤ op ∧ op ≤ r.2)

/-- Some words and the instruction the encoding tables give them: an opcode, its fields, a prefix or literals. -/
noncomputable def wordSamples : List (List W32 × Instr) :=
  let x : Args := { ctl := { chain := false, settle := false, pfx := none, la := none, lb := none, lf := none }, d := 0, a := 0, b := 0 }
  [ ([0], .nop),
    ([0xBFC19030, 0x600100DF, 0x40200000], .ffmaF32 { x with
      ctl := { x.ctl with settle := true, la := none, lb := some 0x40200000
                          pfx := some { bs := false, z := false, f := 3, rnd := 2, neg := false, pred := 3 } }
      d := 4, a := 1, b := 0x5F }),
    ([0xBFC000A0, 0x3A400206], .mma { x with
      ctl := { x.ctl with pfx := some { bs := false, z := false, f := 10, rnd := 0, neg := false, pred := 0 } }, a := 4, b := 6 }),
    ([0x3A018A0A], .mst { x with d := 6, a := 20, b := 10 }) ]

/-! ### Statements of one kind of instruction, of which the statements below are made -/

/-- R103: the table of logic, shifts, counts and moves. -/
def Says.VectorLogicResults : Prop := Computes logicRows

/-- R104, R105, R106: bit fields, conversions and selection. -/
def Says.VectorFieldResults : Prop := Computes fieldRows

/-- R111: the cross-lane table, over the participants R110 forms. -/
def Says.CrossLaneResults : Prop :=
  ∀ r ∈ crossRows, ∀ (x : Args) (sg : Sig) (c : Cur) (s : State), Issuing r.op x sg c s → noChannel sg x →
    exec (r.instr x) s = .next (s.lanesBecome c.wg (lanesOf s c x.ctl.pfx) fun g =>
      laneBecomes g r.op sg x c fun l =>
        let P := participants s c r.op sg x l
        { v := r.fn (P.map fun m => (g.laneOf m.tid, laneInput g r.op sg x m)) ((P.takeWhile (·.tid != l.tid)).length)
            (laneInput g r.op sg x l) })

/-- R111: `xvote.bal` writes the participants' bits of a mask and no others. -/
def Says.BallotWritesMask : Prop :=
  ∀ (x : Args) (sg : Sig) (c : Cur) (s : State), Clean 0x0E6 x sg c s →
    ∃ t, exec (.xvoteBal x) s = .next t ∧
      HomesBecome s t c.wg (lanesOf s c x.ctl.pfx)
        (homeFold s c x fun l w => w.setK x.d.toNat l.lane (l.t.readP x.a.toNat)) fun _ t => t

/-- R24, R127: a special function's result is pending, and returns later. -/
def Says.SpecialFunctionsPend : Prop := Computes specialRows

/-- R127: the special cases of the special functions; a NaN gives the canonical NaN, with invalid if it signals. -/
def Says.SpecialFunctionCases : Prop :=
  ∀ r ∈ specialCases, ∀ i : LaneIn,
    (i.nb = 0xFF800000 → r.fn i = r.negInf) ∧ (i.nb = 0x7F800000 → r.fn i = r.posInf) ∧
    (i.nb = 0x80000000 → r.fn i = r.negZero) ∧ (i.nb = 0 → r.fn i = r.posZero) ∧
    (0x80000000 < i.nb → i.nb < 0xFF800000 → ∀ o, r.below = some o → r.fn i = o) ∧
    (0x7F800000 < i.nb % 2 ^ 31 → r.fn i = patternOut 0x7FC00000 (if i.nb.testBit 22 then 0 else fInvalid))

/-- R115, R61: a lane does not find the format word in its field `k` invalid: it is valid, or the lane is stopped before it
can read it. -/
def FmtRight (op : Nat) (k : Fld) (x : Args) (sg : Sig) (c : Cur) (s : State) (l : Lane) : Prop :=
  (vecFmt? ((readField op sg x l k).setWidth 32)).isSome ∨ formCause (s.wgOf c.wg) op sg x 0 c l = some (illegal c) ∨
    known sg x l k = false

/-- R61: the instruction is refused whole: every active lane takes the illegal-encoding trap. -/
def refusedFor (op : Nat) (x : Args) (sg : Sig) (c : Cur) (s : State) : State :=
  s.lanesBecome c.wg (lanesOf s c x.ctl.pfx) fun g l t =>
    if l.act then t.trap c.pc.pkt c.slot (illegal c)
    else match formCause g op sg x 0 c l with
      | some e => t.trap c.pc.pkt c.slot e
      | none => t

/-- R115, R120, R122, R126: instructions with a format word compute in every lane when no active lane finds it invalid, and
in none when one does. -/
def Says.FormatWordResults : Prop :=
  ∀ r ∈ fmtRows, ∀ (x : Args) (sg : Sig) (c : Cur) (s : State), Issuing r.op x sg c s → noChannel sg x →
    ((∀ l ∈ actives s c x, FmtRight r.op r.field x sg c s l) →
      exec (r.instr x) s = .next (s.lanesBecome c.wg (lanesOf s c x.ctl.pfx) fun g =>
        laneBecomes g r.op sg x c fun l =>
          match vecFmt? (r.word (laneInput g r.op sg x l)) with
          | some f => r.fn f (laneInput g r.op sg x l)
          | none => { v := 0 })) ∧
    ((∃ l ∈ actives s c x, ¬ FmtRight r.op r.field x sg c s l) →
      exec (r.instr x) s = .next (refusedFor r.op x sg c s))

/-- R123, R124, R125: `fqnt` quantises the block of each octet, when the format words of its participants agree; when in some
octet they differ, it has no effect and every participant traps with code 0x03 (R340); it computes in no lane when an active
lane finds the word invalid. -/
def Says.BlockQuantisation : Prop :=
  ∀ (x : Args) (sg : Sig) (c : Cur) (s : State), Issuing 0x144 x sg c s → noChannel sg x →
    let word (l : Lane) : Nat := (laneInput (s.wgOf c.wg) 0x144 sg x l).nb
    let part (l : Lane) : Prop := l ∈ actives s c x ∧ formCause (s.wgOf c.wg) 0x144 sg x 0 c l = none
    ((∃ l m, part l ∧ part m ∧ octetOf l.tid = octetOf m.tid ∧ word l ≠ word m) →
      (∀ l ∈ actives s c x, FmtRight 0x144 .b x sg c s l) →
      exec (.fqntQ8F32 x) s = .next (s.lanesBecome c.wg (lanesOf s c x.ctl.pfx) fun g l t =>
        match formCause g 0x144 sg x 0 c l with
        | some k => t.trap c.pc.pkt c.slot k
        | none => if l.act then t.trap c.pc.pkt c.slot (0x03, 0) else t)) ∧
    ((∀ l m, part l → part m → octetOf l.tid = octetOf m.tid → word l = word m) →
      (∀ l ∈ actives s c x, FmtRight 0x144 .b x sg c s l) →
      exec (.fqntQ8F32 x) s = .next (s.lanesBecome c.wg (lanesOf s c x.ctl.pfx) fun g =>
        laneBecomes g 0x144 sg x c fun l =>
          let ps := (octetParts s c sg x l).map (laneInput g 0x144 sg x)
          match vecFmt? (laneInput g 0x144 sg x l).b32, ps with
          | some f, first :: _ => quantOf f first.mode ps (laneInput g 0x144 sg x l)
          | _, _ => { v := 0 })) ∧
    ((∃ l ∈ actives s c x, ¬ FmtRight 0x144 .b x sg c s l) → exec (.fqntQ8F32 x) s = .next (refusedFor 0x144 x sg c s))

/-- R128, R131: `ftab` evaluates the quadratic of its segment on the active bank, and its result is pending. -/
def Says.ActivationTable : Prop :=
  ∀ (x : Args) (sg : Sig) (c : Cur) (s : State), Issuing 0x14E x sg c s → noChannel sg x → (c.source s).act.isSome →
    exec (.ftabF32 x) s = .next (s.lanesBecome c.wg (lanesOf s c x.ctl.pfx) fun g =>
      laneBecomes g 0x14E sg x c fun l => tableOf (g.act.getD {}) (laneInput g 0x14E sg x l))

/-- R129, R130: `ldtab` loads the inactive bank, and `swtab` makes the bank loaded last the active one. -/
def Says.TableLoadAndSwitch : Prop :=
  (∀ (x : Args) (sg : Sig) (c : Cur) (s : State) (l : Lane) (rest : List Lane), Clean 0x14F x sg c s →
    actives s c x = l :: rest → NoCause s c sg x (ldtabCause x) →
    let q := s.tabBytes (s.wgOf c.wg) l.t (l.h.readS x.a.toNat)
    exec (.ldtab x) s = .next (q.2.modWg c.wg fun g =>
      let a := (g.act.getD {}).load q.1 fun _ => true
      { g with act := some { a with last := some (1 - a.active) } })) ∧
  ∀ (x : Args) (sg : Sig) (c : Cur) (s : State) (a : ActTab), Clean 0x150 x sg c s → actives s c x ≠ [] →
    (c.source s).act.isSome → (s.wgOf c.wg).act = some a →
    exec (.swtab x) s = .next (s.modWg c.wg fun g => { g with act := some { a with active := a.last.getD a.active } })

/-- R79: the table of scalar arithmetic, with the traps of R341; `ssel` chooses by the lowest active lane's predicate and
`smov.v` takes its register. -/
def Says.ScalarResults : Prop :=
  (∀ r ∈ scalarRows, HomesReceive r.op r.instr fun sg x l =>
    r.fn (operand r.op sg x l .a) (operand r.op sg x l .b)) ∧
  (HomesReceive 0x015 .ssel fun sg x l =>
    if l.t.readP (x.fld .f).toNat then operand 0x015 sg x l .a else operand 0x015 sg x l .b) ∧
  HomesReceive 0x019 .smovV fun _ x l => (l.t.readV x.a.toNat).setWidth 64

/-- R80: a scalar compare writes the predicate of every active thread of its home warp. -/
def Says.ScalarCompares : Prop :=
  ∀ r ∈ scalarCompareRows, ∀ (x : Args) (sg : Sig) (c : Cur) (s : State), Issuing r.op x sg c s →
    ∀ P : Lane → Bool, (∀ l, P l = true ↔ r.rel (operand r.op sg x l .a) (operand r.op sg x l .b)) →
    exec (r.instr x) s = .next (s.lanesBecome c.wg (lanesOf s c x.ctl.pfx) fun _ l t =>
      match homeCause s r.op sg x c l with
      | some k => t.trap c.pc.pkt c.slot k
      | none => if l.act then t.writeP x.d.toNat (P l) else t)

/-- R85, R341: `br` moves the threads where the predicate XOR NEG is 1 to the packet plus the offset; a predicate that does
not exist, is pending or cannot be read traps in its lane. -/
def Says.ConditionalBranch : Prop :=
  ∀ (x : ArgsJ) (c : Cur) (s : State), s.cur = some c → c.lanes.Nodup →
    exec (.br x) s = .next (s.lanesBecome c.wg (lanesOf s c none) fun _ l t =>
      if 47 < x.pred.toNat then t.trap c.pc.pkt c.slot (illegal c)
      else if Dest.p x.pred.toNat ∈ l.t.pending then t.trap c.pc.pkt c.slot (hazard c)
      else if Dest.p x.pred.toNat ∈ l.t.spoilt then t.trap c.pc.pkt c.slot (0x13, 0)
      else if l.t.readP x.pred.toNat ^^ x.neg then t.goTo (((c.pc.pkt : Int) + x.off.toInt) % 2 ^ 64).toNat else t)

/-- R85: the branches to absolute packets, and the link of `call`. -/
def Says.AbsoluteBranches : Prop := EachLaneDoes jumpRows

/-- R216, R218, R219: software traps, leaving a restore handler, and the work counters. -/
def Says.SystemLanes : Prop := EachLaneDoes systemRows

/-- R219: `flane` writes the lanes of each home warp in the formed warp to a mask. -/
def Says.FormedLanes : Prop :=
  ∀ (x : Args) (sg : Sig) (c : Cur) (s : State), Clean 0x1FB x sg c s →
    ∃ t, exec (.flane x) s = .next t ∧ HomesBecome s t c.wg (lanesOf s c x.ctl.pfx) (fun h w =>
      if (lowest s c x h).isSome then w.writeK x.d.toNat (bits64 fun i =>
        (lanesOf s c none).any fun m => m.hw == h && m.lane == i) else w) fun _ t => t

/-- R17: the all-zero word changes nothing. -/
def Says.NoOperation : Prop := ∀ s : State, exec .nop s = .next s

/-- R218: `park` in a pre-empt handler ends it, and parks the thread while its workgroup is pre-empted; elsewhere nothing
changes. -/
def Says.ParkEndsHandler : Prop :=
  ∀ (x : Args) (sg : Sig) (c : Cur) (s : State), Clean 0x1FA x sg c s → NothingOwed s c →
    exec (.park x) s = .next (s.lanesBecome c.wg (lanesOf s c x.ctl.pfx) fun g l t =>
      if l.act ∧ t.priv = false ∧ t.user = .preemptHandler then { t.popFrame with parked := g.status == .preempting } else t)

/-- R220, R348: the privileged registers: `tpos`, `tval`, and the error log through `elix`. -/
def Says.PrivilegedRegisters : Prop :=
  ∀ (x : Args) (sg : Sig) (c : Cur) (s : State), (∀ l ∈ actives s c x, l.t.priv = true) →
    (Clean 0x1FC x sg c s → x.a.toNat < 8 → exec (.rdpr x) s = .next (s.lanesBecome c.wg (lanesOf s c x.ctl.pfx) fun g l t =>
      if l.act then
        let d := s.dieAt (g.core / 64)
        let e := Tab.get {} d.log d.elix.toNat
        let v : W64 := [l.t.tpos.setWidth 64, l.t.tval, d.elix.setWidth 64, d.elcnt.setWidth 64, e.w0, e.w1, e.w2, e.w3].getD
          x.a.toNat 0
        if x.a.toNat = 1 ∨ 4 ≤ x.a.toNat
        then (t.writeV x.d.toNat (v.setWidth 32)).writeV (x.d.toNat + 1) ((v >>> 32).setWidth 32)
        else t.writeV x.d.toNat (v.setWidth 32)
      else t)) ∧
    (Clean 0x1FC x sg c s → x.d = 0 → (∀ l ∈ actives s c x, (l.t.readV x.a.toNat).toNat < 2 ^ 30) →
      exec (.wrpr x) s = .next (s.lanesBecome c.wg (lanesOf s c x.ctl.pfx) fun _ l t =>
        if l.act then { t with tpos := l.t.readV x.a.toNat, cont := none, contSettle := false } else t)) ∧
    (Clean 0x1FC x sg c s → x.d ≠ 0 → (∀ l ∈ actives s c x, (l.t.readV x.a.toNat).toNat ≤ 255) →
      ∀ l, (actives s c x).getLast? = some l →
      exec (.wrpr x) s = .next (s.modDie ((s.wgOf c.wg).core / 64) fun d => { d with elix := l.t.readV x.a.toNat }))

/-- R221: `tlbi` removes from every TLB of both dies the translations its control word names: all, those of an ASID, or those of
an ASID that cover an address. -/
def Says.TlbInvalidates : Prop :=
  ∀ (x : Args) (sg : Sig) (c : Cur) (s : State) (h : Nat) (l : Lane), Clean 0x1FD x sg c s → NothingOwed s c →
    OneHome s c h → lowest s c x h = some l → (∀ m ∈ actives s c x, m.t.priv = true) →
    let ctl := (l.h.readS x.b.toNat).toNat
    let va := (l.h.readS x.a.toNat).toNat
    ctl < 2 ^ 18 →
    let gone (e : Tlb) : Bool := decide (ctl.testBit 17 ∨ (e.asid = ctl % 2 ^ 16 ∧ (ctl.testBit 16 ∨
      (va < 2 ^ 48 ∧ e.vpn ≤ va / 4096 ∧ va / 4096 < e.vpn + e.pages))))
    exec (.tlbi x) s = .next { s with
      cores := Tab.map (fun _ k => { k with tlb := k.tlb.filter fun e => !gone e }) s.cores
      dies := Tab.map (fun _ d => { d with tlb := d.tlb.filter fun e => !gone e }) s.dies }

/-- A value that `wrpr` writes, and a control word of `tlbi`, of the form R220 and R221 give it. -/
def wrprValue (x : Args) (l : Lane) : Prop := (l.t.readV x.a.toNat).toNat < if x.d = 0 then 2 ^ 30 else 256
def tlbiValue (x : Args) (l : Lane) : Prop := (l.h.readS x.b.toNat).toNat < 2 ^ 18

/-- R44: outside a privileged handler `sret`, `rply`, `rdpr` and `wrpr` trap with code 0x11 in their lane, `tlbi` in every
active lane of its home warp, where no value is illegal (R341). -/
def Says.PrivilegeTraps : Prop :=
  ∀ r ∈ ([(0x1FA, .sret, fun _ _ => True), (0x1FA, .rply, fun _ _ => True), (0x1FC, .rdpr, fun _ _ => True),
      (0x1FC, .wrpr, wrprValue), (0x1FD, .tlbi, tlbiValue)] : List (Nat × (Args → Instr) × (Args → Lane → Prop))),
    ∀ (x : Args) (sg : Sig) (c : Cur) (s : State), Clean r.1 x sg c s →
      (∀ l ∈ actives s c x, l.t.priv = false ∧ r.2.2 x l) →
      exec (r.2.1 x) s = .next (s.lanesBecome c.wg (lanesOf s c x.ctl.pfx) fun _ l t =>
        if l.act then t.trap c.pc.pkt c.slot (0x11, 0) else t)

/-- R132, R134, R137, R138: loads, each lane from the L1, the Porch or its home. -/
def Says.LoadsIssue : Prop := LanesAccess loadRows

/-- R141: loads at home. -/
def Says.HomeLoadsIssue : Prop := LanesAccess homeLoadRows

/-- R143, R311: loads of sealed bytes under a version of at most 16 bits; a larger one traps in every lane that names it. -/
def Says.SealedLoadsIssue : Prop :=
  ∀ r ∈ sealedLoadRows, ∀ (x : Args) (sg : Sig) (c : Cur) (s : State), Clean r.op x sg c s → NothingOwed s c →
    ((∀ l ∈ actives s c x, (l.h.readS x.b.toNat).toNat ≤ 0xFFFF ∧ Reaches s c false r.size (plainVa x r.size l) l) →
      exec (r.instr x) s = .next ((actives s c x).foldl (r.one x c) (s.zeroed c sg x))) ∧
    ((∀ l ∈ actives s c x, 0xFFFF < (l.h.readS x.b.toNat).toNat) → ∃ t, exec (r.instr x) s = .next t ∧
      ∀ l ∈ actives s c x, IsThread s c.wg (fun u => u.trapSlot = none) l.tid →
        (t.thread c.wg l.tid).tcause = 0x01 ∧ (t.thread c.wg l.tid).trapSlot = some c.slot ∧
        (t.thread c.wg l.tid).v = (s.thread c.wg l.tid).v)

/-- R142: a prefetch never traps on its address; a lane whose translation is in no TLB, or whose line may not be read or
cached, does nothing. -/
def Says.PrefetchHints : Prop :=
  ∀ (x : Args) (sg : Sig) (c : Cur) (s : State), Clean 0x1A8 x sg c s →
    exec (.pf x) s = .next ((actives s c x).foldl (prefetchLane x c) (s.zeroed c sg x))

/-- R137, R138, R299: stores, core-weak or written through. -/
def Says.StoresIssue : Prop := LanesAccess storeRows

/-- R144, R145: atomics on memory, the lanes that name one address together. -/
def Says.AtomicsIssue : Prop :=
  AddressesAccess [amoRow 0x1A9 .amoB32 4, amoRow 0x1AA .amoB64 8] (fun _ _ => True) fun _ _ _ s => s

/-- R147: reductions, the lanes of one address combined in ascending home lane order. -/
def Says.ReductionsIssue : Prop :=
  AddressesAccess [redRow 0x1AD .redN8 1, redRow 0x1AE .redB32 4, redRow 0x1AF .redB64 8] (fun _ _ => True) fun _ _ _ s => s

/-- R148: window contributions, summed exactly, with the flags of each lane's conversion. -/
def Says.WindowsAdd : Prop :=
  ∀ f : Bool, AddressesAccess [if f then redwRow 0x1B0 .redwF32 true else redwRow 0x1B1 .redwS32 false]
    (fun x l => (windowExp (l.h.readS x.d.toNat)).isSome)
    fun _ x c s => s.lanesBecome c.wg (lanesOf s c x.ctl.pfx) fun _ l t =>
      if l.act then t.raise (windowPart x f l).2 else t

/-- R149: finalising a window slot, under a window exponent that R70 allows. -/
def Says.WindowFinalises : Prop :=
  ∀ r ∈ finRows, ∀ (x : Args) (sg : Sig) (c : Cur) (s : State), Clean r.op x sg c s → NothingOwed s c →
    (∀ l ∈ actives s c x, (windowExp (l.h.readS x.b.toNat)).isSome ∧ Reaches s c true 8 (plainVa x 8 l) l) →
    exec (r.instr x) s = .next ((actives s c x).foldl (r.one x c) (s.zeroed c sg x))

/-- R140: loads from the scratchpad: the bytes as they are, pending. -/
def Says.SpadLoads : Prop :=
  ∀ r ∈ spadLoadRows, ∀ (x : Args) (sg : Sig) (c : Cur) (s : State), Clean r.op x sg c s →
    (∀ l ∈ actives s c x, InSpad (c.source s) r.size (spadOff x r.size l) ∧
      (s.wgOf c.wg).spadBad (spadOff x r.size l).toNat r.size false = false) →
    ∃ p : Workgroup → W32, exec (r.instr x) s = .next ((s.lanesBecome c.wg (lanesOf s c x.ctl.pfx) fun g l t =>
      if l.act then
        t.awaits c ((List.range (max 1 (r.size / 4))).map fun i => .v (x.d.toNat + i))
          (.ready (loadedWrites x r.size r.signed (spadValue g.spad (spadOff x r.size l).toNat r.size)) 0) none
      else if x.z then t.take (zeroWrites sg x) else t).modWg c.wg fun g => { g with spass := p g })

/-- R140: stores to the scratchpad: of lanes that store to one byte, the highest home lane decides; every other byte is as
before. A word that a lane covers whole is correctable again (R347). -/
def Says.SpadStores : Prop :=
  ∀ r ∈ spadStoreRows, ∀ (x : Args) (sg : Sig) (c : Cur) (s : State), Clean r.op x sg c s →
    (∀ l ∈ actives s c x, InSpad (c.source s) r.size (spadOff x r.size l) ∧
      (s.wgOf c.wg).spadBad (spadOff x r.size l).toNat r.size true = false) →
    ∃ (p : Workgroup → W32) (m : Tab Byte → Tab Byte), (∀ tab (o : Nat), Tab.get 0 (m tab) o =
        match (actives s c x).reverse.find? fun l =>
          decide (spadOff x r.size l ≤ o ∧ o < spadOff x r.size l + r.size) with
        | some l => (storedBytes x r.size l).getD (o - (spadOff x r.size l).toNat) 0
        | none => Tab.get 0 tab o) ∧
      exec (r.instr x) s = .next ((s.zeroed c sg x).modWg c.wg fun g => { g with
        spad := m g.spad
        spass := p g
        spoilt := g.spoilt.filter fun b => match b with
          | .word n => !(actives s c x).any fun l =>
              decide (spadOff x r.size l ≤ 4 * n ∧ 4 * n + 4 ≤ spadOff x r.size l + r.size)
          | _ => true })

/-- R146: atomics on the scratchpad, lane after lane: each receives the value before it. -/
def Says.SpadAtomics : Prop :=
  ∀ r ∈ spadAtomicRows, ∀ (x : Args) (sg : Sig) (c : Cur) (s : State), Clean r.op x sg c s → NothingOwed s c →
    (∀ l ∈ actives s c x, InSpad (c.source s) r.size (l.t.readV x.a.toNat).toNat ∧
      (s.wgOf c.wg).spadBad (l.t.readV x.a.toNat).toNat r.size false = false) →
    ∃ p : Workgroup → W32, exec (r.instr x) s = .next ((s.lanesBecome c.wg (lanesOf s c x.ctl.pfx) fun g l t =>
      if l.act then
        let before := ((actives s c x).takeWhile (·.tid != l.tid)).foldl (amosOne x r.size) g.spad
        let old := spadValue before (l.t.readV x.a.toNat).toNat r.size
        let opn := x.b.toNat % 16
        let bs := natOfBytes (storedBytes x (if opn = 10 then 2 * r.size else r.size) l)
        t.awaits c ((List.range (r.size / 4)).map fun i => .v (x.d.toNat + i))
          (.ready (loadedWrites x r.size false old)
            (atomicOf opn r.size (modeOf x.ctl.pfx l.t) old (bs % 2 ^ (8 * r.size)) (bs / 2 ^ (8 * r.size))).2) none
      else if x.z then t.take (zeroWrites sg x) else t).modWg c.wg fun g =>
        { g with spad := (actives s c x).foldl (amosOne x r.size) g.spad, spass := p g })

/-- R150, R151, R300: a fence whose waits are over. From die scope on the core's core-weak stores leave, and an acquire moves
its acquire tick; `fence.sys` answers whether every write to a peer or the host since the last one arrived. -/
def Says.FenceCompletes : Prop :=
  ∀ (x : Args) (sg : Sig) (c : Cur) (s : State), Clean 0x1B4 x sg c s → NothingOwed s c →
    let sc := x.b.toNat % 4
    let core := (s.wgOf c.wg).core
    let t := (if sc ≠ 0 ∧ actives s c x ≠ [] then (s.flushCore core).2 else s).lanesBecome c.wg (lanesOf s c x.ctl.pfx) fun _ l t =>
      if l.act && sc == 3 then
        if x.d = 0 then { t with lost := false }
        else { t with lost := false }.awaits c (destRegs sg x)
          (.ready [⟨.p x.d.toNat, if t.lost then 0 else 1⟩] 0) none
      else t
    exec (.fence x) s = .next (if x.b.getLsbD 2 ∧ sc ≠ 0 ∧ actives s c x ≠ [] then
      t.modCore core fun k => { k with acq := s.hb } else t)

/-- R152, R335: `fsc` whose waits are over acquires at device scope and takes its place in the order of fences. -/
def Says.SequentialFence : Prop :=
  ∀ (x : Args) (sg : Sig) (c : Cur) (s : State), Clean 0x1B5 x sg c s → NothingOwed s c → actives s c x ≠ [] →
    let core := (s.wgOf c.wg).core
    exec (.fsc x) s = .next { s.modCore core (fun k => { k with acq := s.hb }) with
      fscOrder := s.fscOrder ++ (homesOf (actives s c x)).flatMap fun h =>
        ((homeActives s c x h).map fun l => (l.t.fscTick, core, l.hw, l.t.fscStamp)).dedup }

/-- R153: a `waddr` whose value has come goes on. -/
def Says.WaitAddressOver : Prop :=
  ∀ w : Bool, ∀ (x : Args) (sg : Sig) (c : Cur) (s : State), Clean (if w then 0x1B7 else 0x1B6) x sg c s →
    (∀ l ∈ actives s c x, l.t.passed c.slot ≠ 0) →
    exec (if w then .waddrB64 x else .waddrB32 x) s = .next (s.zeroed c sg x)

/-- R81: scalar loads, complete at once: the bytes of the core's own copy or of the home, extended. -/
def Says.ScalarLoads : Prop :=
  ∀ r ∈ sldRows, ∀ (x : Args) (sg : Sig) (c : Cur) (s : State) (h : Nat) (l : Lane) (pa : Nat), Clean r.op x sg c s →
    OneHome s c h → lowest s c x h = some l →
    let va := scalarBase x r.size l
    va.toNat % r.size = 0 → va.toNat < 2 ^ 48 → AllReach s c x false va pa →
    (∀ g ∈ [s.wgOf c.wg, c.source s], s.loadStops g.core g.ctx.asid pa r.size = none) →
    let g := s.wgOf c.wg
    let q := (s.countMiss c.wg pa r.size).loadSync g.core g.ctx.asid pa r.size
    let n := natOfBytes q.1
    exec (r.instr x) s = .next (q.2.writeScalar c h x.d.toNat
      (if r.signed then BitVec.ofInt 64 (signedLow (8 * r.size) n) else BitVec.ofNat 64 n))

/-- R81: scalar stores: the low bytes of s[h][D], core-weak, for the active threads of the home warp. -/
def Says.ScalarStores : Prop :=
  ∀ r ∈ sstRows, ∀ (x : Args) (sg : Sig) (c : Cur) (s : State) (h : Nat) (l : Lane) (pa : Nat), Clean r.op x sg c s →
    OneHome s c h → lowest s c x h = some l →
    let va := scalarBase x r.size l
    va.toNat % r.size = 0 → va.toNat < 2 ^ 48 → AllReach s c x true va pa →
    exec (r.instr x) s = .next (s.weakStore c (s.wgOf c.wg) pa va
      ((List.range r.size).map fun i => BitVec.ofNat 8 ((l.h.readS x.d.toNat).toNat / 256 ^ i)) ((actives s c x).map (·.tid)))

/-- R82: a word of the argument block: as it was at bind, or as memory holds it now. -/
def Says.ArgumentWord : Prop :=
  ∀ (x : Args) (sg : Sig) (c : Cur) (s : State) (h : Nat) (l : Lane), Clean 0x018 x sg c s → OneHome s c h →
    lowest s c x h = some l →
    let off := (scalarBase x 8 l).toNat
    let g := s.wgOf c.wg
    off % 8 = 0 → off < (c.source s).argLen →
    ∃ v, (v = Tab.get 0 g.argWords (off / 8) ∨ ∃ pa, (s.locate g.core g.ctx.asid g.ctx.root ⟨false, false, true⟩
        (g.args + BitVec.ofNat 64 off)).1 = .ok pa ∧ v = BitVec.ofNat 64 (s.natAt pa 8)) ∧
      exec (.sldk x) s = .next ({ s with fresh := s.fresh + 1 }.writeScalar c h x.d.toNat v)

/-- R49, R50, R83: reading a special register: one register, or an even pair for 64 bits. -/
def Says.SpecialRegisterRead : Prop :=
  ∀ (x : Args) (sg : Sig) (c : Cur) (s : State), Clean 0x016 x sg c s →
    exec (.rdsr x) s = .next (s.lanesBecome c.wg (lanesOf s c x.ctl.pfx) fun _ l t =>
      if l.act then
        let v := specialOf s c l x.a.toNat
        if specRegs (c.source s) x.a.toNat = 2
        then (t.writeV x.d.toNat (v.setWidth 32)).writeV (x.d.toNat + 1) ((v >>> 32).setWidth 32)
        else t.writeV x.d.toNat (v.setWidth 32)
      else t)

/-- R49, R50: writing `%rm` and `%fflags` in each active lane, and `%faultm` and `%psave` once for each home warp. -/
def Says.SpecialRegisterWrite : Prop :=
  ∀ (x : Args) (sg : Sig) (c : Cur) (s : State), Clean 0x017 x sg c s →
    (x.d = 13 → (∀ l ∈ actives s c x, 1 ≤ (l.t.readV x.a.toNat).toNat ∧ (l.t.readV x.a.toNat).toNat ≤ 6) →
      exec (.wrsr x) s = .next (s.lanesBecome c.wg (lanesOf s c x.ctl.pfx) fun _ l t =>
        if l.act then { t with rm := (l.t.readV x.a.toNat).setWidth 3 } else t)) ∧
    (x.d = 14 → exec (.wrsr x) s = .next (s.lanesBecome c.wg (lanesOf s c x.ctl.pfx) fun _ l t =>
        if l.act then { t with fflags := (l.t.readV x.a.toNat).setWidth 5 } else t)) ∧
    (x.d = 16 → ∃ t, exec (.wrsr x) s = .next t ∧ HomesBecome s t c.wg (lanesOf s c x.ctl.pfx) (fun h w =>
        match lowest s c x h with
        | some l => { w with faultm := if (c.source s).hdr.width = 64 then l.t.readPair x.a.toNat
            else BitVec.ofNat 64 ((l.t.readV x.a.toNat).toNat % 2 ^ (c.source s).hdr.width) }
        | none => w) fun _ t => t) ∧
    (x.d = 19 → ∃ t, exec (.wrsr x) s = .next t ∧ HomesBecome s t c.wg (lanesOf s c x.ctl.pfx) (fun h w =>
        match lowest s c x h with
        | some l => { w with psave := l.t.readPair x.a.toNat }
        | none => w) fun _ t => t)

/-- R87, R88: `meet` pushes the meeting register, opens a meeting at its address and mask, and sets the thread's bit. -/
def Says.MeetingOpens : Prop :=
  ∀ (x : Args) (sg : Sig) (c : Cur) (s : State), Clean 0x045 x sg c s →
    (∀ l ∈ actives s c x, (operand 0x045 sg x l .b).toNat < 2 ^ 27 ∧
      (operand 0x045 sg x l .b).toNat < (c.source s).codeLen l.t ∧ l.t.depth ≠ (c.source s).hdr.depth) →
    ∃ t, exec (.meet x) s = .next t ∧
      HomesBecome s t c.wg (lanesOf s c x.ctl.pfx) (homeFold s c x fun l w => w.setK x.d.toNat l.lane true) fun l t =>
        if l.act then { t with
          entries := Tab.set 0 t.entries t.depth t.meet, depth := t.depth + 1
          meet := BitVec.ofNat 32 ((operand 0x045 sg x l .b).toNat % 2 ^ 27 + x.d.toNat % 16 * 2 ^ 27 + 2 ^ 31) } else t

/-- R90: `jn` sets the bits of the active lanes in a mask of their home warps, `lv` clears them. -/
def Says.JoinAndLeave : Prop :=
  ∀ j : Bool, ∀ (x : Args) (sg : Sig) (c : Cur) (s : State), Clean (if j then 0x046 else 0x047) x sg c s →
    ∃ t, exec (if j then .jn x else .lv x) s = .next t ∧
      HomesBecome s t c.wg (lanesOf s c x.ctl.pfx) (homeFold s c x fun l w => w.setK x.d.toNat l.lane j) fun _ t => t

/-- R93: `elect` sets its predicate in the lowest active waiting lane of each home warp, and clears it in the others. -/
def Says.ElectChoosesOne : Prop :=
  ∀ (x : Args) (sg : Sig) (c : Cur) (s : State), Clean 0x04B x sg c s →
    exec (.elect x) s = .next (s.lanesBecome c.wg (lanesOf s c x.ctl.pfx) fun _ l t =>
      if l.act then
        t.writeP x.d.toNat (((homeActives s c x l.hw).find? fun m => c.gathered || m.h.bitK x.a.toNat m.lane).any fun m =>
          m.tid == l.tid)
      else t)

/-- R97: `yield` holds its active threads until the other groups ready now have issued. -/
def Says.YieldHolds : Prop :=
  ∀ (x : Args) (sg : Sig) (c : Cur) (s : State), Clean 0x04C x sg c s → NothingOwed s c →
    exec (.yield x) s = .next (s.lanesBecome c.wg (lanesOf s c x.ctl.pfx) fun g l t =>
      if l.act then { t with hold := .yield (g.otherGroups c) 0 } else t)

/-- R94, R95: `exit` and `tail` end the active threads and take them out of every mask; `tail` records its successor. -/
def Says.ThreadsEnd : Prop :=
  ∀ e : Bool, ∀ (x : Args) (sg : Sig) (c : Cur) (s : State), Clean (if e then 0x048 else 0x049) x sg c s → NothingOwed s c →
    ∃ t, exec (if e then .exit x else .tail x) s =
        .next (t.modWg c.wg fun g =>
          { g with tails := if e then g.tails else g.tails ++ (actives s c x).map (fun l =>
              ⟨l.h.readS x.a.toNat, l.h.readS x.b.toNat⟩) }) ∧
      HomesBecome s t c.wg (lanesOf s c x.ctl.pfx) (homeFold s c x fun l w => w.forget l.lane) fun l t =>
        if l.act then t.over (!e) else t

/-- R96, R248: `spawn` of an idle block of a registered table writes 1 (armed) to its state word and signals the Hearth. -/
def Says.SpawnArms : Prop :=
  ∀ (x : Args) (sg : Sig) (c : Cur) (s : State) (h : Nat) (l : Lane) (pa : Nat) (t : RTable), Clean 0x04A x sg c s →
    NothingOwed s c → OneHome s c h → lowest s c x h = some l → (c.source s).ctx = (s.wgOf c.wg).ctx →
    let va := l.h.readS x.a.toNat
    va.toNat % 256 = 0 → va.toNat < 2 ^ 48 → AllReach s c x true va pa →
    s.tableFor (s.wgOf c.wg).ctx va.toNat = some t → t.deregistering = false → s.natAt pa 4 = 0 → s.isBad pa = false →
    exec (.spawn x) s = .next ((s.applyNow pa [1, 0, 0, 0]).arm t pa)

/-- R160, R162: a released `bar` has its effect at its release; a released `gbar` acquires at device scope. -/
def Says.BarriersPass : Prop :=
  (∀ (x : Args) (sg : Sig) (c : Cur) (s : State), Clean 0x1C0 x sg c s → NothingOwed s c → exec (.bar x) s = .next s) ∧
  ∀ (x : Args) (sg : Sig) (c : Cur) (s : State), Clean 0x1C1 x sg c s → NothingOwed s c → (c.source s).hdr.gbar = true →
    (c.source s).byTail = false →
    exec (.gbar x) s = .next (if c.gathered then s.modCore (c.source s).core fun k => { k with acq := s.hb } else s)

/-- R165, R166, R167: `mbini`, `mbarv`, `mbtry` and an `mbwt` whose wait is over, on a word of the scratchpad. -/
def Says.PhaseBarriers : Prop :=
  ∀ (x : Args) (sg : Sig) (c : Cur) (s : State) (h : Nat) (l : Lane), OneHome s c h → lowest s c x h = some l →
    let off := (l.h.readS x.a.toNat).toNat
    let b := l.h.readS x.b.toNat
    let g := s.wgOf c.wg
    let w := BitVec.ofNat 64 (g.spadRead off 8)
    off % 8 = 0 → off + 8 ≤ g.hdr.spad → g.spadBad off 8 false = false →
    (Clean 0x1C2 x sg c s → 1 ≤ b.toNat → b.toNat ≤ 65535 →
      exec (.mbini x) s = .next (s.modWg c.wg fun g => { g.setWord off b with spass := g.spass + 1 })) ∧
    (Clean 0x1C3 x sg c s → NothingOwed s c → 1 ≤ b.toNat → b.toNat ≤ 65535 → pbOk w = true →
      (arriveWord w b.toNat).2 = false ∨ g.hdr.surplus = false →
      exec (.mbarv x) s = .next (s.modWg c.wg fun g =>
        { (g.setWord off (arriveWord w b.toNat).1).modHw h (·.writeS x.d.toNat (BitVec.ofNat 64 (w.toNat / 2 ^ 32 % 2)))
          with spass := g.spass + 1 })) ∧
    (Clean 0x1C5 x sg c s → pbOk w = true →
      exec (.mbtry x) s = .next (s.modWg c.wg fun g =>
        { g.modHw h (·.writeS x.d.toNat (if w.getLsbD 32 = b.getLsbD 0 then 0 else 1)) with spass := g.spass + 1 })) ∧
    (Clean 0x1C4 x sg c s → NothingOwed s c → (∀ m ∈ actives s c x, m.t.passed c.slot ≠ 0) →
      exec (.mbwt x) s = .next (s.modWg c.wg fun g => { g with spass := g.spass + 1 }))

/-- R165: an arrival of n: fewer than missing adds to ARR; as many as missing ends the phase; more ends it and sets SUR. -/
def Says.PhaseArrival : Prop :=
  ∀ exp arr ph sur n : Nat, 0 < exp → exp < 2 ^ 16 → arr < exp → ph < 2 → sur < 2 → 0 < n → n < 2 ^ 16 →
    arriveWord (phaseWord exp arr ph sur) n =
      if arr + n < exp then (phaseWord exp (arr + n) ph sur, false)
      else (phaseWord exp 0 (1 - ph) (if exp < arr + n then 1 else sur), decide (exp < arr + n))

/-- R165, R340: an arrival beyond EXP, where the kernel asks for the check, traps every active thread of its home warp with
code 0x05 and the new word, after its effect. -/
def Says.SurplusTraps : Prop :=
  ∀ (x : Args) (sg : Sig) (c : Cur) (s : State) (h : Nat) (l : Lane), OneHome s c h → lowest s c x h = some l →
    let off := (l.h.readS x.a.toNat).toNat
    let b := l.h.readS x.b.toNat
    let g := s.wgOf c.wg
    let w := BitVec.ofNat 64 (g.spadRead off 8)
    off % 8 = 0 → off + 8 ≤ g.hdr.spad → g.spadBad off 8 false = false → Clean 0x1C3 x sg c s → NothingOwed s c → 1 ≤ b.toNat → b.toNat ≤ 65535 →
    pbOk w = true →
    (arriveWord w b.toNat).2 = true → g.hdr.surplus = true →
    ∃ t, exec (.mbarv x) s = .next t ∧ (t.wgOf c.wg).spadRead off 8 = (arriveWord w b.toNat).1.toNat ∧
      ((t.wgOf c.wg).hw h).readS x.d.toNat = BitVec.ofNat 64 (w.toNat / 2 ^ 32 % 2) ∧
      ∀ m ∈ actives s c x, (Tab.find g.threads m.tid).isSome → (g.thread m.tid).trapSlot = none →
        ((t.wgOf c.wg).thread m.tid).tcause = 0x05 ∧ ((t.wgOf c.wg).thread m.tid).tval = (arriveWord w b.toNat).1

/-- R175, R176, R181: `mst` claims the array, numbers a generation, and queues the load of a plane. -/
def Says.PlaneStore : Prop :=
  ∀ (x : Args) (sg : Sig) (c : Cur) (s : State) (l : Lane) (rest : List Lane), Clean 0x1D0 x sg c s →
    actives s c x = l :: rest → NoCause s c sg x (mstCause x) →
    let w := l.t.readV x.b.toNat
    ((fmtWord? w).any (fun f => f.scale != 0 && f.b.is8) = true →
      x.ctl.pfx.isSome ∧ (s.wgOf c.wg).scaleRecOk (fVal x l).toNat true = true) →
    let gen := ((s.wgOf c.wg).matrix.getD {}).g + 1
    ∃ sc, exec (.mst x) s = .next (((s.modWg c.wg fun g =>
        (homesOf (actives s c x)).foldl (fun g h => g.modHw h (·.writeS x.d.toNat (BitVec.ofNat 64 gen)))
          { g with matrix := some { g.matrix.getD {} with g := gen, fmts := Tab.put (g.matrix.getD {}).fmts gen w } }).mxPut c.wg
        ((actives s c x).map (·.tid)) (.load gen (l.t.readV x.a.toNat).toNat w sc)).modWg c.wg (·.startLoad)) ∧
      (sc.isSome ↔ (fmtWord? w).any fun f => f.scale != 0 && f.b.is8)

/-- R177: `mflip` of a generation assigned already is queued. -/
def Says.PlaneFlip : Prop :=
  ∀ (x : Args) (sg : Sig) (c : Cur) (s : State) (l : Lane) (rest : List Lane), Clean 0x1D1 x sg c s →
    actives s c x = l :: rest → s.arrayFree c.wg = true →
    let n := (l.h.readS x.a.toNat).toNat
    1 ≤ n → n ≤ ((s.wgOf c.wg).matrix.getD {}).g →
    exec (.mflip x) s = .next ((s.modWg c.wg fun g =>
      { g with matrix := some { g.matrix.getD {} with flipped := max (g.matrix.getD {}).flipped n } }).mxPut c.wg
        ((actives s c x).map (·.tid)) (.flip n))

/-- R183, R184, R186, R188: a matrix operation on rows is queued once for each octet group. -/
def Says.MatrixOperationsQueue : Prop :=
  ∀ (x : Args) (sg : Sig) (c : Cur) (s : State),
    (∀ scaled : Bool, Clean (if scaled then 0x1D3 else 0x1D2) x sg c s → actives s c x ≠ [] → NoCause s c sg x (mmaCause x scaled) →
      (∀ l ∈ actives s c x, (mmaIll x scaled).at_ s c sg x l = false) →
      exec (if scaled then .mmas x else .mma x) s = .next (queued (s.modWg c.wg fun g => { g with matrix := some (g.matrix.getD {}) })
        c x fun o first ls s' => .pass o x.d.toNat (first.h.readS x.b.toNat).toNat (fVal x first) (ls.map fun l =>
          { lane := l.lane % 8, tid := l.tid, off := (l.t.readV x.a.toNat).toNat
            scale := if scaled then some ((s'.wgOf c.wg).scaleRec (l.t.readV ((x.fld .f).toNat + 1)).toNat) else none }))) ∧
    (Clean 0x1D4 x sg c s → exec (.mzero x) s = .next (queued s c x fun o _ ls _ =>
      .zero o x.d.toNat (ls.map fun l => { lane := l.lane % 8, tid := l.tid }))) ∧
    (Clean 0x1D5 x sg c s → actives s c x ≠ [] →
      (∀ l ∈ actives s c x, (fmtWord? (fVal x l)).isSome ∧ (∀ m ∈ octetLanes (actives s c x) l, fVal x m = fVal x l) ∧
        (l.t.readV x.a.toNat).toNat % 16 = 0 ∧ ∀ f, fmtWord? (fVal x l) = some f →
          (l.t.readV x.a.toNat).toNat + 64 * drainBytes f (x.b.toNat % 4) ≤ (s.wgOf c.wg).hdr.spad) →
      exec (.mdr x) s = .next (queued s c x fun o first ls _ => .drain o x.d.toNat (fVal x first) (x.b.toNat % 4)
        (ls.map fun l => { lane := l.lane % 8, tid := l.tid, off := (l.t.readV x.a.toNat).toNat
                           mode := modeOf x.ctl.pfx l.t }))) ∧
    (Clean 0x1D7 x sg c s → actives s c x ≠ [] →
      (∀ l ∈ actives s c x, (fmtWord? (fVal x l)).isSome ∧ ∀ m ∈ octetLanes (actives s c x) l, fVal x m = fVal x l) →
      exec (.mbyp x) s = .next (queued s c x fun o first ls _ => .bypass o x.d.toNat (fVal x first)
        (ls.map fun l => { lane := l.lane % 8, tid := l.tid, mode := modeOf x.ctl.pfx l.t })))

/-- R174, R188: `mdrv` converts eight columns of its row of the tile into registers, with their flags. -/
def Says.DrainToRegisters : Prop :=
  ∀ (x : Args) (sg : Sig) (c : Cur) (s : State), Clean 0x1D6 x sg c s → x.z = false →
    (∀ l ∈ actives s c x, mdrvCause (c.source s) sg x c (actives s c x) l = none) →
    exec (.mdrv x) s = .next (s.lanesBecome c.wg (lanesOf s c x.ctl.pfx) fun g l t =>
      match if l.act then fmtWord? (fVal x l) else none with
      | none => t
      | some f =>
        let e (j : Nat) : Nat × Flags := drainElem f (x.b.toNat % 4) (modeOf x.ctl.pfx l.t)
          (g.accElem (octetOf l.tid) x.a.toNat (l.lane % 8) (8 * (x.b.toNat / 4 % 8) + j))
        let bytes := (List.range 8).flatMap fun j => bytesOfNat (e j).1 (drainBytes f (x.b.toNat % 4))
        ((List.range (2 * drainBytes f (x.b.toNat % 4))).foldl (fun t i =>
          t.writeV (x.d.toNat + i) (BitVec.ofNat 32 (natOfBytes ((bytes.drop (4 * i)).take 4)))) t).raise
            ((List.range 8).foldl (fun acc j => acc ||| (e j).2) 0))

/-- R189, R190: `mvote` says whether an octet group's words are one valid format; `mstat` reads an item of the array. -/
def Says.MatrixInspection : Prop :=
  (∀ (x : Args) (sg : Sig) (c : Cur) (s : State), Clean 0x1D8 x sg c s →
    exec (.mvote x) s = .next (s.lanesBecome c.wg (lanesOf s c x.ctl.pfx) fun _ l t =>
      if l.act then t.writeP x.d.toNat ((fmtWord? (l.t.readV x.a.toNat)).isSome &&
        (octetLanes (actives s c x) l).all fun m => m.t.readV x.a.toNat == l.t.readV x.a.toNat)
      else t)) ∧
  ∀ (x : Args) (sg : Sig) (c : Cur) (s : State), Clean 0x1D9 x sg c s →
    (∀ l ∈ actives s c x, (l.h.readS x.a.toNat).toNat ≤ 4) →
    exec (.mstat x) s = .next (s.lanesBecome c.wg (lanesOf s c x.ctl.pfx) fun g l t =>
      if l.act then
        let m := g.matrix.getD {}
        let v : Nat := match (l.h.readS x.a.toNat).toNat with
          | 0 => m.ga
          | 1 => m.g
          | 2 => m.shadowState
          | 3 => (g.mxq.filter fun e => match e.op with | .flip _ => false | _ => true).length
          | _ => if g.matrix.isSome then 1 else 0
        t.awaits c (destRegs sg x) (.ready [⟨.s x.d.toNat, BitVec.ofNat 64 v⟩] 0) none
      else t)

/-- R193, R194, R195: an engine command with its record in place is accepted. -/
def Says.EngineCommandsAccepted : Prop :=
  (∀ r ∈ commandRows, ∀ (x : Args) (sg : Sig) (c : Cur) (s : State) (l : Lane) (rest : List Lane), Clean r.op x sg c s →
    actives s c x = l :: rest → (l.t.readV x.a.toNat).toNat % 64 = 0 →
    (l.t.readV x.a.toNat).toNat + 64 ≤ (s.wgOf c.wg).hdr.spad → (∀ m, Spoilt.word m ∉ (s.wgOf c.wg).spoilt) →
    s.freeSlots (s.wgOf c.wg).core ≠ [] →
    ∃ t, exec (r.instr x) s = .next t ∧ Accepted s t r.eng r.op x c (actives s c x) l) ∧
  ∀ (x : Args) (sg : Sig) (c : Cur) (s : State) (l : Lane) (rest : List Lane), Clean 0x1EA x sg c s →
    actives s c x = l :: rest → (l.t.readV x.a.toNat).toNat % 64 = 0 →
    (l.t.readV x.a.toNat).toNat + 64 ≤ (s.wgOf c.wg).hdr.spad → (∀ m, Spoilt.word m ∉ (s.wgOf c.wg).spoilt) →
    s.freeSlots (s.wgOf c.wg).core ≠ [] →
    s.arrayFree c.wg = true →
    ∃ t, exec (.tg x) s = .next t ∧ Accepted (s.modWg c.wg fun g =>
      { g with matrix := some { g.matrix.getD {} with retired := (g.matrix.getD {}).g } }) t 2 0x1EA x c (actives s c x) l

/-- R199, R200: `erel` queues a held command, `ecan` ends one that has not started, `estat` reads a handle's state. -/
def Says.HandleInstructions : Prop :=
  ∀ (x : Args) (sg : Sig) (c : Cur) (s : State),
    (Clean 0x1ED x sg c s → exec (.erel x) s = .next ((actives s c x).foldl (fun s l =>
      let h := (l.t.readV x.a.toNat).toNat
      match Tab.find (s.wgOf c.wg).cmds h with
      | some k => if k.state = .held then
          { s.modWg c.wg (fun g => { g with cmds := Tab.modify g.cmds h fun k => { k with state := .queued, order := s.nextReq } })
            with nextReq := s.nextReq + 1 }
        else s
      | none => s) s)) ∧
    (Clean 0x1EE x sg c s → exec (.ecan x) s = .next (s.modWg c.wg fun g => { g with
      cmds := Tab.map (fun h k => if ∃ l ∈ actives s c x, (l.t.readV x.a.toNat).toNat = h then
          if k.state = .held ∨ k.state = .queued then
            { k with state := .running, begun := true, ended := true, status := 0x41, deps := [], flushed := false }
          else k
        else k) g.cmds })) ∧
    (Clean 0x1EF x sg c s → exec (.estat x) s = .next (s.lanesBecome c.wg (lanesOf s c x.ctl.pfx) fun g l t =>
      if l.act then t.writeV x.d.toNat (match (Tab.find g.cmds (l.t.readV x.a.toNat).toNat : Option Cmd) with
        | none => 0
        | some k => if k.status = 0x41 then 0 else if k.state = .held then 1 else if k.state = .queued then 2 else 3)
      else t))

end Sys2Proof.Machine

/-! ### The statements -/

open Sys2Proof Sys2Proof.Machine

/-- R101: the table of vector integer arithmetic, every form of every row. -/
def Obligations.VectorArithmeticResults : Prop := Computes arithmeticRows

/-- R103 to R106: logic, shifts, counts, moves, bit fields, conversions and selection. -/
def Obligations.VectorLogicAndFieldResults : Prop :=
  Says.VectorLogicResults ∧ Says.VectorFieldResults

/-- R107, R108: compares, and the truth tables of `plop`. -/
def Obligations.VectorCompareResults : Prop := Computes (compareRows ++ plopRows)

/-- R111: the cross-lane operations, over the participants R110 forms; the ballot into a mask register. -/
def Obligations.CrossLaneOperations : Prop :=
  Says.CrossLaneResults ∧ Says.BallotWritesMask

/-- R117, R118, R119: floating-point arithmetic in its three formats. -/
def Obligations.FloatArithmeticResults : Prop := Computes floatArithmeticRows

/-- R120, R121, R122, R66: dot products, compares and conversions. -/
def Obligations.FloatConversionResults : Prop := Computes floatOtherRows

/-- R24, R127: special functions: their results are pending, and their special cases. -/
def Obligations.SpecialFunctions : Prop :=
  Says.SpecialFunctionsPend ∧ Says.SpecialFunctionCases

/-- R115, R120, R122 to R126: the instructions with a format word. -/
def Obligations.FormatWords : Prop :=
  Says.FormatWordResults ∧ Says.BlockQuantisation

/-- R128 to R131: the activation tables are evaluated, loaded and switched. -/
def Obligations.ActivationTables : Prop :=
  Says.ActivationTable ∧ Says.TableLoadAndSwitch

/-- R79, R80: scalar arithmetic, and the compares into the predicates of active threads. -/
def Obligations.ScalarOperations : Prop :=
  Says.ScalarResults ∧ Says.ScalarCompares

/-- R85: branches, relative and absolute, and the link of `call`. -/
def Obligations.Branches : Prop :=
  Says.ConditionalBranch ∧ Says.AbsoluteBranches

/-- R17, R216, R218, R219: software traps, `rst`, `park`, the counters, `flane`, and the word that does nothing. -/
def Obligations.SystemInstructions : Prop :=
  Says.SystemLanes ∧ Says.FormedLanes ∧ Says.NoOperation ∧ Says.ParkEndsHandler

/-- R44, R217: `sret` and `rply` leave the handler: the owed instructions first, one by one, then on after the trap; `rply`
puts the trapping instruction before them, or the whole group for a trap of the group. -/
def Obligations.LeavingHandlers : Prop :=
  ∀ (x : Args) (sg : Sig) (c : Cur) (s : State), Clean 0x1FA x sg c s → (∀ l ∈ actives s c x, l.t.priv = true) →
    (exec (.sret x) s = .next (s.lanesBecome c.wg (lanesOf s c x.ctl.pfx) fun g l t =>
      if l.act then
        let next := if tposAt t then ⟨tposPkt t, 0⟩ else t.cont.getD (s.groupAfter g ⟨tposPkt t, tposSlot t⟩)
        { t with
          priv := false, tcause := 0, hold := .ready, wholeTrap := false, memTrap := false, again := [], alone := t.again
          pc := t.again.headD next, cont := if t.again = [] then none else some next
          contSettle := t.again != [] && t.contSettle }
      else t)) ∧
    exec (.rply x) s = .next (s.lanesBecome c.wg (lanesOf s c x.ctl.pfx) fun g l t =>
      if l.act then
        let at_ : PC := ⟨tposPkt t, tposSlot t⟩
        let next := if tposAt t then ⟨tposPkt t, 0⟩ else t.cont.getD (s.groupAfter g at_)
        let todo := if t.tcause = 0x05 ∨ (t.memTrap ∧ (g.hw l.hw).faultm.getLsbD l.lane = false) then t.again else at_ :: t.again
        if t.wholeTrap then
          { t with
            priv := false, tcause := 0, hold := .ready, wholeTrap := false, again := [], alone := [], pc := at_, cont := none
            contSettle := false }
        else
          { t with
            priv := false, tcause := 0, hold := .ready, wholeTrap := false, again := [], alone := todo
            memTrap := if t.tcause = 0x05 ∨ (t.memTrap ∧ (g.hw l.hw).faultm.getLsbD l.lane = false) then false else t.memTrap
            pc := todo.headD next, cont := if todo = [] then none else some next, contSettle := todo != [] && t.contSettle }
      else t)

/-- R44, R220, R221: privileged registers and `tlbi` in a privileged handler; outside one they trap. -/
def Obligations.PrivilegedInstructions : Prop :=
  Says.PrivilegedRegisters ∧ Says.TlbInvalidates ∧ Says.PrivilegeTraps

/-- R132 to R143: loads, loads at home, loads of sealed bytes and prefetches complete. For each of the 19 forms `ldN8`, `ldS8`,
`ldN16`, `ldS16`, `ldB32`, `ldB64`, `ldB128`, `ldB32S`, `ldB64S`, `ldB128S`, `ldB32Q`, `ldB64Q`, `ldncB32`, `ldncB64`, `ldncB128`,
`ldvB32`, `ldvB64`, `ldvB128` and `pf`, in every state and for operands that meet conditions on themselves alone (the form's checks
hold, nothing is owed, the address is aligned and translates), `exec i s` equals `.next t` for the t that is written out. -/
def Obligations.VectorLoads : Prop :=
  Says.LoadsIssue ∧ Says.HomeLoadsIssue ∧ Says.SealedLoadsIssue ∧ Says.PrefetchHints

/-- R132 to R138: stores, core-weak or written through. -/
def Obligations.VectorStores : Prop :=
  Says.StoresIssue

/-- R144 to R149: atomics, reductions and window operations, the lanes of one address together. -/
def Obligations.AtomicsAndReductions : Prop :=
  Says.AtomicsIssue ∧ Says.ReductionsIssue ∧ Says.WindowsAdd ∧ Says.WindowFinalises

/-- R140, R146: loads, stores and atomics on the scratchpad. -/
def Obligations.ScratchpadAccesses : Prop :=
  Says.SpadLoads ∧ Says.SpadStores ∧ Says.SpadAtomics

/-- R134, R135, R140, R157: a scratchpad access that is misaligned (0x15), leaves the allocation (0x11) or meets uncorrectable
data it does not replace (0x13) traps in its lane, with the offset in `tval`; the other lanes store; `%faultm` of each home warp
with a trapping lane becomes exactly those lanes. -/
def Obligations.SpadFaults : Prop :=
  ∀ r ∈ spadStoreRows, ∀ (x : Args) (sg : Sig) (c : Cur) (s : State), Clean r.op x sg c s →
    (∀ l ∈ lanesOf s c none, l.t.trapSlot = none ∧ (s.wgOf c.wg).thread l.tid = l.t ∧ l.lane < 64) → (∀ l ∈ lanesOf s c none,
      (Tab.find (s.wgOf c.wg).threads l.tid).isSome) →
    let out (l : Lane) : Prop := ¬InSpad (c.source s) r.size (spadOff x r.size l)
    let stops (l : Lane) : Prop := out l ∨ (s.wgOf c.wg).spadBad (spadOff x r.size l).toNat r.size true = true
    ∃ t, exec (r.instr x) s = .next t ∧
      (∀ l ∈ actives s c x, stops l →
        let u := (t.wgOf c.wg).thread l.tid
        (spadOff x r.size l % r.size ≠ 0 → u.tcause = 0x15) ∧
        (spadOff x r.size l % r.size = 0 → out l → u.tcause = 0x11) ∧ (¬out l → u.tcause = 0x13) ∧
        u.tval = BitVec.ofInt 64 (spadOff x r.size l) ∧ u.trapSlot = some c.slot ∧ u.v = l.t.v ∧
        ∀ m ∈ lanesOf s c none, m.hw = l.hw → (((t.wgOf c.wg).hw l.hw).faultm.getLsbD m.lane ↔
          ∃ n ∈ actives s c x, n.hw = l.hw ∧ n.lane = m.lane ∧ stops n)) ∧
      ∀ o : Nat, (∀ l ∈ actives s c x, ¬stops l →
          ¬(spadOff x r.size l ≤ o ∧ o < spadOff x r.size l + r.size)) →
        Tab.get 0 (t.wgOf c.wg).spad o = Tab.get 0 (s.wgOf c.wg).spad o

/-- R150 to R153: fences whose waits are over, and `waddr`. -/
def Obligations.Fences : Prop :=
  Says.FenceCompletes ∧ Says.SequentialFence ∧ Says.WaitAddressOver

/-- R154, R155: sealing and unsealing a range: the bytes of the range, and the run a matching `unseal` removes. -/
def Obligations.SealAndUnseal : Prop :=
  ∀ (x : Args) (sg : Sig) (c : Cur) (s : State) (h : Nat) (l : Lane), OneHome s c h → lowest s c x h = some l →
    let v := l.h.readS x.d.toNat
    let b := l.h.readS x.a.toNat
    let n := l.h.readS x.b.toNat
    v.toNat ≤ 0xFFFF → b.toNat % 256 = 0 → n.toNat % 256 = 0 → 0 < n.toNat → n.toNat ≤ 2 ^ 32 →
    (Clean 0x1B8 x sg c s → NothingOwed s c → ∀ t,
      (∀ m ∈ actives s c x, s.sealRange (c.source s) m.t v b n = (.ok t, s) ∧ s.sealRange (s.wgOf c.wg) m.t v b n = (.ok t, s)) →
      exec (.seal x) s = .next t) ∧
    (Clean 0x1B9 x sg c s → (c.source s).ctx = (s.wgOf c.wg).ctx → ∀ r,
      s.seals.find? (fun r => r.asid == (s.wgOf c.wg).ctx.asid && r.version == v.toNat && r.va == b && r.total == n.toNat) = some r →
      exec (.unseal x) s = .next { s with seals := s.seals.filter fun q => q.id != r.id })

/-- R81, R82: scalar loads and stores, and the words of the argument block. -/
def Obligations.ScalarMemory : Prop :=
  Says.ScalarLoads ∧ Says.ScalarStores ∧ Says.ArgumentWord

/-- R49, R83: special registers, read and written. -/
def Obligations.SpecialRegisters : Prop :=
  Says.SpecialRegisterRead ∧ Says.SpecialRegisterWrite

/-- R88, R90, R93, R97: meetings, masks, `elect` and `yield`. -/
def Obligations.Meetings : Prop :=
  Says.MeetingOpens ∧ Says.JoinAndLeave ∧ Says.ElectChoosesOne ∧ Says.YieldHolds

/-- R94 to R96: `exit`, `tail` and `spawn`. -/
def Obligations.EndsAndStarts : Prop :=
  Says.ThreadsEnd ∧ Says.SpawnArms

/-- R159 to R167: barriers and phase barriers. -/
def Obligations.BarrierInstructions : Prop :=
  Says.BarriersPass ∧ Says.PhaseBarriers ∧ Says.PhaseArrival ∧ Says.SurplusTraps

/-- R168, R169, R171: binding, freeing and inspecting a channel. -/
def Obligations.ChannelControl : Prop :=
  ∀ (x : Args) (sg : Sig) (c : Cur) (s : State) (h : Nat) (l : Lane), OneHome s c h → lowest s c x h = some l →
    let g := s.wgOf c.wg
    let d := l.h.readS x.a.toNat
    let q := (l.h.readS x.b.toNat).toNat
    let ch := chanOf d
    let n := d.toNat
    (Clean 0x1C6 x sg c s → q ≤ 30 → descOk d = true → ch.base % 16 = 0 → ch.base + ch.depth * ch.bytes ≤ g.hdr.spad →
      exec (.chbind x) s = .next (s.modWg c.wg fun g =>
        if (Tab.find g.chans q).isSome then g.modHw h (·.writeS x.d.toNat 1)
        else { g with chans := Tab.put g.chans q ch }.modHw h (·.writeS x.d.toNat 0))) ∧
    (Clean 0x1C7 x sg c s → n ≤ 30 → g.chanAwaited n = false →
      exec (.chfree x) s = .next (s.modWg c.wg fun g => (g.unbind n).modHw h (·.writeS x.d.toNat
        (match Tab.find g.chans n with | some k => BitVec.ofNat 64 (k.tail - k.head) | none => 0)))) ∧
    (Clean 0x1C8 x sg c s → n ≤ 30 →
      exec (.chstat x) s = .next (s.modWg c.wg fun g => g.modHw h (·.writeS x.d.toNat
        (match Tab.find g.chans n with | some k => k.stateWord | none => 0))))

/-- R176 to R188: planes, flips and matrix operations enter the queue of the array. -/
def Obligations.MatrixOperations : Prop :=
  Says.PlaneStore ∧ Says.PlaneFlip ∧ Says.MatrixOperationsQueue

/-- R174, R188 to R190: `mdrv`, `mvote` and `mstat`. -/
def Obligations.MatrixResults : Prop :=
  Says.DrainToRegisters ∧ Says.MatrixInspection

/-- R193 to R200: engine commands are accepted, held, ended and read. For each of the 16 forms `cpy`, `cpyg`, `cpys`, `cpyf`,
`ceIns`, `ceQry`, `ceAcc`, `ceMap`, `ceClr`, `ceSeal`, `scnz`, `sctk`, `tg`, `erel`, `ecan` and `estat`, in every state and for
operands that meet conditions on themselves alone (the form's checks hold, the record lies in the allocation, a slot is free),
`exec i s` equals `.next t` for a t that is written out or described. -/
def Obligations.EngineCommands : Prop :=
  Says.EngineCommandsAccepted ∧ Says.HandleInstructions

/-- R89, R93, R97, R110, R124, R166, R343: the ends of waits, of the program's threads and of those in a handler apart. Every
thread a complete mask names goes on, all of them together; a meeting pops each thread's entry and clears its bit; the threads
whose `yield` is over become eligible together; nothing else changes. -/
def Obligations.HeldThreadsRelease : Prop :=
  (∀ (s : State) (w h addr mask : Nat), s.Numbered →
    let held := fun pr i => (s.wgOf w).home i = h ∧ IsThread s w (fun u => u.hold = .meeting addr mask ∧ u.priv = pr) i
    (∀ pr i, held pr i → (s.thread w i).failed = []) →
    ∃ t, exec (.meetingRelease w h addr mask) s = .next t ∧ t.mem = s.mem ∧ OthersStand s t w (fun i => ∃ pr, held pr i) ∧
      ∀ pr, (∃ i, held pr i) → MaskWithin s w h mask (held pr) →
        (∀ i, held pr i → (0 < (s.thread w i).depth → (t.thread w i).depth + 1 = (s.thread w i).depth ∧
            (t.thread w i).meet = Tab.get 0 (s.thread w i).entries ((s.thread w i).depth - 1)) ∧
          ((s.thread w i).depth = 0 → (t.thread w i).depth = 0 ∧ (t.thread w i).meet = 0) ∧
          (t.thread w i).pc = (s.thread w i).pc ∧ ((t.thread w i).atMeeting = false → (t.thread w i).hold = .ready) ∧
          ((t.wgOf w).hw h).bitK mask ((s.wgOf w).laneOf i) = false) ∧
        ∀ i j, held pr i → held pr j → (t.thread w i).hold = .ready → (t.thread w j).hold = .ready →
          ∃ r ∈ (t.wgOf w).relSets, i ∈ r.tids ∧ j ∈ r.tids) ∧
  (∀ (e pr : Bool) (s : State) (w h pkt slot k : Nat), s.Numbered → k < 12 →
    let why := fun k => if e then Hold.elect k else Hold.cross k
    let held := fun pr k i => (s.wgOf w).home i = h ∧ IsThread s w (fun u => u.pc = ⟨pkt, slot⟩ ∧ u.hold = why k ∧ u.priv = pr) i
    (∃ i, held pr k i) → MaskWithin s w h k (held pr k) →
    ∃ t, exec (if e then .electRelease w h pkt slot else .crossLaneRelease w h pkt slot) s = .next t ∧ t.mem = s.mem ∧
      OthersStand s t w (fun i => ∃ q, ∃ j < 12, held q j i) ∧ GoTogether t w (held pr k) true ∧
      ∀ i, held pr k i → (t.thread w i).hold = .ready ∧ (t.thread w i).pc = ⟨pkt, slot⟩) ∧
  (∀ (pr : Bool) (s : State) (w octet pkt slot : Nat), s.Numbered →
    let held := fun pr i => octetOf i = octet ∧ IsThread s w (fun u => u.pc = ⟨pkt, slot⟩ ∧ u.hold = .fqnt ∧ u.priv = pr) i
    (∃ i, held pr i) → (∀ i, octetOf i = octet → IsThread s w (fun u => u.ended = false) i → held pr i) →
    ∃ t, exec (.fqntRelease w octet pkt slot) s = .next t ∧ t.mem = s.mem ∧ OthersStand s t w (fun i => ∃ q, held q i) ∧
      GoTogether t w (held pr) true ∧ ∀ i, held pr i → (t.thread w i).hold = .ready) ∧
  (∀ (s : State) (w i off : Nat) (par : Bool), s.Numbered → IsThread s w (fun u => u.hold = .mbwt off par) i →
    ((s.wgOf w).word off).getLsbD 32 ≠ par →
    ∃ t, exec (.mbwtRelease w i) s = .next t ∧ t.mem = s.mem ∧ OthersStand s t w (· = i) ∧ (t.thread w i).hold = .ready) ∧
  ∀ (s : State) (w : Nat), s.Numbered →
    let due := fun i => IsThread s w (fun u => ∃ gs n, u.hold = .yield gs n ∧
      (gs = [] ∨ 64 ≤ n ∨ ∀ j, j ≠ i → ¬IsThread s w (fun u => u.isReady = true) j)) i
    (∀ i, due i → (s.thread w i).failed = []) → ∀ i, due i →
    ∃ t, exec (.yieldResume w i) s = .next t ∧ t.mem = s.mem ∧ OthersStand s t w due ∧
      ∀ j, due j → (t.thread w j).pc = (s.thread w j).pc ∧ ((t.thread w j).atMeeting = false → (t.thread w j).hold = .ready)

/-- R160, R161, R162, R343: `bar` releases every thread when every live one is held at it, all in the program or all in the same
handler, and gives each contributing home warp the combination, or with scan that of the home warps before it; `gbar` releases a
launch whose live threads are all held so. -/
def Obligations.BarriersRelease : Prop :=
  (∀ (s : State) (w : Nat), s.Numbered → (∃ i, IsThread s w (fun u => u.ended = false) i) →
    let at_ := IsThread s w fun u => ∃ a sel d x m, u.hold = .bar a sel d x m
    (∃ pr us, ∀ i, IsThread s w (fun u => u.ended = false) i → at_ i ∧ (s.thread w i).priv = pr ∧ (s.thread w i).user = us) →
    ∃ t, exec (.barRelease w) s = .next t ∧ t.mem = s.mem ∧ OthersStand s t w at_ ∧
      (∀ i, at_ i → (t.thread w i).hold = .ready ∧ (t.thread w i).pc = (s.thread w i).pc ∧ (t.thread w i).v = (s.thread w i).v) ∧
      ∀ sel, sel % 8 ≠ 1 → (∀ p ∈ (s.wgOf w).barParts, p.2.1.sel = sel) → ∀ p ∈ (s.wgOf w).barParts,
        ((t.wgOf w).hw p.1).readS p.2.1.d =
          ((if sel.testBit 3 then (s.wgOf w).barParts.takeWhile (·.1 != p.1) else (s.wgOf w).barParts).map (·.2.2)).foldl
            (barCombine (sel % 8)) (barUnit (sel % 8))) ∧
  ∀ (s : State) (b : Nat) (r : Region), s.Numbered → Tab.find s.regions b = some r → r.bound = r.total →
    let at_ := fun w i => (s.wgOf w).block = b ∧ (s.wgOf w).byTail = false ∧ IsThread s w (fun u => u.hold = .gbar) i
    (∃ pr us, ∀ w g, Tab.find s.wgs w = some g → g.block = b → g.byTail = false → g.status ≠ .parked ∧
      ∀ i, IsThread s w (fun u => u.ended = false) i → at_ w i ∧ (s.thread w i).priv = pr ∧ (s.thread w i).user = us) →
    (∃ w i, at_ w i ∧ IsThread s w (fun u => u.ended = false) i) →
    ∃ t, exec (.gbarRelease b) s = .next t ∧ t.mem = s.mem ∧ (∀ w i, at_ w i → (t.thread w i).hold = .ready) ∧
      ∀ w i, ¬at_ w i → (t.thread w i).stands = (s.thread w i).stands

/-- R20, R24, R153, R342: a result returns into its registers and flags and leaves the pending set; `waddr` goes on when its
read gives the value, and reads again otherwise; settled trapping threads enter the handler together; a line whose trailer
does not match traps. -/
def Obligations.ThreadsGoOn : Prop :=
  (∀ (s : State) (w i k : Nat) (p : Pend) (vals : List Write) (fl : Flags), s.Numbered → (Tab.find s.wgs w).isSome →
    (Tab.find (s.wgOf w).threads i).isSome → (s.thread w i).pend[k]? = some p → p.src = .ready vals fl →
    (vals.map (·.dest)).Nodup →
    ∃ t, exec (.resultReturn w i k) s = .next t ∧ t.mem = s.mem ∧ (t.thread w i).pend = (s.thread w i).pend.erase p ∧
      (t.thread w i).fflags = (s.thread w i).fflags ||| fl ∧
      ((s.thread w i).failed = [] → (t.thread w i).pc = (s.thread w i).pc) ∧
      (∀ x ∈ vals, match x.dest with
        | .v n => (t.thread w i).readV n = x.val.setWidth 32
        | .p n => 0 < n → n < 48 → (t.thread w i).readP n = x.val.getLsbD 0
        | .s n => ((t.wgOf w).hw ((s.wgOf w).home i)).readS n = x.val) ∧
      (∀ n, (∀ x ∈ vals, x.dest ≠ .v n) → (t.thread w i).readV n = (s.thread w i).readV n) ∧
      ((∀ d ∈ p.dests, ∀ n, d ≠ .s n) → (∀ x ∈ vals, ∀ n, x.dest ≠ .s n) →
        (∀ v j, ¬(v = w ∧ j = i) → s.restOver v (s.thread v j) = false) → (s.thread w i).failed = [] → OthersStand s t w (· = i))) ∧
  (∀ (s : State) (w i : Nat) (va : W64) (k : Nat) (want : W64) (scope : Nat) (acq : Bool) (last : W64) (pa : Nat) (v : W64),
    s.Numbered → IsThread s w (fun u => u.hold = .waddr va k want scope acq false last) i →
    s.readStops (s.wgOf w) (s.thread w i) va k = none →
    s.pollValue (s.wgOf w) (s.thread w i) va k = some (pa, v) →
    ∃ t, exec (.waddrPoll w i) s = .next t ∧ t.mem = s.mem ∧ OthersStand s t w (· = i) ∧
      (v = want → (t.thread w i).hold = .ready ∧ (acq = true → 1 ≤ scope → (t.coreOf (s.core w)).acq = s.hb)) ∧
      (v ≠ want → (t.thread w i).hold = .waddr va k want scope acq false s.hb)) ∧
  (∀ (s : State) (w set : Nat) (ts : List Nat), s.Numbered → Tab.find (s.wgOf w).trapSets set = some ts → ts ≠ [] →
    (∀ i ∈ ts, IsThread s w (fun u => u.ended = false ∧ s.idle w u = true ∧ u.priv = false) i) → (s.wgOf w).fhnd ≠ 0 →
    ∃ t, exec (.handlerEntry w set) s = .next t ∧ t.mem = s.mem ∧ GoTogether t w (· ∈ ts) false ∧ OthersStand s t w (· ∈ ts) ∧
      ∀ i ∈ ts, (t.thread w i).priv = true ∧ (t.thread w i).pc = ⟨(s.wgOf w).fhEntry, 0⟩ ∧ (t.thread w i).hold = .ready ∧
        (t.thread w i).v = (s.thread w i).v ∧ (t.thread w i).tcause = (s.thread w i).tcause) ∧
  ∀ (s : State) (w : Nat) (origin : W64) (line pa i : Nat), s.Numbered →
    let here := IsThread s w fun u => u.ended = false ∧ u.parked = false ∧ u.hold = .ready ∧
      (s.wgOf w).origin u = origin ∧ u.pc.pkt / 5 = line
    here i → (∀ j, here j → (s.thread w j).priv = false ∧ s.idle w (s.thread w j) = true) → (s.wgOf w).fhnd ≠ 0 →
    let va := origin + BitVec.ofNat 64 (line * 64)
    s.locate (s.core w) (s.wgOf w).ctx.asid (s.wgOf w).ctx.root ⟨false, true, false⟩ va = (.ok pa, s) → s.isBad pa = false →
    (s.pathFrom (s.core w / 64) 0 pa).isSome →
    (s.natAt (pa + 60) 4 = crc32c (s.bytesAt pa 60) → exec (.fetchCodeLine w origin line) s =
      .next (s.scrub (s.dieFor pa (s.core w / 64)) pa (s.wgOf w).ctx.asid (some (s.core w)))) ∧
    (s.natAt (pa + 60) 4 ≠ crc32c (s.bytesAt pa 60) → ∃ t, exec (.fetchCodeLine w origin line) s = .next t ∧ t.mem = s.mem ∧
      ∀ j, here j → (t.thread w j).priv = true ∧ (t.thread w j).tcause = 0x08 ∧ (t.thread w j).tval = va)

/-- R5, R152, R228, R300, R304, R310: the heartbeat advances by 1; a clock grants ready threads in at most four formed warps
of at most 64 lanes in all; a store 512 clocks old is written through; a dropped sector and a line of 8,192 ticks leave the
caches, and their core-weak bytes are on their way home. -/
def Obligations.TimePasses : Prop :=
  (∀ s : State, ∃ t, exec .heartbeatTick s = .next t ∧ t.hb = s.hb + 1 ∧ t.mem = s.mem ∧
    (∀ w i, (t.thread w i).pc = (s.thread w i).pc ∧ (t.thread w i).v = (s.thread w i).v) ∧
    ∀ w i tick, (s.thread w i).hold = .fsc tick → (t.thread w i).hold = .ready) ∧
  (∀ (s : State) (core : Nat), s.Numbered → s.awake (coreUnit core) = true → s.awake (datapathUnit core) = true →
    ∃ gs t, exec (.issueClock core) s = .next t ∧ t.mem = s.mem ∧ t.granted = s.granted ++ gs ∧
      (t.coreOf core).clk = (s.coreOf core).clk + 1 ∧ gs.length ≤ 4 ∧
      (gs.map fun q => (s.wgOf q.wg).hdr.width).sum ≤ 64 ∧
      ∀ q ∈ gs, (s.wgOf q.wg).core = core ∧ ∀ i ∈ q.tids, (s.thread q.wg i).ended = false ∧
        (s.thread q.wg i).parked = false ∧ (s.thread q.wg i).hold = .ready) ∧
  (∀ (s : State) (core sector : Nat) (e : WbEntry),
    ((s.coreOf core).wb.filter fun e => decide (e.pa / 64 = sector ∧ e.clk + 512 ≤ (s.coreOf core).clk)) = [e] →
    exec (.writeThroughTimeout core sector) s = .next (s.flushEntry core e).2) ∧
  (∀ (s : State) (core sector : Nat), core < 128 → Tab.sorted s.dir = true → core / 64 = s.dieFor (sector * 64) (core / 64) →
    (Tab.get {} s.dir sector).sharers.getLsbD (core % 64) = true →
    ∃ t, exec (.directoryDrop sector core) s = .next t ∧ t.mem = s.mem ∧
      (∀ c < 64, (Tab.get {} t.dir sector).sharers.getLsbD c = ((Tab.get {} s.dir sector).sharers.getLsbD c && c != core % 64)) ∧
      (∀ key, key % 2 ^ 46 = sector → Tab.find (t.coreOf core).l1 key = none) ∧
      ∀ e ∈ (t.coreOf core).wb, e.key % 2 ^ 46 ≠ sector) ∧
  ∀ (s : State) (die line : Nat), Tab.sorted s.cores = true →
    ∃ t, exec (.porchLineExpire die line) s = .next t ∧ t.mem = s.mem ∧
      ((t.dieAt die).porch = (s.dieAt die).porch.filter fun p => !decide (p.1 = line ∧ p.2.tick.toNat + 8192 ≤ s.hb.toNat)) ∧
      ∀ core key x, Tab.find s.cores core ≠ none → core / 64 = die → Tab.find (s.coreOf core).l1 key = some x →
        Tab.find (t.coreOf core).l1 key =
          if x.remote ∧ key % 2 ^ 46 / 4 = line ∧ x.tick.toNat + 8192 ≤ s.hb.toNat then none else some x

/-- R302, R303, R347, R248, R381: a write is applied at its home when its turn has come, and its bytes go to the other
sharers; one that names a sealed byte, or part of a sector with uncorrectable data, is refused; an update is taken by its
sharer, but for the core's own later bytes; the acknowledgement leaves when every sharer has answered; a state word takes the
transitions of R248 and no other. -/
def Obligations.HomeServesWrites : Prop :=
  (∀ (s : State) (id : Nat) (r : Req), Tab.find s.reqs id = some r → r.kind = .write → r.plainMask →
    Writable s r r.data.length →
    ∃ t, exec (.homeWriteApply id) s = .next t ∧ Stores s t r ∧ (Tab.find t.reqs id).map (·.state) = some .applied ∧
      (∀ d, s.homeDie r.pa = some d → ∀ i < 64, let c := d * 64 + i
        c ≠ r.core → (Tab.get {} s.dir (r.pa / 64)).sharers.getLsbD i = true →
        ∃ u x, Tab.find t.upds u = some x ∧ x.req = id ∧ x.core = c ∧ x.sector = r.pa / 64)) ∧
  (∀ (s : State) (id : Nat) (r : Req), Tab.find s.reqs id = some r → r.kind = .write → r.plainMask → s.turn r = true →
    r.pa % 64 + r.data.length ≤ 64 → s.hitsState (sectorOf r.pa) r.sectorBytes.2 = false →
    ((∃ k, r.names k ∧ s.sealedAt (r.pa + k) 1 = true) → ∃ t, exec (.homeWriteApply id) s = .next t ∧ t.mem = s.mem ∧
      (Tab.find t.reqs id).map (·.err) = some 0x12) ∧
    ((∀ k, r.names k → s.sealedAt (r.pa + k) 1 = false) → s.isBad r.pa = true → r.data.length < 64 →
      ∃ t, exec (.homeWriteApply id) s = .next t ∧ t.mem = s.mem ∧ (Tab.find t.reqs id).map (·.err) = some 0x13)) ∧
  (∀ (s : State) (u : Nat) (x : Upd), Tab.find s.upds u = some x → s.updReady u x = true →
    ∃ t, exec (.sharerUpdate u) s = .next t ∧ t.mem = s.mem ∧ t.upds = Tab.erase s.upds u ∧
      (∀ c, c ≠ x.core → t.coreOf c = s.coreOf c) ∧
      ∀ key y, Tab.find (s.coreOf x.core).l1 key = some y → key % 2 ^ 46 = x.sector →
        ∃ z, Tab.find (t.coreOf x.core).l1 key = some z ∧ z.valid = y.valid ∧ z.weak = y.weak ∧ ∀ i < 64,
          dataByte z.data i = if x.mask.getLsbD i = true ∧ y.weak.getLsbD i = false then dataByte x.data i
            else dataByte y.data i) ∧
  (∀ (s : State) (id : Nat) (r : Req), Tab.find s.reqs id = some r → r.state = .applied → (∀ p ∈ s.upds, p.2.req ≠ id) →
    ∃ t, exec (.writeAck id) s = .next t ∧ t.mem = s.mem ∧ Replied t id) ∧
  ∀ (s : State) (id : Nat) (r : Req), Tab.find s.reqs id = some r → r.kind = .write → r.mask = [] → r.data.length = 4 →
    r.pa % 256 = 0 → s.turn r = true → (∀ k < 4, s.sealedAt (r.pa + k) 1 = false) → s.isBad r.pa = false →
    s.hostHolds r.pa = false → (s.blockAt r.pa).isSome →
    let old := s.natAt r.pa 4
    let new := natOfBytes r.data
    let legal := (old = 0 ∧ new = 1 ∧ ∀ p, s.blockAt r.pa = some p → p.2.1.deregistering = false) ∨ ((old = 4 ∨ old = 5) ∧ new = 0)
    (legal → ∃ t, exec (.stateWordWrite id) s = .next t ∧ OnlyWrites s t r.pa r.data ∧
      (Tab.find t.reqs id).map (·.state) = some .applied ∧ (new = 1 → (t.blockAt r.pa).isSome → r.pa ∈ t.signals)) ∧
    (¬legal → ∃ t, exec (.stateWordWrite id) s = .next t ∧ t.mem = s.mem ∧ (Tab.find t.reqs id).map (·.err) = some 0x11)

/-- R145, R147, R148, R149, R381: the reduction unit applies an atomic, a reduction, a window contribution or a finalisation to
memory in one step; an atomic of several lanes lane by lane, each receiving the value before it; of a `cas` on a sealed range
every lane receives the value, and the lanes whose comparison holds are refused. -/
def Obligations.ReductionUnit : Prop :=
  (∀ (s : State) (id : Nat) (r : Req), Tab.find s.reqs id = some r → r.kind.atHome = true → Writable s r r.size →
    ∀ bs fl new, r.operate (s.natAt r.pa r.size) = (bs, fl, new) →
    ∃ t, exec (.reductionUnitApply id) s = .next t ∧
      (Tab.find t.reqs id).map (fun q => (q.state, q.data, q.flags)) = some (.applied, bs, fl) ∧
      ∀ a, t.byte a = match new with
        | some v => if r.pa ≤ a ∧ a < r.pa + r.size then (bytesOfNat v r.size).getD (a - r.pa) 0 else s.byte a
        | none => s.byte a) ∧
  (∀ (s : State) (id : Nat) (r : Req) (lanes : List (Nat × Mode)), Tab.find s.reqs id = some r → r.kind = .amo 10 lanes →
    s.turn r = true → (r.size = 4 ∨ r.size = 8) → r.pa % 64 + r.size ≤ 64 → s.isBad r.pa = false →
    (∃ k < r.size, s.sealedAt (r.pa + k) 1 = true) →
    let old := s.natAt r.pa r.size
    ∃ t q, exec (.reductionUnitApply id) s = .next t ∧ t.mem = s.mem ∧ Tab.find t.reqs id = some q ∧ q.state = .applied ∧
      q.err = r.err ∧ q.data = lanes.flatMap (fun _ => bytesOfNat old r.size) ∧
      q.refused = (List.range lanes.length).map fun i => natOfBytes ((r.data.drop (i * (2 * r.size))).take r.size) == old) ∧
  (∀ (r : Req) (opn : Nat) (lanes : List (Nat × Mode)) (old : Nat), r.kind = .amo opn lanes → opn ≤ 10 →
    (r.size = 4 ∨ r.size = 8) → r.data.length = lanes.length * (if opn = 10 then 2 * r.size else r.size) →
    old < 2 ^ (8 * r.size) →
    let w := if opn = 10 then 2 * r.size else r.size
    let given (i : Nat) : Nat := natOfBytes ((r.data.drop (i * w)).take w)
    let does (v i : Nat) := atomicOf opn r.size (lanes.getD i (0, .rne)).2 v (given i % 2 ^ (8 * r.size))
      (given i / 2 ^ (8 * r.size))
    ∃ v : Nat → Nat, v 0 = old ∧ (∀ i < lanes.length, v (i + 1) = (does (v i) i).1.getD (v i)) ∧
      (r.operate old).1 = (List.range lanes.length).flatMap (fun i => bytesOfNat (v i) r.size) ∧
      (r.operate old).2.1 = (List.range lanes.length).map (fun i => (does (v i) i).2) ∧
      (r.operate old).2.2.getD old = v lanes.length) ∧
  (∀ (r : Req) (opn : Nat) (mode : Mode) (old : Nat), r.kind = .red opn mode → opn ≤ 8 →
    (r.size = 1 ∨ r.size = 4 ∨ r.size = 8) → r.data.length = r.size → old < 2 ^ (8 * r.size) →
    (r.operate old).2.2 = some (redStep opn r.size mode old (natOfBytes r.data))) ∧
  ∀ (r : Req) (f : Bool) (e : Int) (mode : Mode) (old : Nat), r.kind = .wfin f e mode → (r.operate old).2.2 = some 0

/-- R138, R141, R143, R306, R311: a read outside the windows is answered with the sector as memory holds it, with code 0x13
where the data is uncorrectable; others join the window of their sector, whose end answers all its readers, with code 0x11
those that name a version the bytes are not sealed under; a promoting acquire first has the last writer write its stores
through. -/
def Obligations.HomeServesReads : Prop :=
  (∀ (s : State) (id : Nat) (r : Req), Tab.find s.reqs id = some r → id < s.nextReq → r.state = .arrived →
    s.open_ r.pa = true → (r.prom = false ∨ r.acq = none) →
    (s.isBad r.pa = false → r.kind = .readAlone ∨ (r.kind = .read ∧ (r.acq ≠ none ∨ s.deadline r = true ∨ s.isOwn r.pa = false)) →
      ∃ t, exec (.homeRead id) s = .next t ∧ t.mem = s.mem ∧ Served s t id r) ∧
    (s.isBad r.pa = true → r.kind = .readAlone →
      ∃ t, exec (.homeRead id) s = .next t ∧ t.mem = s.mem ∧ (Tab.find t.reqs id).map (·.err) = some 0x13) ∧
    ((r.kind = .read ∨ ∃ v, r.kind = .readSealed v) → r.acq = none → s.deadline r = false → s.isOwn r.pa = true →
      Tab.sorted s.windows = true →
      ∃ t w x, exec (.homeRead id) s = .next t ∧ t.mem = s.mem ∧ (Tab.find t.reqs id).map (·.state) = some (.windowed w) ∧
        Tab.find t.windows w = some x ∧ x.sector = r.pa / 64 ∧ id ∈ x.reqs)) ∧
  (∀ (s : State) (w : Nat) (x : Window), Tab.find s.windows w = some x → s.open_ (x.sector * 64) = true →
    (∀ id ∈ x.reqs, id < s.nextReq) →
    ∃ t, exec (.multicastWindowEnd w) s = .next t ∧ t.mem = s.mem ∧ Tab.find t.windows w = none ∧
      ∀ id ∈ x.reqs, ∀ r, Tab.find s.reqs id = some r →
        (s.isBad r.pa = false → (r.kind = .read ∨ ∃ v, r.kind = .readSealed v ∧ s.isSealed r.pa v = true) → Served s t id r) ∧
        ∀ v, r.kind = .readSealed v → s.isSealed r.pa v = false → (Tab.find t.reqs id).map (·.err) = some 0x11) ∧
  ∀ (s : State) (id : Nat) (r : Req), Tab.find s.reqs id = some r → id < s.nextReq → r.state = .probing →
    let last := (Tab.get {} s.dir (r.pa / 64)).writer
    (last = none → s.isBad r.pa = false → r.kind = .read ∨ r.kind = .readAlone →
      ∃ t, exec (.promotionProbe id) s = .next t ∧ t.mem = s.mem ∧ Served s t id r) ∧
    ∀ k, last = some k → ∃ t, exec (.promotionProbe id) s = .next t ∧ t.mem = s.mem ∧ (t.coreOf k).wb = [] ∧
      (Tab.find t.reqs id).map (·.prom) = some false

/-- R313, R314, R315, R316, R318, R320: a walk sets A in the entries it uses and puts the translation in the TLB of its core;
an evaluation halves the counts and may start the migration of a region that the other die asks for more; the cut-over takes
every copy out of the L1s; when a migration is done the region has its new home. -/
def Obligations.Placement : Prop :=
  (∀ (s : State) (core asid : Nat) (va : W64) (n : Nat) (tab : RTable) (e : Tlb) (used : List Nat),
    s.tables.find? (fun p => p.2.ctx.asid = asid) = some (n, tab) → va.toNat < 2 ^ 48 →
    s.walkFrom asid va.toNat 4 tab.ctx.root [] = .ok (e, used) →
    ∃ t, exec (.pageWalk core asid va) s = .next t ∧
      (∃ x ∈ (t.coreOf core).tlb, x.covers asid (va.toNat / 4096) = true ∧ x.pa va.toNat = e.pa va.toNat) ∧
      (∀ ea ∈ used, (t.natAt ea 8).testBit 7 = true) ∧
      ∀ a, (∀ ea ∈ used, ¬(ea ≤ a ∧ a < ea + 8)) → t.byte a = s.byte a) ∧
  (∀ (s : State) (die : Nat), ∃ t, exec (.placementEvaluate die) s = .next t ∧ t.mem = s.mem ∧
    (t.dieAt die).evals = (s.dieAt die).evals + 1 ∧
    (∀ r, Tab.get (0, 0) (t.dieAt die).counts r =
      ((Tab.get (0, 0) (s.dieAt die).counts r).1 / 2, (Tab.get (0, 0) (s.dieAt die).counts r).2 / 2)) ∧
    ((s.dieAt die).migration ≠ none → (t.dieAt die).migration = (s.dieAt die).migration ∧ t.homes = s.homes) ∧
    ∀ m, (s.dieAt die).migration = none → (t.dieAt die).migration = some m →
      m.src = die ∧ m.dst = 1 - die ∧ m.cut = false ∧
      (∃ f f', Tab.find s.homes m.region = some (.die die f) ∧
        Tab.find t.homes m.region = some (.migrating die (1 - die) false f f')) ∧ s.pinned m.region = false ∧
      ∃ p ∈ (s.dieAt die).counts, p.1 = m.region ∧ 2 * p.2.1 + 1024 ≤ p.2.2) ∧
  (∀ (s : State) (m : Migration) (src dst old new : Nat) (cut : Bool), s.migrating false = some m → s.cutReady m = true →
    Tab.find s.homes m.region = some (.migrating src dst cut old new) →
    ∃ t, exec .migrationCutOver s = .next t ∧ t.mem = s.mem ∧
      Tab.find t.homes m.region = some (.migrating src dst true old new) ∧
      (∀ core key, s.isOwn (key % 2 ^ 46 * 64) = true → regionOf (key % 2 ^ 46 * 64) = m.region →
        Tab.find (t.coreOf core).l1 key = none) ∧
      ∀ sector, s.isOwn (sector * 64) = true → regionOf (sector * 64) = m.region → (Tab.get {} t.dir sector).sharers = 0) ∧
  ∀ (s : State) (m : Migration) (src dst old new : Nat) (cut : Bool), s.migrating true = some m →
    Tab.find s.homes m.region = some (.migrating src dst cut old new) →
    ∃ t, exec .migrationDone s = .next t ∧ (m.held = [] → t.mem = s.mem) ∧
      Tab.find t.homes m.region = some (.die dst new) ∧ (t.dieAt m.src).migration = none

/-- R176, R177, R183, R185, R187: the array: a load holds the bytes of its plane; a flip makes the shadow the active plane; a
pass gives each row its elements and flags; a clear, a drain and a bypass act on the rows of a tile. A row that uncorrectable
data stops stays as it is (R192). -/
def Obligations.ArraySteps : Prop :=
  (∀ (s : State) (core w : Nat) (e : MxEntry) (gen off : Nat) (fmt : W32) (sc : Option ScaleRec),
    Runs s core loadReady w e → e.op = .load gen off fmt sc →
    ∃ t, exec (.planeLoadDone core) s = .next t ∧ t.mem = s.mem ∧
      let m := (t.wgOf w).matrix.getD {}
      m.shadowState = 2 ∧ m.ga = ((s.wgOf w).matrix.getD {}).ga ∧
        (∀ i < 4096, (s.wgOf w).spadBad (off + i) 1 false = false →
          Tab.get 0 m.shadow.bytes i = Tab.get 0 (s.wgOf w).spad (off + i)) ∧
        (∀ r f, sc = some r → fmtWord? fmt = some f → ∀ b j, b < scaleBlocks f 64 → j < 64 →
          Tab.get 0 m.shadow.scales (64 * b + j) =
            Tab.get 0 (s.wgOf w).spad (r.addr + if r.colMajor then j * r.stride + b else b * r.stride + j)) ∧
        ∀ x ∈ (t.wgOf w).mxq, x.id ≠ e.id) ∧
  (∀ (s : State) (core w : Nat) (e : MxEntry) (n : Nat), Runs s core Workgroup.flipRuns w e → e.op = .flip n →
    ∃ t, exec (.flipTakeEffect core) s = .next t ∧ t.mem = s.mem ∧ (∀ x ∈ (t.wgOf w).mxq, x.id ≠ e.id) ∧
      let m := (s.wgOf w).matrix.getD {}
      let m' := (t.wgOf w).matrix.getD {}
      (n ≤ m.ga → m' = m) ∧ (m.ga < n → m'.ga = n ∧ m'.active = m.shadow ∧ m'.shadow = {} ∧ m'.shadowState ≤ 1)) ∧
  (∀ (s : State) (core op w : Nat) (e : MxEntry) (o tile gen : Nat) (fmt : W32) (rows : List MxRow) (f : FmtWord),
    Runs s core (fun g e => e.id = op && passReady g e) w e → e.op = .pass o tile gen fmt rows → fmtWord? fmt = some f →
    tile < 4 → (∀ r ∈ rows, r.lane < 8 ∧ (Tab.find (s.wgOf w).threads r.tid).isSome) → (rows.map (·.lane)).Nodup →
    (rows.map (·.tid)).Nodup →
    ∃ t, exec (.matrixPass core op) s = .next t ∧ t.mem = s.mem ∧ (t.wgOf w).spad = (s.wgOf w).spad ∧
      ∀ r ∈ rows,
        let g := s.wgOf w
        let sa := r.scale.map fun c => (g.spadBytes (c.aSpan r.lane (scaleBlocks f f.k)).1
          (c.aSpan r.lane (scaleBlocks f f.k)).2).map (·.toNat)
        let p := passRow f (g.matrix.getD {}).active (g.aRow f o r) sa (g.accElem o tile r.lane)
        (g.rowSpoilt e.op r = false → (∀ j < 64, (t.wgOf w).accElem o tile r.lane j = p.1.getD j 0) ∧
          (t.thread w r.tid).fflags = (s.thread w r.tid).fflags ||| p.2) ∧
        (g.rowSpoilt e.op r = true → ∀ j < 64, (t.wgOf w).accElem o tile r.lane j = g.accElem o tile r.lane j)) ∧
  (∀ (c : BitVec 48) (ts : List Term),
    let sum := c.toInt + (ts.map fun x => x.a.toInt * x.w.toInt).sum
    (-2 ^ 47 ≤ sum → sum ≤ 2 ^ 47 - 1 → (passS48 c ts).1.toInt = sum ∧ (passS48 c ts).2 = 0) ∧
    (sum < -2 ^ 47 → passS48 c ts = (BitVec.ofInt 48 (-2 ^ 47), fOverflow)) ∧
    (2 ^ 47 - 1 < sum → passS48 c ts = (BitVec.ofInt 48 (2 ^ 47 - 1), fOverflow))) ∧
  (∀ (s : State) (core op w : Nat) (e : MxEntry) (o tile : Nat) (rows : List MxRow),
    Runs s core (fun g e => e.id = op && otherReady g e) w e → e.op = .zero o tile rows → tile < 4 → (∀ r ∈ rows, r.lane < 8) →
    ∃ t, exec (.matrixOperationComplete core op) s = .next t ∧ t.mem = s.mem ∧
      (∀ r ∈ rows, ∀ j < 64, (t.wgOf w).accElem o tile r.lane j = 0) ∧
      ∀ o' tile' lane j, tile' < 4 → lane < 8 → j < 64 → (¬(o' = o ∧ tile' = tile ∧ ∃ r ∈ rows, r.lane = lane)) →
        (t.wgOf w).accElem o' tile' lane j = (s.wgOf w).accElem o' tile' lane j) ∧
  (∀ (s : State) (core op w : Nat) (e : MxEntry) (o tile tgt : Nat) (fmt : W32) (rows : List MxRow) (f : FmtWord),
    Runs s core (fun g e => e.id = op && otherReady g e) w e → e.op = .drain o tile fmt tgt rows → fmtWord? fmt = some f →
    let n := drainBytes f tgt
    (rows.Pairwise fun a b => a.off + 64 * n ≤ b.off ∨ b.off + 64 * n ≤ a.off) →
    ∃ t, exec (.matrixOperationComplete core op) s = .next t ∧ t.mem = s.mem ∧ (t.wgOf w).acc = (s.wgOf w).acc ∧
      (∀ r ∈ rows, (s.wgOf w).rowSpoilt e.op r = false → ∀ j < 64, (t.wgOf w).spadBytes (r.off + j * n) n =
        bytesOfNat (drainElem f tgt r.mode ((s.wgOf w).accElem o tile r.lane j)).1 n) ∧
      ∀ i, (∀ r ∈ rows, (s.wgOf w).rowSpoilt e.op r = false → ¬(r.off ≤ i ∧ i < r.off + 64 * n)) → Tab.get 0 (t.wgOf w).spad i = Tab.get 0 (s.wgOf w).spad i) ∧
  ∀ (s : State) (core op w : Nat) (e : MxEntry) (o tile : Nat) (fmt : W32) (rows : List MxRow) (f : FmtWord),
    Runs s core (fun g e => e.id = op && otherReady g e) w e → e.op = .bypass o tile fmt rows → fmtWord? fmt = some f →
    (∀ r ∈ rows, r.lane < 8) → (rows.map (·.lane)).Nodup →
    ∃ t, exec (.matrixOperationComplete core op) s = .next t ∧ t.mem = s.mem ∧ (t.wgOf w).spad = (s.wgOf w).spad ∧
      ∀ r ∈ rows, (s.wgOf w).rowSpoilt e.op r = false → ∃ st, Tab.find (t.wgOf w).staging (o * 8 + r.lane) = some st ∧ st.fmt = fmt ∧ ∀ j < 64, ∀ i < drainBytes f 0,
        Tab.get 0 st.bytes (j * drainBytes f 0 + i) =
          (bytesOfNat (drainElem f 0 r.mode ((s.wgOf w).accElem o tile r.lane j)).1 (drainBytes f 0)).getD i 0

/-- R195, R197, R199, R203, R204, R209, R283, R287, R288, R291, R363, R366, R376: the engines. A copy starts with its dimension
table; each element moves its bytes between two places of the scratchpad, or writes the fill pattern, or does nothing, its index
read eight at a time, and ends the command with status 0x13 where its source is uncorrectable; a key is found or inserted at the
first slot of its probe that holds it or is empty, and `ce.acc` adds its value; a `tg` that a pre-emption saves is queued again
at its step, and a step runs the passes of the rows gathered for it; the end of a command writes STATUS, FLAGS and COUNT, the
completion word and the queue element, and frees the handle; a halted command goes on when its page is there, and fails after
36,000 ticks. -/
def Obligations.EngineSteps : Prop :=
  (∀ (s : State) (core slot w h : Nat) (c : Cmd), Serves s core slot s.startReady w h c → c.eng = 0 →
    s.awake (engineUnit core 0) = true → c.begun = false → copyBad (s.wgOf w) c = none →
    ∃ t k, exec (.engineCommandStart core slot) s = .next t ∧ t.mem = s.mem ∧ Tab.find (t.wgOf w).cmds h = some k ∧
      k.state = .running ∧ k.begun = true ∧ k.ended = c.ended ∧ k.pos = c.pos ∧ (t.wgOf w).spad = (s.wgOf w).spad ∧
      k.work = (List.range (4 * c.fld 20 1)).map fun i => (s.wgOf w).spadRead (c.fld 16 4 + 4 * i) 4) ∧
  (∀ (s : State) (core slot w h : Nat) (c : Cmd) (a : CopyAct) (n : Nat), Serves s core slot workReady w h c → c.eng = 0 →
    c.begun = true →
    let g := s.wgOf w
    let p := copyPlan c.work c
    let b := c.pos / p.inner / 8
    let batch : Option (Nat × List Nat) :=
      if p.indexed = false then none
      else if c.batch.any (fun x => x.1 == b) then c.batch
      else some (b, (List.range (min 8 (p.entries - 8 * b))).map fun j => g.spadRead (p.idx + 4 * (8 * b + j)) 4)
    c.pos < p.total → p.act (fun e => ((batch.map (·.2)).getD []).getD (e % 8) 0) c.pos = (a, n) → c.dsp = true →
    (∀ src dst, a = .move src dst → c.ssp = true → src.toNat % unitOf p.esz = 0 → src.toNat + p.esz ≤ g.hdr.spad →
      (∃ m, Spoilt.word m ∈ g.spoilt ∧ src.toNat < 4 * m + 4 ∧ 4 * m < src.toNat + p.esz) →
      ∃ t k, execEngineWork core slot s = .next t ∧ t.mem = s.mem ∧ Tab.find (t.wgOf w).cmds h = some k ∧
        k.ended = true ∧ k.status = 0x13 ∧ (t.wgOf w).spad = g.spad) ∧
    ((∀ m, Spoilt.word m ∉ g.spoilt) →
    let writes (dst : Nat) (bs : List Byte) (fl : Flags) : Prop :=
      dst % unitOf p.z = 0 → dst + bs.length ≤ g.hdr.spad →
      ∃ t k, execEngineWork core slot s = .next t ∧ t.mem = s.mem ∧ Tab.find (t.wgOf w).cmds h = some k ∧
        k.pos = c.pos + 1 ∧ k.count = c.count + n ∧ k.flags = c.flags ||| fl.toNat ∧ k.batch = batch ∧ k.ended = false ∧
        (∀ j < bs.length, Tab.get 0 (t.wgOf w).spad (dst + j) = bs.getD j 0) ∧
        ∀ i, ¬(dst ≤ i ∧ i < dst + bs.length) → Tab.get 0 (t.wgOf w).spad i = Tab.get 0 g.spad i
    (a = .skip → writes 0 [] 0) ∧
    (∀ dst, a = .fill dst → writes dst.toNat ((List.range p.z).map fun j => BitVec.ofNat 8 (p.fill / 2 ^ (8 * (j % 4)))) 0) ∧
    ∀ src dst, a = .move src dst → c.ssp = true → c.olds.getD c.pos [] = [] → src.toNat % unitOf p.esz = 0 →
      src.toNat + p.esz ≤ g.hdr.spad →
      writes dst.toNat (convElem p.conv p.fmt c.mode (g.spadBytes src.toNat p.esz)).1
        (convElem p.conv p.fmt c.mode (g.spadBytes src.toNat p.esz)).2)) ∧
  (∀ (s : State) (core slot w h : Nat) (c : Cmd), Serves s core slot workReady w h c → c.eng = 0 → c.begun = true →
    (copyPlan c.work c).total ≤ c.pos → s.copySpoilt w h c.core = [] →
    ∃ t k, execEngineWork core slot s = .next t ∧ t.mem = s.mem ∧ Tab.find (t.wgOf w).cmds h = some k ∧ k.ended = true ∧
      k.status = c.status ∧ k.count = c.count) ∧
  (∀ (s : State) (core slot w h : Nat) (c : Cmd) (log key j : Nat), Serves s core slot keyReady w h c → c.ssp = true →
    let g := s.wgOf w
    let base := (c.adr 0).toNat
    let put := c.fld 20 4 + 4 * c.pos
    base % 64 = 0 → g.hdr.spad ≤ 2 ^ 20 → g.spadRead (base + 4) 1 = log → 4 ≤ log → log ≤ 15 → base + 64 + 16 * 2 ^ log ≤ g.hdr.spad →
    c.fld 16 4 + 8 * c.pos + 8 ≤ g.hdr.spad → put + 4 ≤ g.hdr.spad → g.spadRead (c.fld 16 4 + 8 * c.pos) 8 = key →
    key ≠ 2 ^ 64 - 1 → ProbeEnds g base key log j → (∀ m, Spoilt.word m ∉ g.spoilt) → (put + 4 ≤ base ∨ base + 64 + 16 * 2 ^ log ≤ put) →
    let i := probeSlot key log j
    let next (k : Cmd) : Prop := k.pos = c.pos + 1 ∧ (k.ended = true ↔ c.pos + 1 = c.fld 28 4)
    ((c.op = 0x1E4 ∨ c.op = 0x1E5) → tableKey g base i = key →
      ∃ t k, exec (.coordKeyOp core slot) s = .next t ∧ t.mem = s.mem ∧ Tab.find (t.wgOf w).cmds h = some k ∧ next k ∧
        k.count = (if c.op = 0x1E5 then c.count + 1 else c.pos + 1) ∧
        (t.wgOf w).spadRead put 4 = g.spadRead (base + 64 + 16 * i + 8) 4 ∧
        ∀ x, ¬(put ≤ x ∧ x < put + 4) → Tab.get 0 (t.wgOf w).spad x = Tab.get 0 g.spad x) ∧
    (c.op = 0x1E6 → tableKey g base i = key → c.fld 24 4 + 4 * c.pos + 4 ≤ g.hdr.spad →
      let x := g.spadRead (base + 64 + 16 * i + 8) 4
      let acc := g.spadRead (base + 64 + 16 * i + 12) 4
      ∃ t k, exec (.coordKeyOp core slot) s = .next t ∧ t.mem = s.mem ∧ Tab.find (t.wgOf w).cmds h = some k ∧ next k ∧
        k.count = c.pos + 1 ∧ (t.wgOf w).spadRead put 4 = x ∧ (t.wgOf w).spadRead (base + 64 + 16 * i + 12) 4 =
          (if x = 0xFFFFFFFF then acc else (acc + g.spadRead (c.fld 24 4 + 4 * c.pos) 4) % 2 ^ 32)) ∧
    (c.op = 0x1E5 → tableKey g base i ≠ key →
      ∃ t k, exec (.coordKeyOp core slot) s = .next t ∧ Tab.find (t.wgOf w).cmds h = some k ∧ next k ∧ k.count = c.count ∧
        (t.wgOf w).spadRead put 4 = 0xFFFFFFFF) ∧
    (c.op = 0x1E4 → tableKey g base i ≠ key → g.spadRead base 4 + 1 ≠ 2 ^ log →
      ∃ t k, exec (.coordKeyOp core slot) s = .next t ∧ Tab.find (t.wgOf w).cmds h = some k ∧ next k ∧
        (t.wgOf w).spadRead put 4 = g.spadRead base 4 ∧ tableKey (t.wgOf w) base i = key ∧
        (t.wgOf w).spadRead (base + 64 + 16 * i + 8) 4 = g.spadRead base 4 ∧
        (t.wgOf w).spadRead (base + 64 + 16 * i + 12) 4 = 0 ∧
        (t.wgOf w).spadRead base 4 = (g.spadRead base 4 + 1) % 2 ^ 32) ∧
    (c.op = 0x1E4 → tableKey g base i ≠ key → g.spadRead base 4 + 1 = 2 ^ log →
      ∃ t k, exec (.coordKeyOp core slot) s = .next t ∧ Tab.find (t.wgOf w).cmds h = some k ∧ k.ended = true ∧
        k.status = 0x42 ∧ k.count = c.pos ∧ (t.wgOf w).spad = g.spad)) ∧
  (∀ (s : State) (core slot w h : Nat) (c : Cmd) (f : FmtWord), Serves s core slot tgReady w h c → tgFmt c = some f →
    let g := s.wgOf w
    (g.saving = true → c.got = 0 → ∃ t k, exec (.tgStep core slot) s = .next t ∧ t.mem = s.mem ∧
      Tab.find (t.wgOf w).cmds h = some k ∧ k.state = .queued ∧ (t.wgOf w).acc = g.acc ∧
      (t.wgOf w).spadRead (c.recOff + 60) 4 = (c.pos + 2 ^ 31) % 2 ^ 32) ∧
    ∀ s', (g.saving = false ∨ c.got ≠ 0) → s.tgGather w h c f (tgPos (tgMode c) c.pos) = (.ok (), s') →
      let g' := s'.wgOf w
      let read := ((Tab.find g'.cmds h).getD c).part
      let held := c.plane = some (tgPlaneId c (tgPos (tgMode c) c.pos))
      let n := if held then 0 else ((tgPlaneReads c f (tgPos (tgMode c) c.pos)).map (·.len)).sum
      let plane := if held then (g'.matrix.getD {}).active else planeOf (read.take n)
      g'.matrix.isSome → (held ∨ tgPlaneReads c f (tgPos (tgMode c) c.pos) ≠ []) →
      ∃ t k, exec (.tgStep core slot) s = .next t ∧ Tab.find (t.wgOf w).cmds h = some k ∧ k.state = .running ∧
        (t.wgOf w).acc = (g'.tgPasses f plane (c.fld 32 1) (tgRows c f (tgPos (tgMode c) c.pos) (read.drop n))).1.acc ∧
        (match ((tgPos (tgMode c) c.pos).next (tgExtents c f c.work)).bind fun q =>
            q.live (tgMode c) (tgExtents c f c.work) c.work with
          | none => k.ended = true ∧ k.count = 0 ∧ ∀ m, (t.wgOf w).matrix = some m → m.ga = c.gen ∧ m.shadowState = 0
          | some q => k.ended = false ∧ k.pos = q.word (tgMode c))) ∧
  (∀ (s : State) (core slot w h : Nat) (c : Cmd), Serves s core slot s.completeReady w h c → c.core = core → c.chan = none →
    c.mb = false →
    (c.cadr = 0 ∨ (c.csp = true ∧ c.cadr.toNat % 4 = 0 ∧ c.cadr.toNat + 4 ≤ (s.wgOf w).hdr.spad ∧
      (c.cadr.toNat + 4 ≤ c.recOff + 58 ∨ c.recOff + 64 ≤ c.cadr.toNat))) →
    ∃ t, exec (.engineCommandComplete core slot) s = .next t ∧ t.mem = s.mem ∧ Tab.find (t.wgOf w).cmds h = none ∧
      (t.wgOf w).spadRead (c.recOff + 58) 1 = c.status % 256 ∧ (t.wgOf w).spadRead (c.recOff + 59) 1 = c.allFlags % 256 ∧
      (t.wgOf w).spadRead (c.recOff + 60) 4 = c.count % 2 ^ 32 ∧
      (c.cadr ≠ 0 → (t.wgOf w).spadRead c.cadr.toNat 4 = c.fld 48 4) ∧
      ∀ k, c.succ.toNat ≠ h → Tab.find (s.wgOf w).cmds c.succ.toNat = some k → k.state = .held →
        (Tab.find (t.wgOf w).cmds c.succ.toNat).map (·.state) = some (if c.status = 0 then .queued else .held)) ∧
  (∀ (s : State) (core slot w h : Nat) (c : Cmd) (q : Nat) (ch : Chan), Serves s core slot s.pushReady w h c →
    c.chan = some q → (s.wgOf w).resultQueue c = some (q, ch) →
    ∃ t, exec (.engineQueuePush core slot) s = .next t ∧ t.mem = s.mem ∧ Tab.find (t.wgOf w).cmds h = none ∧
      (Tab.find (t.wgOf w).chans q).map (fun k => (k.head, k.tail)) = some (ch.head, ch.tail + 1) ∧
      (t.wgOf w).spadBytes (ch.addr ch.tail) ch.bytes = bytesOfNat ((if c.eng = 3 then c.count else h) % 2 ^ 128) ch.bytes) ∧
  (∀ (s : State) (core slot w h : Nat) (c : Cmd), Serves s core slot s.resumeReady w h c →
    exec (.engineFaultResume core slot) s =
      .next ((s.modCmd w h fun c => { c with state := .running }).engWork w h)) ∧
  ∀ (s : State) (core slot w h : Nat) (c : Cmd), Serves s core slot s.haltOver w h c → c.eng ≠ 2 →
    ∃ t k, exec (.engineFaultTimeout core slot) s = .next t ∧ t.mem = s.mem ∧ Tab.find (t.wgOf w).cmds h = some k ∧
      k.state = .running ∧ k.ended = true ∧ k.status = 0x10 ∧
      (t.dieAt (s.core w / 64)).elcnt = (s.dieAt (s.core w / 64)).elcnt + 1

/-- R248, R250 to R257, R342: the Hearth reads an armed block, which waits or fails where it may not run; an eligible leaf is
launched, its tick and state written; a run that has ended writes its counters, its status and its state. -/
def Obligations.RegionsRun : Prop :=
  (∀ (s : State) (pa tid va : Nat) (t : RTable), pa ∈ s.signals → s.blockAt pa = some (tid, t, va) → s.natAt pa 4 = 1 →
    s.hostHolds pa = false → s.badBlock pa = [] →
    ∃ u r, exec (.hearthReadBlock pa) s = .next u ∧ pa ∉ u.signals ∧ Tab.find u.regions pa = some r ∧ r.table = tid ∧
      (s.linksOk t pa = false → r.ending = some 5 ∧ u.mem = s.mem) ∧
      (s.linksOk t pa = true → r.ending = none ∧
        (s.mayRun t pa = true → r.state = 1 ∧ u.mem = s.mem) ∧ (s.mayRun t pa = false → r.state = 2 ∧ u.natAt pa 4 = 2))) ∧
  (∀ (s : State) (pa : Nat) (r : Region) (t : RTable), Tab.find s.regions pa = some r → s.eligible pa r = true →
    Tab.find s.tables r.table = some t → pa % 256 = 0 → r.leaf = true → s.natAt (pa + 32) 1 = 1 → s.hostHolds pa = false →
    s.hostHolds (pa + 192) = false → s.isBad pa = false → s.isBad (pa + 192) = false →
    let v := s.resolve t pa
    ∃ u q, exec (.regionEligible pa) s = .next u ∧ Tab.find u.regions pa = some q ∧
      (s.blockOk pa v = false → q.ending = some 5 ∧ u.mem = s.mem) ∧
      (s.blockOk pa v = true → q.state = 3 ∧ q.leaf = true ∧ q.total = v.gx * v.gy * v.gz ∧ q.reltk = s.hb ∧
        u.natAt pa 4 = 3 ∧ u.natAt (pa + 208) 8 = s.hb.toNat ∧
        (s.headerLine t.ctx v.kernel = none → q.ending = some 1) ∧
        (∀ bs, s.headerLine t.ctx v.kernel = some bs → headerOk bs = false → q.ending = some 1) ∧
        ∀ a, ¬(pa ≤ a ∧ a < pa + 4) → ¬(pa + 208 ≤ a ∧ a < pa + 216) → u.byte a = s.byte a)) ∧
  (∀ (s : State) (pa : Nat) (r : Region), Tab.find s.regions pa = some r → s.mustKill pa r = true → s.Numbered →
    ∃ u, exec (.regionComplete pa) s = .next u ∧ u.mem = s.mem ∧ ∀ p ∈ u.wgs, p.2.block = pa →
      p.2.kill = true ∧ p.2.status ≠ .parked ∧ ((s.wgOf p.1).kill = false → p.2.tails = [] ∧ ∀ q ∈ p.2.threads, q.2.ended = true)) ∧
  ∀ (s : State) (pa : Nat) (r : Region) (t : RTable), Tab.find s.regions pa = some r → s.mustKill pa r = false →
    s.runOver pa r = true → Tab.find s.tables r.table = some t → pa % 256 = 0 → s.natAt (pa + 104) 8 = 0 →
    s.natAt (pa + 96) 2 = 0 → s.hostHolds pa = false → s.hostHolds (pa + 216) = false →
    s.isBad pa = false → s.isBad (pa + 216) = false →
    let st := r.ending.getD 0
    let adds (u : State) (off n : Nat) : Prop := u.natAt (pa + off) 8 = (s.natAt (pa + off) 8 + n) % 2 ^ 64
    ∃ u, exec (.regionComplete pa) s = .next u ∧ Tab.find u.regions pa = none ∧
      u.natAt pa 4 = (if st = 0 then 4 else 5) ∧ u.natAt (pa + 248) 4 = st % 2 ^ 32 ∧ adds u 216 r.done ∧
      adds u 224 r.runtk.toNat ∧ adds u 232 r.npre.toNat ∧
      ∀ a, ¬(pa ≤ a ∧ a < pa + 4) → ¬(pa + 216 ≤ a ∧ a < pa + 252) → u.byte a = s.byte a

/-- R226, R227, R258, R259, R262, R264, R353, R354: the Hearth writes a bind record for the first workgroup in order that fits,
at a place that is free; a class 1 region that has waited 64 ticks pre-empts; the dispatch unit obeys a record: a workgroup
starts with every thread at the entry and every register 0, or goes on where it was saved. -/
def Obligations.Binding : Prop :=
  (∀ (s : State) (pa : Nat) (r : Region) (n : Nat) (p : Place), s.queue.head? = some (pa, r, none, n) → r.hdr.gbar = false →
    s.placeFor pa r none = some p →
    ∃ t b, exec (.hearthBind pa) s = .next t ∧ t.mem = s.mem ∧ Tab.find (t.coreOf p.core).slots p.slot = some b ∧
      b.block = pa ∧ b.wg = n ∧ b.op = 1 ∧ b.obeyed = false ∧ b.spBase = p.sp ∧ b.regBase = p.reg ∧ b.accBase = p.acc ∧
      p.slot < 32 ∧ (∀ q ∈ (s.coreOf p.core).slots, q.1 = p.slot → q.2.op = 0) ∧ p.sp % 256 = 0 ∧
      p.sp + r.hdr.spad ≤ 2 ^ 20 ∧ p.reg + r.hdr.regs ≤ 2 ^ 17 ∧ p.acc + r.hdr.tileCount ≤ 64 ∧
      s.resThreads p.core + r.hdr.threads ≤ 2048) ∧
  (∀ (s : State) (pa core : Nat) (r : Region) (g : Option (Nat × Workgroup)) (n : Nat) (gone : List Nat),
    s.firstStuck = some (pa, r, g, n) → r.hdr.gbar = false → r.res.cls = 1 → (∃ t, r.waiting = some t ∧ t.toNat + 64 ≤ s.hb.toNat) →
    s.roomFor pa r (g.map Prod.snd) = some (core, gone) →
    ∃ t, exec (.highClassPreemptWait pa) s = .next t ∧ t.mem = s.mem ∧
      ∀ slot, Tab.find (t.coreOf core).slots slot = (Tab.find (s.coreOf core).slots slot).map fun b =>
        if b.uid.any gone.contains then { b with op := 3, obeyed := false, seq := s.nextReq } else b) ∧
  (∀ (s : State) (core slot : Nat) (b : BindRec) (r : Region) (tab : RTable), s.takes core = true →
    s.record core slot 1 = some b → Tab.find s.regions b.block = some r → r.ending = none →
    Tab.find s.tables r.table = some tab →
    ∃ t g, exec (.bind core slot) s = .next t ∧ t.mem = s.mem ∧ Tab.find t.wgs s.binds = some g ∧ g.block = b.block ∧
      g.wg = b.wg ∧ g.core = core ∧ g.hdr = r.hdr ∧ g.ctx = tab.ctx ∧ g.status = .running ∧ g.hwarps = [] ∧ g.acc = [] ∧
      g.chans = [] ∧ g.matrix = none ∧
      (∀ i, Tab.find g.threads i = if i < r.hdr.threads then some { tid := i, pc := ⟨r.hdr.entry, 0⟩ } else none) ∧
      (Tab.find t.regions b.block).map (·.bound) = some (r.bound + 1) ∧
      (Tab.find (t.coreOf core).slots slot).map (fun b => (b.uid, b.obeyed)) = some (some s.binds, true) ∧
      s.hb.toNat ≤ (t.coreOf core).acq.toNat) ∧
  ∀ (s : State) (core slot w : Nat) (b : BindRec) (g : Workgroup), s.takes core = true → s.record core slot 2 = some b →
    b.uid = some w → Tab.find s.wgs w = some g →
    ∃ t, exec (.resume core slot) s = .next t ∧ t.mem = s.mem ∧ (t.wgOf w).status = .running ∧ (t.wgOf w).core = core ∧
      let owes := ∃ i x, Tab.find g.threads i = some x ∧ x.failed ≠ []
      (t.wgOf w).spad = g.spad ∧ (¬owes → (t.wgOf w).hwarps = g.hwarps) ∧ (t.wgOf w).acc = g.acc ∧
      s.hb.toNat ≤ (t.coreOf core).acq.toNat ∧
      ∀ i x, Tab.find g.threads i = some x → x.ended = false →
        (t.thread w i).parked = false ∧ (t.thread w i).v = x.v ∧ (t.thread w i).p = x.p ∧
        (∀ e, x.priv = false → g.hdr.restore = some e →
          (t.thread w i).pc = ⟨e, 0⟩ ∧ (t.thread w i).user = .restoreHandler) ∧
        (x.priv = true ∨ g.hdr.restore = none → ¬owes → (t.thread w i).pc = x.pc)

/-- R351, R352, R353: pre-emption: the record begins it; a thread between groups enters the pre-empt handler with `%tcause` 0x30
once it has settled, or parks where it stands, as does one in a trap handler; one in the restore handler parks at the place it
was to restore; a handler that takes 65,536 clocks parks too, settled and its writes acknowledged; what stands still is saved,
and its slot is free. -/
def Obligations.Preemption : Prop :=
  (∀ (s : State) (core slot w : Nat) (b : BindRec) (g : Workgroup), s.record core slot 3 = some b → b.uid = some w →
    Tab.find s.wgs w = some g → g.status = .running →
    ∃ t, exec (.preempt core slot) s = .next t ∧ t.mem = s.mem ∧ (t.wgOf w).status = .preempting ∧
      ∀ r, Tab.find s.regions g.block = some r → (Tab.find t.regions g.block).map (·.npre) = some (r.npre + 1)) ∧
  (∀ (s : State) (w i : Nat), s.Numbered → IsThread s w (fun _ => True) i → s.entryReady w i = true →
    let x := s.thread w i
    ∃ t, exec (.preemptEntry w i) s = .next t ∧ t.mem = s.mem ∧ OthersStand s t w (· = i) ∧ (t.thread w i).v = x.v ∧
      (x.priv = true → (t.thread w i).parked = true ∧ (t.thread w i).pc = x.pc) ∧
      (x.priv = false → x.user = .restoreHandler → (t.thread w i).parked = true ∧
        ∀ f rest, x.frames = f :: rest → (t.thread w i).pc = f.pc ∧ (t.thread w i).user = f.user) ∧
      (x.priv = false → x.user ≠ .restoreHandler → s.idle w x = false → (t.thread w i).hold = .implicit ∧ (t.thread w i).pc = x.pc) ∧
      (x.priv = false → x.user ≠ .restoreHandler → s.idle w x = true →
        (∀ e, (s.wgOf w).hdr.preempt = some e → (t.thread w i).pc = ⟨e, 0⟩ ∧ (t.thread w i).tcause = 0x30 ∧
          (t.thread w i).user = .preemptHandler ∧ (t.thread w i).parked = x.parked) ∧
        ((s.wgOf w).hdr.preempt = none → (t.thread w i).parked = true ∧ (t.thread w i).pc = x.pc ∧
          (t.thread w i).hold = x.hold.kept))) ∧
  (∀ (s : State) (w i : Nat), s.Numbered → IsThread s w (fun _ => True) i → s.handlerOver w i = true →
    let out := (s.drainDeps (s.wgOf w) ⟨true, true, true, true⟩ (laneAt (s.wgOf w) none i)).1
    (s.idle w (s.thread w i) = false → ∃ t, exec (.preemptHandlerTimeout w i) s = .next t ∧ t.mem = s.mem ∧
      (t.thread w i).hold = .implicit) ∧
    (s.idle w (s.thread w i) = true → out ≠ [] → ∃ t, exec (.preemptHandlerTimeout w i) s = .next t ∧ t.mem = s.mem ∧
      (t.thread w i).hold = .drain out false) ∧
    (s.idle w (s.thread w i) = true → out = [] →
      ∃ t, exec (.preemptHandlerTimeout w i) s = .next t ∧ t.mem = s.mem ∧ (t.thread w i).parked = true)) ∧
  ∀ (s : State) (w : Nat), s.Numbered → s.saveReady w = true → (s.wgOut (s.wgOf w)).1 = [] →
    ∃ t, exec (.contextSave w) s = .next t ∧ t.mem = s.mem ∧ (t.wgOf w).status = .parked ∧
      (t.wgOf w).hwarps = (s.wgOf w).hwarps ∧ (t.wgOf w).spad = (s.wgOf w).spad ∧
      Tab.find (t.coreOf (s.core w)).slots (s.wgOf w).slot = none

/-- R94, R95, R201, R256: a workgroup ends when its threads and commands are over, and is counted once its writes are
acknowledged; `tail` starts the successor in its place where it fits and every thread names the same one, and ends the region
with status 4, 1 or 3 where not. -/
def Obligations.WorkgroupsEnd : Prop :=
  (∀ (s : State) (w : Nat), s.Numbered → s.endReady w = true →
    ((s.wgOf w).status ≠ .ending → ∃ t, exec (.workgroupEnd w) s = .next t ∧ t.mem = s.mem ∧ (t.wgOf w).status = .ending ∧
      (t.wgOf w).cmds = [] ∧ (t.wgOf w).mxq = []) ∧
    ((s.wgOf w).status = .ending → ∃ t, exec (.workgroupEnd w) s = .next t ∧ t.mem = s.mem ∧ Tab.find t.wgs w = none ∧
      Tab.find (t.coreOf (s.core w)).slots (s.wgOf w).slot = none ∧
      ∀ r, Tab.find s.regions (s.wgOf w).block = some r →
        (Tab.find t.regions (s.wgOf w).block).map (·.done) = some (r.done + 1))) ∧
  ∀ (s : State) (w : Nat) (x : TailRec) (rest : List TailRec), s.Numbered → s.tailReady w = true → (s.wgOf w).tails = x :: rest →
    let g := s.wgOf w
    let line := s.headerLine g.ctx x.hdr
    let h := (line.map headerOf).getD {}
    let fails (st : Nat) : Prop := ∃ t, exec (.tailStart w) s = .next t ∧ t.mem = s.mem ∧ Tab.find t.wgs w = none ∧
      ∀ r, Tab.find s.regions g.block = some r → (Tab.find t.regions g.block).map (·.ending) = some (some (r.ending.getD st))
    let same := ∀ u ∈ rest, u = x
    let fits := h.spad ≤ g.hdr.spad ∧ h.regs ≤ g.hdr.regs ∧ h.threads ≤ g.hdr.threads ∧ h.tileCount ≤ g.hdr.tileCount
    (¬same → fails 4) ∧ (same → (line = none ∨ ∃ bs, line = some bs ∧ headerOk bs = false) → fails 1) ∧
    (same → (∃ bs, line = some bs ∧ headerOk bs = true) → ¬fits → fails 3) ∧
    (same → (∃ bs, line = some bs ∧ headerOk bs = true) → fits →
      ∃ t, exec (.tailStart w) s = .next t ∧ t.mem = s.mem ∧ (t.wgOf w).hdr = h ∧ (t.wgOf w).args = x.args ∧
        (t.wgOf w).byTail = true ∧ (t.wgOf w).status = .running ∧ (t.wgOf w).wg = g.wg ∧ (t.wgOf w).block = g.block ∧
        (∀ i < h.spad, Tab.get 0 (t.wgOf w).spad i = Tab.get 0 g.spad i) ∧ (t.wgOf w).hwarps = [] ∧ (t.wgOf w).acc = [] ∧
        ∀ i, Tab.find (t.wgOf w).threads i = if i < h.threads then some { tid := i, pc := ⟨h.entry, 0⟩ } else none)

/-- R265, R266, R408: power states: a unit that is set to P0 begins its wake, which takes the clocks of its state; one that may
sleep does, and a core in P3 or P4 keeps no line and no translation; throttling takes clocks, never all; shutdown stops the
module. -/
def Obligations.PowerAndTemperature : Prop :=
  (∀ (s : State) (u : Nat), isUnit u = true → s.powerOf u ≠ 0 → s.powerOf u ≤ 4 → s.isWaking u = false → u % 8 ≠ 6 ∨ 1024 ≤ u →
    ∃ t, exec (.powerStateSet u 0) s = .next t ∧ t.mem = s.mem ∧ t.powerOf u = s.powerOf u ∧
      Tab.find t.waking u = some (s.hb.toNat * 64 + [0, 6, 2765, 20736, 80640].getD (s.powerOf u) 0)) ∧
  (∀ (s : State) (u p : Nat), 0 < p → (s.powerOk u p = false → exec (.powerStateSet u p) s = .next s) ∧
    (s.powerOk u p = true → ∃ t, exec (.powerStateSet u p) s = .next t ∧ t.mem = s.mem ∧ t.powerOf u = p ∧
      t.isWaking u = false ∧ (∀ v, v ≠ u → t.powerOf v = s.powerOf v) ∧
      (3 ≤ p → u < 1024 → u % 8 = 0 → (t.coreOf (u / 8)).tlb = [] ∧ (t.coreOf (u / 8)).l1 = [] ∧
        (t.coreOf (u / 8)).l1Sealed = []))) ∧
  (∀ (s : State) (u n : Nat), Tab.find s.waking u = some n → n ≤ s.hb.toNat * 64 →
    ∃ t, exec (.wakeComplete u) s = .next t ∧ t.mem = s.mem ∧ t.powerOf u = 0 ∧ t.isWaking u = false) ∧
  (∀ (s : State) (scale : Nat), exec (.thermalThrottle scale) s = .next { s with clockScale := min scale 63 }) ∧
  (∀ s : State, exec .thermalShutdown s = .next { s with stopped := true, ths := true }) ∧
  ∀ s : State, s.stopped = true →
    (∀ rest, s.agenda = .reset :: rest → Machine.step s = exec .reset { s with agenda := rest }) ∧
    ((∀ rest, s.agenda ≠ .reset :: rest) → Machine.step s = .fault .stopped)

/-- R389, R391, R394, R395, R397, R398, R400, R401: a column of the Hall grants one beat; a link sends a flit of one class, takes
one in sequence and discards any other, replays what was not acknowledged, retrains, and goes down with its requests
answered. -/
def Obligations.HallAndLinks : Prop :=
  (∀ (u n b : Bool) (cn cb : Nat),
    pickClass u n b cn cb = if b = true ∧ 32 ≤ cb then some 2 else if n = true ∧ 16 ≤ cn then some 1
      else if u = true then some 0 else if n = true then some 1 else if b = true then some 2 else none) ∧
  (∀ (s : State) (die col plane : Nat), (s.atColumn die col plane = [] → exec (.hallGrant die col plane) s = .next s) ∧
    ∀ cls, (Tab.get {} (s.dieAt die).hall (col * 2 + plane)).opened = [] →
      (let h := Tab.get {} (s.dieAt die).hall (col * 2 + plane)
       let has (c : Nat) : Bool := (s.atColumn die col plane).any fun p => p.2.1.cls = c
       pickClass (has 0) (has 1) (has 2) h.n h.b) = some cls →
      (∀ q ∈ s.atColumn die col plane, q.2.2 < 64) → Tab.sorted s.pkts = true →
      ∃ t id p row, (id, p, row) ∈ s.atColumn die col plane ∧ p.cls = cls ∧ exec (.hallGrant die col plane) s = .next t ∧
        (∀ q ∈ s.atColumn die col plane, q.2.1.cls = cls →
          q.2.2 ∉ (Tab.get {} (s.dieAt die).hall (col * 2 + plane)).recent →
          row ∉ (Tab.get {} (s.dieAt die).hall (col * 2 + plane)).recent) ∧
        (p.sent + 1 < (p.bytes + 63) / 64 → t.mem = s.mem ∧ Tab.find t.pkts id = some { p with sent := p.sent + 1 } ∧
          ∀ k, k ≠ id → Tab.find t.pkts k = Tab.find s.pkts k) ∧
        ((p.bytes + 63) / 64 ≤ p.sent + 1 → 2 ≤ p.hops.length →
          t.mem = s.mem ∧ Tab.find t.pkts id = some { p with hops := p.hops.drop 1, sent := 0 })) ∧
  (∀ (s : State) (l d : Nat), d < 2 →
    let x := s.linkAt l
    let y := x.dir d
    let has (c : Nat) : Bool := (s.atLink l d).any fun p => p.2.cls = c
    (∀ cls, x.status = .up → y.unacked.length < 2048 → pickClass (has 0) (has 1) (has 2) y.n y.b = some cls →
      (1 ≤ l ∧ l ≤ 12 → s.awake (portUnit (l - 1)) = true) →
      ∃ t f, exec (.linkFlitSend l d) s = .next t ∧ t.mem = s.mem ∧ f.cls = cls ∧ f.seq = y.seq ∧
        ((t.linkAt l).dir d).unacked = y.unacked ++ [f] ∧ ((t.linkAt l).dir d).wire = y.wire ++ [f] ∧
        ((t.linkAt l).dir d).seq = (y.seq + 1) % 4096 ∧ 0 < (f.parts.map (·.2)).sum ∧
        (f.parts.map (·.2)).sum ≤ (if 1 ≤ l ∧ l ≤ 12 then 112 else 240)) ∧
    (∀ f rest, x.status = .up → y.wire = f :: rest → f.seq = y.expect →
      ∃ t, exec (.flitReceive l d true) s = .next t ∧ ((t.linkAt l).dir d).expect = (y.expect + 1) % 4096 ∧
        ((t.linkAt l).dir d).wire = rest ∧ ∀ g ∈ ((t.linkAt l).dir d).unacked, g.seq ≠ f.seq) ∧
    (∀ f rest good, x.status = .up → y.wire = f :: rest → good = false ∨ f.seq ≠ y.expect →
      exec (.flitReceive l d good) s = .next (s.modLink l fun x => x.setDir d { y with wire := rest })) ∧
    (x.status = .up → y.wire = [] → y.unacked ≠ [] →
      ∃ t, exec (.replayRequest l d) s = .next t ∧ t.mem = s.mem ∧ ((t.linkAt l).dir d).wire = y.unacked ∧
        (t.linkAt l).replays = x.replays + 1)) ∧
  ∀ (s : State) (l : Nat),
    let x := s.linkAt l
    (x.status = .up → ∃ t, exec (.linkRetrainStart l) s = .next t ∧ t.mem = s.mem ∧ (t.linkAt l).status = .retraining s.hb ∧
      (t.linkAt l).fails = x.fails) ∧
    (∀ n, x.status = .retraining n →
      (∃ t, exec (.linkRetrainStart l) s = .next t ∧ t.mem = s.mem ∧ (t.linkAt l).fails = x.fails + 1) ∧
      (s.hb.toNat ≤ n.toNat + 359712 → ∃ t, exec (.linkRetrainEnd l) s = .next t ∧ t.mem = s.mem ∧ (t.linkAt l).status = .up ∧
        (t.linkAt l).fails = 0 ∧ (t.linkAt l).out.wire = x.out.unacked ∧ (t.linkAt l).back.wire = x.back.unacked) ∧
      (n.toNat + 359712 ≤ s.hb.toNat ∨ 3 ≤ x.fails → ∃ t, exec (.linkDown l) s = .next t ∧ (t.linkAt l).status = .down ∧
        (l = 0 → t.uld = true) ∧ ∀ id r, Tab.find s.reqs id = some r → s.usesLink l r = true → Tab.find t.reqs id = none))

/-- R404, R406, R407: accesses of the host and of peers: beyond the usable memory, or where the route does not allow them, they
are refused; others become requests to their home, one for each sector; a packet for another node is forwarded with one hop
less; a snoop answered clears the host bit, and a snoop of the host removes the copies of its line. -/
def Obligations.HostAndPeers : Prop :=
  (∀ (s : State) (addr size tag : Nat), s.usz * 2 ^ 21 < addr + size →
    exec (.hostMemRead addr size tag) s = .next { s with out := s.out ++ [.hostRead tag false []] }) ∧
  (∀ (s : State) (addr : Nat) (bytes : List Byte), s.usz * 2 ^ 21 < addr + bytes.length →
    exec (.hostMemWrite addr bytes) s = .next { s with out := s.out ++ [.hostWrite false] }) ∧
  (∀ (s : State) (addr size tag : Nat), addr + size ≤ s.usz * 2 ^ 21 → s.usz ≤ 2 ^ 23 → 0 < size → addr % 64 + size ≤ 64 →
    s.linkUp 0 = true →
    ∃ t r, exec (.hostMemRead addr size tag) s = .next t ∧ t.mem = s.mem ∧ t.out = s.out ∧
      Tab.find t.reqs s.nextReq = some r ∧ r.by_ = .host ∧ r.kind = .readAlone ∧ r.pa = s.node * 2 ^ 44 + addr ∧ r.size = size) ∧
  (∀ (s : State) (addr : Nat) (bytes : List Byte), addr + bytes.length ≤ s.usz * 2 ^ 21 → s.usz ≤ 2 ^ 23 → bytes ≠ [] →
    addr % 64 + bytes.length ≤ 64 → s.linkUp 0 = true →
    ∃ t r, exec (.hostMemWrite addr bytes) s = .next t ∧ t.mem = s.mem ∧ t.out = s.out ∧
      Tab.find t.reqs s.nextReq = some r ∧ r.by_ = .host ∧ r.kind = .write ∧ r.pa = s.node * 2 ^ 44 + addr ∧ r.data = bytes) ∧
  (∀ (s : State) (line : Nat), line ∈ s.snoops →
    ∃ t, exec (.backInvalidateResponse line) s = .next t ∧ t.mem = s.mem ∧ line ∉ t.snoops ∧
      (Tab.get {} t.dir line).host = false ∧ (Tab.get {} t.dir line).sharers = (Tab.get {} s.dir line).sharers) ∧
  (∀ (s : State) (line : Nat), line * 64 / 2 ^ 44 = 255 →
    ∃ t, exec (.hostSnoop line) s = .next t ∧ t.mem = s.mem ∧
      (∀ d p, Tab.find (t.dieAt d).porch (line / 4) = some p → Tab.find p.sects (line % 4) = none) ∧
      ∀ core key, key % 2 ^ 46 = line → Tab.find (t.coreOf core).l1 key = none) ∧
  ∀ (s : State) (node dst hop : Nat) (write : Bool) (addr size : Nat) (bytes : List Byte),
    let refused := ∃ t, exec (.peerPacketReceive node dst hop write addr size bytes) s = .next t ∧ t.mem = s.mem ∧
      t.reqs = s.reqs ∧ (t.dieAt 0).elcnt = (s.dieAt 0).elcnt + 1 ∧ Out.peer node false [] ∈ t.out
    (dst ≠ s.node → (Tab.get 0 s.routes dst).getLsbD 13 = true → 0 < hop →
      exec (.peerPacketReceive node dst hop write addr size bytes) s =
        .next { s with out := s.out ++ [.forward dst (hop - 1) write addr size bytes] }) ∧
    (dst ≠ s.node → (Tab.get 0 s.routes dst).getLsbD 13 = false ∨ hop = 0 → refused) ∧
    (dst = s.node → (Tab.get 0 s.routes node).getLsbD 12 = false ∨ s.usz * 2 ^ 21 < addr % 2 ^ 44 + size → refused) ∧
    (dst = s.node → (Tab.get 0 s.routes node).getLsbD 12 = true → addr % 2 ^ 44 + size ≤ s.usz * 2 ^ 21 → s.usz ≤ 2 ^ 23 →
      0 < size → addr % 64 + size ≤ 64 → bytes.length = size → s.linkUp 0 = true →
      ∃ t r, exec (.peerPacketReceive node dst hop write addr size bytes) s = .next t ∧ t.mem = s.mem ∧ t.out = s.out ∧
        Tab.find t.reqs s.nextReq = some r ∧ r.by_ = .peer node ∧ r.kind = (if write then .write else .readAlone) ∧
        r.pa = s.node * 2 ^ 44 + addr % 2 ^ 44 ∧ (write = true → r.data = bytes))

/-- R409, R410, R412: a reset clears everything but the fuses, firmware storage, THS and the grade; a device none of whose
UCIe modules trains is left in PHASE 3; a staged image that verifies runs from it, and one that does not leaves PHASE 3; a write of
DEVSTAT clears THS where its bit is 1. -/
def Obligations.ResetAndDevstat : Prop :=
  (∀ s : State, ∃ t, exec .reset s = .next t ∧ t.wgs = [] ∧ t.regions = [] ∧ t.tables = [] ∧ t.reqs = [] ∧ t.routes = [] ∧
    t.seals = [] ∧ t.homes = [] ∧ t.hb = 0 ∧ t.node = 0 ∧ t.stopped = false ∧ t.ths = s.ths ∧ t.grade = s.grade ∧
    t.transferred = s.transferred ∧ t.powerLimit = (if s.grade then 650 else 450) ∧ (t.phase = 2 ∨ t.phase = 3) ∧
    (t.umod ≠ 0 ∨ t.phase = 3) ∧ t.staged = none ∧
    (∀ a, a / 2 ^ 44 = s.node ∨ a / 2 ^ 44 = 0 → t.byte a = 0) ∧
    (s.staged = none → t.image = s.image ∧ t.versionFuse = s.versionFuse ∧ t.certs = s.certs) ∧
    ∀ i, s.staged = some i →
      (Config.fuseVerify i.bytes = true ∧ s.versionFuse ≤ i.version → t.image = i ∧ t.versionFuse = i.version ∧
        t.certs = s.certs ++ [s.stagedCert]) ∧
      (¬(Config.fuseVerify i.bytes = true ∧ s.versionFuse ≤ i.version) → t.image = s.image ∧ t.versionFuse = s.versionFuse ∧
        t.phase = 3)) ∧
  (∀ (s : State) (v : W64), exec (.devstatWrite v) s = .next (if v.getLsbD 20 then { s with ths := false } else s)) ∧
  ∀ s : State, s.usz < 2 ^ 32 → s.phase < 4 → s.node < 64 →
    let d := s.devstat.toNat
    d % 4 = s.phase ∧ d / 2 ^ 2 % 2 = s.hsb.toNat ∧ d / 2 ^ 3 % 2 = s.grade.toNat ∧ d / 2 ^ 4 % 2 ^ 8 = s.umod.toNat ∧
      d / 2 ^ 12 % 2 ^ 4 = s.lwid.toNat ∧ d / 2 ^ 16 % 2 ^ 4 = s.lspd.toNat ∧ d / 2 ^ 20 % 2 = s.ths.toNat ∧
      d / 2 ^ 21 % 64 = s.node ∧ d / 2 ^ 27 % 2 = s.uld.toNat ∧ d / 2 ^ 28 % 2 ^ 4 = 0 ∧ d / 2 ^ 32 = s.usz

/-- R249, R266, R350, R400, R401, R403, R408, R410, R411, R413, R414, R415: the mailbox. -/
def Obligations.MailboxCommands : Prop :=
  (∀ (node : Nat) (e : W32), MailboxCommand (.writeRouteEntry node e) 0xC002 (fun _ => node < 64) 0 (fun _ => []) fun s =>
    { s with routes := Tab.set 0 s.routes node (e &&& 0x3FFF) }) ∧
  (∀ port : Nat, MailboxCommand (.xelasPortDeclareDown port) 0xC003 (fun _ => port < 12) 0 (fun _ => []) fun s =>
    s.declareDown (port + 1)) ∧
  (∀ n : Nat, MailboxCommand (.deadlineDemandFloor n) 0xC004 (fun _ => n ≤ 128) 0 (fun _ => []) fun s => { s with floor := n }) ∧
  (∀ n : Nat, MailboxCommand (.powerLimit n) 0xC005 (fun _ => 100 ≤ n ∧ n ≤ 65535) 0
    (fun s => bytesOfNat (min n (if s.grade then 650 else 450)) 2) fun s =>
      { s with powerLimit := min n (if s.grade then 650 else 450) }) ∧
  (MailboxCommand .eventQueueEntry 0xC007 (fun _ => True) 0
    (fun s => match s.events with
      | [] => []
      | e :: _ => bytesOfNat e.addr.toNat 8 ++ bytesOfNat e.asid 2 ++ bytesOfNat e.core 2 ++ bytesOfNat e.tick.toNat 8)
    fun s => { s with events := s.events.drop 1 }) ∧
  (∀ n : Nat, MailboxCommand (.replayThreshold n) 0xC008 (fun _ => True) 0 (fun _ => []) fun s => { s with replayLimit := n }) ∧
  (∀ n : Nat, MailboxCommand (.nodeNumber n) 0xC009
    (fun s => n < 64 ∧ (∀ p < 12, s.linkUp (p + 1) = false) ∧ ∀ q ∈ s.tables, s.tableIdle q.1 = true) 0 (fun _ => []) fun s =>
      if n = s.node then s else s.renumber n) ∧
  (∀ (s : State) (n a : Nat), n ≠ s.node → n < 64 → a < 2 ^ 44 → Memory.wf s.mem = true →
    (s.renumber n).node = n ∧ (s.renumber n).byte (n * 2 ^ 44 + a) = s.byte (s.node * 2 ^ 44 + a)) ∧
  (∀ n : Nat, MailboxCommand (.certificateChain n) 0xC00A (fun s => n < s.certs.length) 0 (fun s => s.certs.getD n []) id) ∧
  (∀ (s : State) (port : Nat), s.phase = 2 → s.enabling = [] → port < 12 →
    (s.linkUp (port + 1) = true → exec (.xelasPortReenable port) s = .next { s with out := s.out ++ [.mailbox 0xC003 0 [], .msix 0] }) ∧
    (s.linkUp (port + 1) = false → exec (.xelasPortReenable port) s = .next { s with enabling := [port] })) ∧
  (∀ (s : State) (port : Nat), port ∈ s.enabling → s.portQuiet port = true →
    ∃ t, exec (.portReenableComplete port) s = .next t ∧ t.mem = s.mem ∧ Answers s t 0xC003 0 [] ∧ t.linkUp (port + 1) = true ∧
      port ∉ t.enabling) ∧
  (∀ (s : State) (base len asid root : Nat) (key0 : Bool), s.phase = 2 → s.enabling = [] →
    let good := base % 4096 = 0 ∧ base + len ≤ 2 ^ 48 ∧ len % 256 = 0 ∧ len ≤ 2 ^ 26 ∧ asid < 2 ^ 16 ∧ root % 4096 = 0 ∧
      root < 2 ^ 52 ∧ s.tables.length < 256
    (¬good → exec (.registerTable base len asid root key0) s = .next { s with out := s.out ++ [.mailbox 0xC000 2 [], .msix 0] }) ∧
    (good → ∃ t n key, exec (.registerTable base len asid root key0) s = .next t ∧ t.mem = s.mem ∧ n < 256 ∧
      Tab.find s.tables n = none ∧ Answers s t 0xC000 0 [BitVec.ofNat 8 n] ∧
      Tab.find t.tables n = some { base, len, ctx := { asid, root, key } } ∧ (key0 = true → key = 0) ∧
      (key0 = false → (∀ p ∈ s.tables, p.2.ctx.asid = asid → p.2.ctx.root = root → p.2.ctx.key = 0) →
        1 ≤ key ∧ key ≤ 4095 ∧ ∀ p ∈ s.tables, p.2.ctx.key ≠ key) ∧
      ∀ i < len / 256, ∀ pa, s.lookup { asid, root, key } (base + 256 * i) = some pa → s.natAt pa 4 = 1 → pa ∈ t.signals)) ∧
  (∀ (s : State) (n : Nat), s.phase = 2 → s.enabling = [] →
    (s.background ≠ none → exec (.deregisterTable n) s = .next { s with out := s.out ++ [.mailbox 0xC001 6 [], .msix 0] }) ∧
    (s.background = none → Tab.find s.tables n = none →
      exec (.deregisterTable n) s = .next { s with out := s.out ++ [.mailbox 0xC001 2 [], .msix 0] }) ∧
    ∀ t, s.background = none → Tab.find s.tables n = some t →
      ∃ u, exec (.deregisterTable n) s = .next u ∧ u.mem = s.mem ∧ Answers s u 0xC001 1 [] ∧ u.background = some n ∧
        Tab.find u.tables n = some { t with deregistering := true }) ∧
  (∀ (s : State) (n : Nat), s.background = some n → s.tableIdle n = true →
    exec .deregistrationComplete s = .next { s with
      tables := Tab.erase s.tables n, background := none, out := s.out ++ [.mailbox 0xC001 0 [], .msix 0] }) ∧
  (∀ (s : State) (nonce : List Byte), ∃ t, exec (.attestation nonce) s = .next t ∧
    (nonce.length ≠ 32 → Answers s t 0xC006 2 []) ∧
    (nonce.length = 32 → ∃ report, Answers s t 0xC006 0 report ∧ report.length = 2528 ∧ report.take 32 = nonce ∧
      (report.drop 64).take 12 = bytesOfNat s.image.version 4 ++ bytesOfNat s.hb.toNat 8)) ∧
  (∀ (s : State) (image : List Byte), exec (.transferFw image) s =
    .next { s with transferred := image, out := s.out ++ [.mailbox 0x0201 0 [], .msix 0] }) ∧
  ∀ s : State,
    (s.transferred = [] → exec .activateFw s = .next { s with out := s.out ++ [.mailbox 0x0202 2 [], .msix 0] }) ∧
    (s.transferred ≠ [] → ∃ t, exec .activateFw s = .next t ∧ t.mem = s.mem ∧ Answers s t 0x0202 0 [] ∧ t.transferred = [] ∧
      t.image = s.image ∧ t.staged = some { bytes := s.transferred, version := Config.imageVersion s.transferred })

/-- R134, R135, R340, R341: an access whose address is misaligned (0x15), or else lies outside the 48-bit space (0x11), traps in its
lane with the address in `tval`, and does nothing else there; `%faultm` of each home warp concerned becomes exactly those lanes. -/
def Obligations.AddressFaults : Prop :=
  ∀ r ∈ loadRows ++ storeRows ++ homeLoadRows, ∀ (x : Args) (sg : Sig) (c : Cur) (s : State), Clean r.op x sg c s → NothingOwed s c →
    (∀ l ∈ actives s c x, (r.addr x r.size l).toNat % r.size ≠ 0 ∨ 2 ^ 48 ≤ (r.addr x r.size l).toNat) →
    (∀ l ∈ lanesOf s c none, (s.thread c.wg l.tid).trapSlot = none ∧ l.lane < 64) →
    ∃ t, exec (r.instr x) s = .next t ∧ HomesBecome s t c.wg (lanesOf s c x.ctl.pfx)
      (fun h w => if homeActives s c x h = [] then w
        else { w with faultm := bits64 fun i => (homeActives s c x h).any fun l => l.lane == i })
      fun l t =>
        if l.act then
          { t.trap c.pc.pkt c.slot (if (r.addr x r.size l).toNat % r.size ≠ 0 then 0x15 else 0x11, r.addr x r.size l) with
            memTrap := true }
        else if x.z then t.take (zeroWrites sg x) else t

/-- R170: a pop or peek gives the active lane of rank r element r of the claim: now, where all are present, else when they are pushed; a
push appends the value of each active lane in rank order, and hands it to what awaits it. -/
def Obligations.ChannelTransfer : Prop :=
  ∀ (x : Args) (sg : Sig) (c : Cur) (s : State) (q : Nat) (ch : Chan), Moves x sg c s q ch →
    let g := s.wgOf c.wg
    let n := (actives s c x).length
    (∀ peek : Bool, fieldChan sg x .b = some (q, peek) → fieldChan sg x .d = none →
      let claimed := if peek then 0 else n
      ((∀ r < n, (elementFor s c q (ch.head + r)).isSome) →
        ∃ p, exec (.vmovB32 x) s = .next ((s.lanesBecome c.wg (lanesOf s c x.ctl.pfx) fun _ l t =>
            if l.act then t.awaits c [.v x.d.toNat] (.ready [⟨.v x.d.toNat,
              BitVec.ofNat 64 ((elementFor s c q (ch.head + rankOf s c x l)).getD 0 % 2 ^ 32)⟩] 0) none
            else if x.z then t.take [⟨.v x.d.toNat, 0⟩] else t).modWg c.wg fun g =>
          { g with chans := Tab.modify g.chans q fun ch => { ch with head := ch.head + claimed }, spass := p })) ∧
      ∃ t, exec (.vmovB32 x) s = .next t ∧ Tab.find (t.wgOf c.wg).chans q = some { ch with head := ch.head + claimed } ∧
        ∀ l ∈ actives s c x, IsThread s c.wg (fun _ => True) l.tid → elementFor s c q (ch.head + rankOf s c x l) = none →
          ∃ id D y, (t.thread c.wg l.tid).pend =
              (s.thread c.wg l.tid).pend ++
                [{ pkt := c.pc.pkt, slot := c.slot, stamp := c.stamp, dests := [.v x.d.toNat], src := .chan id }] ∧
            Tab.find (t.wgOf c.wg).defers id = some D ∧ D.sinks = [.reg] ∧ D.lanes = [y] ∧ y.tid = l.tid ∧
            y.b = .elem q (ch.head + rankOf s c x l)) ∧
    (fieldChan sg x .d = some (q, false) → fieldChan sg x .b = none → ch.tail - ch.head + n ≤ ch.depth →
      let value (l : Lane) : Nat := (laneInput g 0x09E sg x l).nb
      ∃ p m, exec (.vmovB32 x) s = .next (s.modWg c.wg fun g => { g with
          chans := Tab.modify g.chans q fun ch => { ch with tail := ch.tail + n }
          spass := p, spad := m
          spoilt := g.spoilt.filter fun b => match b with
            | .word k => !((actives s c x).any fun l => elemAt ch (ch.tail + rankOf s c x l) == 4 * k)
            | _ => true
          defers := Tab.map (fun _ d => { d with lanes := d.lanes.map fun y =>
            let got := Src.given q ch.tail n fun r => BitVec.ofNat 128 (((actives s c x)[r]?.map value).getD 0)
            { y with a := got y.a, b := got y.b, f := got y.f } }) g.defers }) ∧
        ∀ o, Tab.get 0 m o =
          match (actives s c x).find? fun l =>
            decide (elemAt ch (ch.tail + rankOf s c x l) ≤ o ∧ o < elemAt ch (ch.tail + rankOf s c x l) + 4) with
          | some l => BitVec.ofNat 8 (value l / 256 ^ (o - elemAt ch (ch.tail + rankOf s c x l)))
          | none => Tab.get 0 g.spad o)

/-- What a step runs: what comes from outside, in its order; and of a granted formed warp whose group is one instruction that
nothing holds, that instruction, between the passing of its issue slot and the end of the group. -/
def Obligations.StepRunsInstruction : Prop :=
  (∀ (s : State) (i : Instr) (rest : List Instr), s.stopped = false → s.cutting = false → s.granted = [] → s.agenda = i :: rest →
    step s = exec i { s with agenda := rest }) ∧
  (∀ (s s1 : State) (gr : Grant) (rest : List Grant) (at_ : PC) (ws : List W32) (l : Layout) (i : Instr) (more : List W32),
    AtGroup s s1 gr rest at_ ws l → ¬IllegalGroup s1 gr at_ l → NothingWaits s1 gr at_ l →
    decode (ws.drop at_.slot) = some (.ok i, more) → i.wf = true →
    step s = andThen (exec i (issued s1 gr at_ l)) (afterwards s1 gr at_ l)) ∧
  ∀ s : State, s.stopped = true → (∀ rest, s.agenda ≠ .reset :: rest) → step s = .fault .stopped

/-- R17, R21, R40, R341: words that are no instruction trap with code 0x01 in every lane of their group, with the instruction word
in `tval`, and change nothing else; the whole group of one that is illegal traps. -/
def Obligations.IllegalWordsTrap : Prop :=
  (∀ w : W32, w ≠ 0 → (unassigned (opOf w) ∨ (opOf w = 0x1FE ∧ chainOf w = false)) → ∀ rest, ∃ e more, decode (w :: rest) = some (.error e, more)) ∧
  ∀ (s s1 : State) (gr : Grant) (rest : List Grant) (at_ : PC) (ws : List W32) (l : Layout) (e : DecodeErr) (more : List W32),
    AtGroup s s1 gr rest at_ ws l → gr.tids.Nodup → decode (ws.drop at_.slot) = some (.error e, more) →
    (¬IllegalGroup s1 gr at_ l → NothingWaits s1 gr at_ l →
      step s = .next (afterwards s1 gr at_ l ((issued s1 gr at_ l).lanesBecome gr.wg
        (lanesOf (issued s1 gr at_ l) (groupCur s1 gr at_ l) none)
        fun _ _ t => t.trap at_.pkt at_.slot (0x01, l.w.setWidth 64)))) ∧
    (IllegalGroup s1 gr at_ l → step s = .next (s1.trapWhole gr.wg gr.tids (0x01, l.w.setWidth 64)))

/-- R340, R342, R344, R345, R346, R348: the threads that trapped in a group enter their region's handler together, privileged,
once their settles are over (nothing pending, matrix operations and writes complete), with their registers and their cause;
without a handler, or in one, a trap is a fault: it is logged with class 9, and ends the thread, or under FDP 1 and 2 the region.
The log is stated where no other entry comes in: no thread owes a failed write, no trap is for a spoilt register. -/
def Obligations.TrapsEnterHandlers : Prop :=
  ∀ (s : State) (c : Cur) (settle : Bool), c.lanes.Nodup → (Tab.find s.wgs c.wg).isSome →
    (∀ i ∈ c.lanes, (Tab.find (s.wgOf c.wg).threads i).isSome) →
    let g := s.wgOf c.wg
    let t := s.endGroup c false settle
    (trappedIn s c ≠ [] → g.fhnd ≠ 0 → (∀ i ∈ trappedIn s c, (s.thread c.wg i).priv = false) → t.mem = s.mem ∧
      (∀ i ∈ trappedIn s c, let u := s.thread c.wg i; let v := t.thread c.wg i
        v.tcause = u.tcause ∧ v.tval = u.tval ∧ v.tpos = u.tpos ∧ v.v = u.v ∧ v.p = u.p ∧ v.entries = u.entries ∧
        v.depth = u.depth ∧ v.meet = u.meet) ∧
      ((∀ i ∈ trappedIn s c, s.idle c.wg (s.thread c.wg i) = true) → GoTogether t c.wg (· ∈ trappedIn s c) false ∧
        ∀ i ∈ trappedIn s c, (t.thread c.wg i).priv = true ∧ (t.thread c.wg i).pc = ⟨g.fhEntry, 0⟩ ∧
          (t.thread c.wg i).hold = .ready) ∧
      ((∃ i ∈ trappedIn s c, s.idle c.wg (s.thread c.wg i) = false) → ∃ id, Tab.find (t.wgOf c.wg).trapSets id = some (trappedIn s c) ∧
        ∀ i ∈ trappedIn s c, (t.thread c.wg i).hold = .trapping id ∧ (t.thread c.wg i).priv = false)) ∧
    let outs := (trappedIn s c).filter fun i => g.fhnd == 0 || (s.thread c.wg i).priv
    let d := s.dieAt (g.core / 64)
    outs.length ≤ 256 → (∀ w i, (s.thread w i).failed = []) →
      (∀ i ∈ trappedIn s c, (s.thread c.wg i).tcause ≠ 0x13 ∨ (s.thread c.wg i).tval ≠ 0) → t.mem = s.mem ∧ t.out = s.out ++ List.replicate outs.length (.msix 2) ∧
      (t.dieAt (g.core / 64)).elcnt = d.elcnt + BitVec.ofNat 32 outs.length ∧
      (∀ k i, outs[k]? = some i → let u := s.thread c.wg i
        Tab.find (t.dieAt (g.core / 64)).log ((d.elcnt.toNat + k) % 256) = some {
          w0 := BitVec.ofNat 64 (u.tval.toNat % 2 ^ 52)
          w1 := BitVec.ofNat 64 (g.core % 64 + 3 * 2 ^ 12 + 9 * 2 ^ 16 + u.tcause.toNat * 2 ^ 24 + g.ctx.asid * 2 ^ 32 +
            g.core * 2 ^ 48 + 2 ^ 55)
          w2 := BitVec.ofNat 64 (u.tcause.toNat + u.tpos.toNat * 2 ^ 8), w3 := s.hb }) ∧
      ∀ i ∈ outs, match Tab.find s.regions g.block with
        | none => (t.thread c.wg i).ended = true
        | some r => if r.res.fdp = 0 then (t.thread c.wg i).ended = true
            else (t.thread c.wg i).ended = false ∧
              (Tab.find t.regions g.block).map (·.ending) = some (some (r.ending.getD 7))

/-- R45, R46, R67, R68, R114: a register reads as it was last written, p0 always 1; a literal is an integer extended by its
sign, or for a floating-point operand an FP32 pattern rounded to the operand's type, twice in a pair. -/
def Obligations.RegistersAndLiterals : Prop :=
  (∀ (t : Thread) (n m : Nat) (x : W32), (t.writeV n x).readV m = if m = n then x else t.readV m) ∧
  (∀ (t : Thread) (n m : Nat) (b : Bool), n < 48 →
    (t.writeP n b).readP m = if m = 0 then true else if m = n then b else t.readP m) ∧
  (∀ (h : HWarp) (n m : Nat) (x : W64), (h.writeS n x).readS m = if m = n then x else h.readS m) ∧
  (∀ (h : HWarp) (n m : Nat) (x : W64), (h.writeK n x).readK m = if m = n then x else h.readK m) ∧
  ∀ (op : Nat) (k : Fld) (w : W32), op < 2 ^ 9 →
    litValue op k w =
      if op < 0x100 ∨ op = 0x10D ∨ op = 0x11D ∨ op = 0x12D ∨ op = 0x12F ∨ op = 0x136 ∨ op = 0x137 ∨ op = 0x13A ∨
        (op = 0x13B ∧ k ≠ .a) ∨ op = 0x13E ∨ op = 0x13F ∨ (0x142 ≤ op ∧ op ≤ 0x145) ∨ 0x14F ≤ op
      then w.signExtend 128
      else
        let f := if 0x10F ≤ op ∧ op ≤ 0x11E then fp16 else if 0x11F ≤ op ∧ op ≤ 0x12E then bf16 else fp32
        let z := if 0x7F800000 < w.toNat % 2 ^ 31 then f.nanBits else (convert f .rne (fp32.decode w.toNat)).1
        if 0x10F ≤ op ∧ op ≤ 0x12E then BitVec.ofNat 128 (z * 65537) else BitVec.ofNat 128 z

/-- R8 to R16: words written out from the encoding tables, the spec's worked encodings among them, decode to their
instructions. -/
def Obligations.WordsDecode : Prop := ∀ p ∈ wordSamples, ∀ rest, decode (p.1 ++ rest) = some (.ok p.2, rest)

/-- Decoding and encoding agree: of every well-formed instruction, with every operand at every value; and whatever decodes is the
encoding of what it decodes to. -/
def Obligations.DecodeEncode : Prop :=
  (∀ (i : Instr) (rest : List W32), i.isWord = true → i.wf = true → decode (encode i ++ rest) = some (.ok i, rest)) ∧
  ∀ (ws rest : List W32) (i : Instr), decode ws = some (.ok i, rest) → ws = encode i ++ rest

/-- R297, R403, R409, R414: after reset the heartbeat is 0, every region is unhomed and its memory reads 0, the route table is clear,
every Xelas port is down, the node number is 0 and the error logs are empty; both invariants hold. -/
def Obligations.ResetState : Prop :=
  State.Inv .reset ∧ State.Numbered .reset ∧ State.reset.hb = 0 ∧ State.reset.homes = [] ∧ (∀ a, State.reset.byte a = 0) ∧
  (∀ n, Tab.get 0 State.reset.routes n = 0) ∧ (∀ l, 1 ≤ l → l ≤ 12 → (State.reset.linkAt l).status = .down) ∧
  State.reset.node = 0 ∧ State.reset.phase = 2 ∧ State.reset.stopped = false ∧ State.reset.seals = [] ∧ State.reset.wgs = [] ∧
  State.reset.regions = [] ∧ State.reset.tables = [] ∧
  ∀ d, (State.reset.dieAt d).elcnt = 0 ∧ (State.reset.dieAt d).elix = 0

/-- Every step keeps the invariant of the machine. -/
def Obligations.StepKeepsInvariant : Prop := ∀ s : State, s.Inv → Res.Keeps State.Inv (step s)

/-- Every step keeps workgroups and threads under their numbers, each home warp one of at most 128. -/
def Obligations.StepKeepsNumbers : Prop := ∀ s : State, s.Numbered → Res.Keeps State.Numbered (step s)
end

