-- ==== Sys2Proof/Laws/Tab.lean ====
section
/-! SUPPORT. Laws of tables: what is read after a change, and that every change keeps the keys rising and the canonical
form. -/

namespace Sys2Proof.Machine

variable {α β : Type}

/-! ### What is read -/

@[simp] theorem Tab.find_nil (k : Nat) : Tab.find ([] : Tab α) k = none := rfl
@[simp] theorem Tab.get_nil (d : α) (k : Nat) : Tab.get d [] k = d := rfl

@[simp] theorem Tab.find_erase (m : Tab α) (k i : Nat) :
    Tab.find (Tab.erase m k) i = if i = k then none else Tab.find m i := by
  induction m with
  | nil => simp [Tab.erase]
  | cons p rest ih =>
    obtain ⟨j, v⟩ := p
    simp only [Tab.erase]
    split
    · subst_vars; simp only [ih, Tab.find]; split
      · rfl
      · next h => simp [Ne.symm h]
    · simp only [Tab.find, ih]; grind

theorem Tab.find_ins (m : Tab α) (k i : Nat) (v : α) (h : Tab.find m k = none) :
    Tab.find (Tab.ins m k v) i = if i = k then some v else Tab.find m i := by
  induction m with
  | nil => simp [Tab.ins, Tab.find, eq_comm]
  | cons p rest ih =>
    obtain ⟨j, w⟩ := p
    simp only [Tab.find] at h
    simp only [Tab.ins]
    split
    · simp [Tab.find, eq_comm]
    · by_cases hj : j = k
      · simp [hj] at h
      · rw [if_neg hj] at h
        simp only [Tab.find, ih h]; grind

@[simp] theorem Tab.find_put (m : Tab α) (k i : Nat) (v : α) :
    Tab.find (Tab.put m k v) i = if i = k then some v else Tab.find m i := by
  rw [Tab.put, Tab.find_ins _ _ _ _ (by simp), Tab.find_erase]; grind

@[simp] theorem Tab.get_put (d : α) (m : Tab α) (k i : Nat) (v : α) :
    Tab.get d (Tab.put m k v) i = if i = k then v else Tab.get d m i := by
  simp only [Tab.get, Tab.find_put]; split <;> simp

@[simp] theorem Tab.get_erase (d : α) (m : Tab α) (k i : Nat) :
    Tab.get d (Tab.erase m k) i = if i = k then d else Tab.get d m i := by
  simp only [Tab.get, Tab.find_erase]; split <;> simp

@[simp] theorem Tab.get_set [DecidableEq α] (d : α) (m : Tab α) (k i : Nat) (v : α) :
    Tab.get d (Tab.set d m k v) i = if i = k then v else Tab.get d m i := by
  unfold Tab.set; split <;> simp_all

@[simp] theorem Tab.find_map (g : Nat → α → β) (m : Tab α) (i : Nat) :
    Tab.find (Tab.map g m) i = (Tab.find m i).map (g i) := by
  induction m with
  | nil => rfl
  | cons p rest ih => obtain ⟨j, v⟩ := p; simp only [Tab.map, Tab.find, ih]; grind

@[simp] theorem Tab.find_modify (m : Tab α) (k i : Nat) (g : α → α) :
    Tab.find (Tab.modify m k g) i = if i = k then (Tab.find m i).map g else Tab.find m i := by
  simp only [Tab.modify, Tab.find_map]
  by_cases h : i = k <;> simp [h]

@[simp] theorem Tab.map_map {γ : Type} (g : Nat → β → γ) (f : Nat → α → β) (m : Tab α) :
    Tab.map g (Tab.map f m) = Tab.map (fun k v => g k (f k v)) m := by
  induction m with
  | nil => rfl
  | cons p rest ih => obtain ⟨j, v⟩ := p; simp [Tab.map, ih]

theorem Tab.map_congr (f g : Nat → α → β) (m : Tab α) (h : ∀ k v, f k v = g k v) : Tab.map f m = Tab.map g m := by
  induction m with
  | nil => rfl
  | cons p rest ih => obtain ⟨j, v⟩ := p; simp [Tab.map, ih, h]

theorem Tab.map_id' (m : Tab α) : Tab.map (fun _ v => v) m = m := by
  induction m with
  | nil => rfl
  | cons p rest ih => obtain ⟨j, v⟩ := p; simp [Tab.map, ih]

theorem Tab.mem_of_find {α : Type} (m : Tab α) (k : Nat) (v : α) (h : Tab.find m k = some v) : (k, v) ∈ m := by
  induction m with
  | nil => simp at h
  | cons p m ih =>
    obtain ⟨j, w⟩ := p
    simp only [Tab.find] at h
    split at h
    · simp_all
    · exact List.mem_cons_of_mem _ (ih h)

/-! ### The canonical form -/

theorem Tab.sorted_cons (j : Nat) (v : α) (m : Tab α) :
    Tab.sorted ((j, v) :: m) = true ↔ (∀ p ∈ m, j < p.1) ∧ Tab.sorted m = true := by
  simp [Tab.sorted, List.all_eq_true]

theorem Tab.mem_erase (m : Tab α) (k : Nat) (p : Nat × α) : p ∈ Tab.erase m k → p ∈ m ∧ p.1 ≠ k := by
  induction m with
  | nil => simp [Tab.erase]
  | cons q rest ih => obtain ⟨j, v⟩ := q; simp only [Tab.erase]; grind

theorem Tab.mem_ins (m : Tab α) (k : Nat) (v : α) (p : Nat × α) : p ∈ Tab.ins m k v → p = (k, v) ∨ p ∈ m := by
  induction m with
  | nil => simp [Tab.ins]
  | cons q rest ih => obtain ⟨j, w⟩ := q; simp only [Tab.ins]; grind

theorem Tab.sorted_erase (m : Tab α) (k : Nat) (h : Tab.sorted m = true) : Tab.sorted (Tab.erase m k) = true := by
  induction m with
  | nil => rfl
  | cons q rest ih =>
    obtain ⟨j, v⟩ := q
    rw [Tab.sorted_cons] at h
    simp only [Tab.erase]
    split
    · exact ih h.2
    · rw [Tab.sorted_cons]; exact ⟨fun p hp => h.1 p (Tab.mem_erase _ _ _ hp).1, ih h.2⟩

theorem Tab.sorted_ins (m : Tab α) (k : Nat) (v : α) (h : Tab.sorted m = true) (hk : ∀ p ∈ m, p.1 ≠ k) :
    Tab.sorted (Tab.ins m k v) = true := by
  induction m with
  | nil => rfl
  | cons q rest ih =>
    obtain ⟨j, w⟩ := q
    rw [Tab.sorted_cons] at h
    simp only [Tab.ins]
    split
    · next hlt =>
      rw [Tab.sorted_cons, Tab.sorted_cons]
      refine ⟨fun p hp => ?_, h⟩
      rcases List.mem_cons.1 hp with rfl | hp
      · exact hlt
      · exact lt_trans hlt (h.1 p hp)
    · next hlt =>
      rw [Tab.sorted_cons]
      refine ⟨fun p hp => ?_, ih h.2 fun p hp => hk p (List.mem_cons_of_mem _ hp)⟩
      rcases Tab.mem_ins _ _ _ _ hp with rfl | hp
      · exact lt_of_le_of_ne (not_lt.1 hlt) (hk _ List.mem_cons_self)
      · exact h.1 p hp

theorem Tab.sorted_put (m : Tab α) (k : Nat) (v : α) (h : Tab.sorted m = true) : Tab.sorted (Tab.put m k v) = true :=
  Tab.sorted_ins _ _ _ (Tab.sorted_erase _ _ h) fun p hp => (Tab.mem_erase _ _ p hp).2

theorem Tab.mem_filter_sorted (m : Tab α) (f : Nat × α → Bool) (h : Tab.sorted m = true) :
    Tab.sorted (m.filter f) = true := by
  induction m with
  | nil => rfl
  | cons q rest ih =>
    obtain ⟨j, v⟩ := q
    rw [Tab.sorted_cons] at h
    rw [List.filter_cons]
    split
    · rw [Tab.sorted_cons]; exact ⟨fun p hp => h.1 p (List.mem_filter.1 hp).1, ih h.2⟩
    · exact ih h.2

theorem Tab.wf_iff [DecidableEq α] (d : α) (m : Tab α) :
    Tab.wf d m = true ↔ Tab.sorted m = true ∧ ∀ p ∈ m, p.2 ≠ d := by
  simp [Tab.wf, List.all_eq_true]

@[simp] theorem Tab.wf_nil [DecidableEq α] (d : α) : Tab.wf d ([] : Tab α) = true := rfl

theorem Tab.wf_erase [DecidableEq α] (d : α) (m : Tab α) (k : Nat) (h : Tab.wf d m = true) :
    Tab.wf d (Tab.erase m k) = true := by
  rw [Tab.wf_iff] at *
  exact ⟨Tab.sorted_erase _ _ h.1, fun p hp => h.2 p (Tab.mem_erase _ _ _ hp).1⟩

theorem Tab.wf_put [DecidableEq α] (d : α) (m : Tab α) (k : Nat) (v : α) (hv : v ≠ d) (h : Tab.wf d m = true) :
    Tab.wf d (Tab.put m k v) = true := by
  rw [Tab.wf_iff] at *
  refine ⟨Tab.sorted_put _ _ _ h.1, fun p hp => ?_⟩
  rcases Tab.mem_ins _ _ _ _ hp with rfl | hp
  · exact hv
  · exact h.2 p (Tab.mem_erase _ _ _ hp).1

/-- A write keeps the canonical form. -/
theorem Tab.wf_set [DecidableEq α] (d : α) (m : Tab α) (k : Nat) (v : α) (h : Tab.wf d m = true) :
    Tab.wf d (Tab.set d m k v) = true := by
  unfold Tab.set
  split
  · exact Tab.wf_erase d m k h
  · next hv => exact Tab.wf_put d m k v hv h

theorem Tab.wf_filter [DecidableEq α] (d : α) (m : Tab α) (f : Nat × α → Bool) (h : Tab.wf d m = true) :
    Tab.wf d (m.filter f) = true := by
  rw [Tab.wf_iff] at *
  exact ⟨Tab.mem_filter_sorted _ _ h.1, fun p hp => h.2 p (List.mem_filter.1 hp).1⟩

/-- Some writes one after another keep the canonical form. -/
theorem Tab.wf_foldl [DecidableEq α] {ι : Type} (d : α) (f : Tab α → ι → Tab α)
    (hf : ∀ m i, Tab.wf d m = true → Tab.wf d (f m i) = true) (l : List ι) (m : Tab α) (h : Tab.wf d m = true) :
    Tab.wf d (l.foldl f m) = true := by
  induction l generalizing m with
  | nil => exact h
  | cons i rest ih => exact ih _ (hf m i h)

/-- Two tables in canonical form that read alike are one table. -/
theorem Tab.eq_of_get [DecidableEq α] (d : α) (m n : Tab α) (hm : Tab.wf d m = true) (hn : Tab.wf d n = true)
    (h : ∀ k, Tab.get d m k = Tab.get d n k) : m = n := by
  have none_lt : ∀ (t : Tab α) (k : Nat), (∀ p ∈ t, k < p.1) → Tab.find t k = none := by
    intro t k ht
    induction t with
    | nil => rfl
    | cons p rest ih =>
      obtain ⟨j, v⟩ := p
      have := ht (j, v) List.mem_cons_self
      simp only [Tab.find]; rw [if_neg (by simp at this; omega)]
      exact ih fun p hp => ht p (List.mem_cons_of_mem _ hp)
  induction m generalizing n with
  | nil =>
    cases n with
    | nil => rfl
    | cons p rest =>
      obtain ⟨j, v⟩ := p
      have := h j
      simp only [Tab.get, Tab.find, if_true, Option.getD_some, Option.getD_none] at this
      exact absurd this.symm (((Tab.wf_iff _ _).1 hn).2 (j, v) List.mem_cons_self)
  | cons p rest ih =>
    obtain ⟨j, v⟩ := p
    rw [Tab.wf_iff, Tab.sorted_cons] at hm
    cases n with
    | nil =>
      have := h j
      simp only [Tab.get, Tab.find, if_true, Option.getD_some, Option.getD_none] at this
      exact absurd this (hm.2 (j, v) List.mem_cons_self)
    | cons q rest' =>
      obtain ⟨i, w⟩ := q
      rw [Tab.wf_iff, Tab.sorted_cons] at hn
      have hj := h j
      have hi := h i
      simp only [Tab.get, Tab.find, if_true, Option.getD_some] at hj hi
      have hji : j = i := by
        rcases lt_trichotomy j i with hlt | rfl | hlt
        · rw [if_neg (by omega), none_lt rest' j fun p hp => lt_trans hlt (hn.1.1 p hp)] at hj
          exact absurd hj (hm.2 (j, v) List.mem_cons_self)
        · rfl
        · rw [if_neg (by omega), none_lt rest i fun p hp => lt_trans hlt (hm.1.1 p hp)] at hi
          exact absurd hi.symm (hn.2 (i, w) List.mem_cons_self)
      subst hji
      rw [if_pos rfl] at hj
      simp only [Option.getD_some] at hj
      subst hj
      congr 1
      refine ih rest' ((Tab.wf_iff _ _).2 ⟨hm.1.2, fun p hp => hm.2 p (List.mem_cons_of_mem _ hp)⟩)
        ((Tab.wf_iff _ _).2 ⟨hn.1.2, fun p hp => hn.2 p (List.mem_cons_of_mem _ hp)⟩) fun k => ?_
      have hk := h k
      simp only [Tab.get, Tab.find] at hk
      split at hk
      · next heq =>
        subst heq
        rw [Tab.get, Tab.get, none_lt rest _ hm.1.1, none_lt rest' _ hn.1.1]
      · exact hk

end Sys2Proof.Machine
end

