-- ==== Sys2Proof/Laws/State.lean ====
section
/-! SUPPORT. Laws of the state: what each change of a part leaves unchanged, field by field, and what is read of the part
after it. -/

namespace Sys2Proof.Machine

variable (s : State) (g : Workgroup) (t : Thread) (i j n : Nat)

/-! ### A workgroup changes -/

@[simp] theorem State.modWg_granted (f : Workgroup → Workgroup) : (s.modWg i f).granted = s.granted := rfl
@[simp] theorem State.modWg_cur (f : Workgroup → Workgroup) : (s.modWg i f).cur = s.cur := rfl
@[simp] theorem State.modWg_agenda (f : Workgroup → Workgroup) : (s.modWg i f).agenda = s.agenda := rfl
@[simp] theorem State.modWg_fresh (f : Workgroup → Workgroup) : (s.modWg i f).fresh = s.fresh := rfl
@[simp] theorem State.modWg_schedule (f : Workgroup → Workgroup) : (s.modWg i f).schedule = s.schedule := rfl
@[simp] theorem State.modWg_flowing (f : Workgroup → Workgroup) : (s.modWg i f).flowing = s.flowing := rfl
@[simp] theorem State.modWg_hb (f : Workgroup → Workgroup) : (s.modWg i f).hb = s.hb := rfl
@[simp] theorem State.modWg_clk0 (f : Workgroup → Workgroup) : (s.modWg i f).clk0 = s.clk0 := rfl
@[simp] theorem State.modWg_cores (f : Workgroup → Workgroup) : (s.modWg i f).cores = s.cores := rfl
@[simp] theorem State.modWg_dies (f : Workgroup → Workgroup) : (s.modWg i f).dies = s.dies := rfl
@[simp] theorem State.modWg_binds (f : Workgroup → Workgroup) : (s.modWg i f).binds = s.binds := rfl
@[simp] theorem State.modWg_mem (f : Workgroup → Workgroup) : (s.modWg i f).mem = s.mem := rfl
@[simp] theorem State.modWg_homes (f : Workgroup → Workgroup) : (s.modWg i f).homes = s.homes := rfl
@[simp] theorem State.modWg_dir (f : Workgroup → Workgroup) : (s.modWg i f).dir = s.dir := rfl
@[simp] theorem State.modWg_seals (f : Workgroup → Workgroup) : (s.modWg i f).seals = s.seals := rfl
@[simp] theorem State.modWg_bad (f : Workgroup → Workgroup) : (s.modWg i f).bad = s.bad := rfl
@[simp] theorem State.modWg_badL1 (f : Workgroup → Workgroup) : (s.modWg i f).badL1 = s.badL1 := rfl
@[simp] theorem State.modWg_badPorch (f : Workgroup → Workgroup) : (s.modWg i f).badPorch = s.badPorch := rfl
@[simp] theorem State.modWg_soft (f : Workgroup → Workgroup) : (s.modWg i f).soft = s.soft := rfl
@[simp] theorem State.modWg_reqs (f : Workgroup → Workgroup) : (s.modWg i f).reqs = s.reqs := rfl
@[simp] theorem State.modWg_nextReq (f : Workgroup → Workgroup) : (s.modWg i f).nextReq = s.nextReq := rfl
@[simp] theorem State.modWg_upds (f : Workgroup → Workgroup) : (s.modWg i f).upds = s.upds := rfl
@[simp] theorem State.modWg_windows (f : Workgroup → Workgroup) : (s.modWg i f).windows = s.windows := rfl
@[simp] theorem State.modWg_pkts (f : Workgroup → Workgroup) : (s.modWg i f).pkts = s.pkts := rfl
@[simp] theorem State.modWg_nextPkt (f : Workgroup → Workgroup) : (s.modWg i f).nextPkt = s.nextPkt := rfl
@[simp] theorem State.modWg_links (f : Workgroup → Workgroup) : (s.modWg i f).links = s.links := rfl
@[simp] theorem State.modWg_routes (f : Workgroup → Workgroup) : (s.modWg i f).routes = s.routes := rfl
@[simp] theorem State.modWg_fscOrder (f : Workgroup → Workgroup) : (s.modWg i f).fscOrder = s.fscOrder := rfl
@[simp] theorem State.modWg_tables (f : Workgroup → Workgroup) : (s.modWg i f).tables = s.tables := rfl
@[simp] theorem State.modWg_regions (f : Workgroup → Workgroup) : (s.modWg i f).regions = s.regions := rfl
@[simp] theorem State.modWg_signals (f : Workgroup → Workgroup) : (s.modWg i f).signals = s.signals := rfl
@[simp] theorem State.modWg_events (f : Workgroup → Workgroup) : (s.modWg i f).events = s.events := rfl
@[simp] theorem State.modWg_background (f : Workgroup → Workgroup) : (s.modWg i f).background = s.background := rfl
@[simp] theorem State.modWg_out (f : Workgroup → Workgroup) : (s.modWg i f).out = s.out := rfl
@[simp] theorem State.modWg_snoops (f : Workgroup → Workgroup) : (s.modWg i f).snoops = s.snoops := rfl
@[simp] theorem State.modWg_phase (f : Workgroup → Workgroup) : (s.modWg i f).phase = s.phase := rfl
@[simp] theorem State.modWg_hsb (f : Workgroup → Workgroup) : (s.modWg i f).hsb = s.hsb := rfl
@[simp] theorem State.modWg_grade (f : Workgroup → Workgroup) : (s.modWg i f).grade = s.grade := rfl
@[simp] theorem State.modWg_umod (f : Workgroup → Workgroup) : (s.modWg i f).umod = s.umod := rfl
@[simp] theorem State.modWg_lwid (f : Workgroup → Workgroup) : (s.modWg i f).lwid = s.lwid := rfl
@[simp] theorem State.modWg_lspd (f : Workgroup → Workgroup) : (s.modWg i f).lspd = s.lspd := rfl
@[simp] theorem State.modWg_ths (f : Workgroup → Workgroup) : (s.modWg i f).ths = s.ths := rfl
@[simp] theorem State.modWg_node (f : Workgroup → Workgroup) : (s.modWg i f).node = s.node := rfl
@[simp] theorem State.modWg_uld (f : Workgroup → Workgroup) : (s.modWg i f).uld = s.uld := rfl
@[simp] theorem State.modWg_usz (f : Workgroup → Workgroup) : (s.modWg i f).usz = s.usz := rfl
@[simp] theorem State.modWg_stopped (f : Workgroup → Workgroup) : (s.modWg i f).stopped = s.stopped := rfl
@[simp] theorem State.modWg_clockScale (f : Workgroup → Workgroup) : (s.modWg i f).clockScale = s.clockScale := rfl
@[simp] theorem State.modWg_power (f : Workgroup → Workgroup) : (s.modWg i f).power = s.power := rfl
@[simp] theorem State.modWg_waking (f : Workgroup → Workgroup) : (s.modWg i f).waking = s.waking := rfl
@[simp] theorem State.modWg_powerLimit (f : Workgroup → Workgroup) : (s.modWg i f).powerLimit = s.powerLimit := rfl
@[simp] theorem State.modWg_floor (f : Workgroup → Workgroup) : (s.modWg i f).floor = s.floor := rfl
@[simp] theorem State.modWg_replayLimit (f : Workgroup → Workgroup) : (s.modWg i f).replayLimit = s.replayLimit := rfl
@[simp] theorem State.modWg_enabling (f : Workgroup → Workgroup) : (s.modWg i f).enabling = s.enabling := rfl
@[simp] theorem State.modWg_image (f : Workgroup → Workgroup) : (s.modWg i f).image = s.image := rfl
@[simp] theorem State.modWg_staged (f : Workgroup → Workgroup) : (s.modWg i f).staged = s.staged := rfl
@[simp] theorem State.modWg_transferred (f : Workgroup → Workgroup) : (s.modWg i f).transferred = s.transferred := rfl
@[simp] theorem State.modWg_versionFuse (f : Workgroup → Workgroup) : (s.modWg i f).versionFuse = s.versionFuse := rfl
@[simp] theorem State.modWg_certs (f : Workgroup → Workgroup) : (s.modWg i f).certs = s.certs := rfl
@[simp] theorem State.modWg_stagedCert (f : Workgroup → Workgroup) : (s.modWg i f).stagedCert = s.stagedCert := rfl

/-! ### A core changes -/

@[simp] theorem State.modCore_granted (f : Core → Core) : (s.modCore i f).granted = s.granted := rfl
@[simp] theorem State.modCore_cur (f : Core → Core) : (s.modCore i f).cur = s.cur := rfl
@[simp] theorem State.modCore_agenda (f : Core → Core) : (s.modCore i f).agenda = s.agenda := rfl
@[simp] theorem State.modCore_fresh (f : Core → Core) : (s.modCore i f).fresh = s.fresh := rfl
@[simp] theorem State.modCore_schedule (f : Core → Core) : (s.modCore i f).schedule = s.schedule := rfl
@[simp] theorem State.modCore_flowing (f : Core → Core) : (s.modCore i f).flowing = s.flowing := rfl
@[simp] theorem State.modCore_hb (f : Core → Core) : (s.modCore i f).hb = s.hb := rfl
@[simp] theorem State.modCore_clk0 (f : Core → Core) : (s.modCore i f).clk0 = s.clk0 := rfl
@[simp] theorem State.modCore_dies (f : Core → Core) : (s.modCore i f).dies = s.dies := rfl
@[simp] theorem State.modCore_wgs (f : Core → Core) : (s.modCore i f).wgs = s.wgs := rfl
@[simp] theorem State.modCore_binds (f : Core → Core) : (s.modCore i f).binds = s.binds := rfl
@[simp] theorem State.modCore_mem (f : Core → Core) : (s.modCore i f).mem = s.mem := rfl
@[simp] theorem State.modCore_homes (f : Core → Core) : (s.modCore i f).homes = s.homes := rfl
@[simp] theorem State.modCore_dir (f : Core → Core) : (s.modCore i f).dir = s.dir := rfl
@[simp] theorem State.modCore_seals (f : Core → Core) : (s.modCore i f).seals = s.seals := rfl
@[simp] theorem State.modCore_bad (f : Core → Core) : (s.modCore i f).bad = s.bad := rfl
@[simp] theorem State.modCore_badL1 (f : Core → Core) : (s.modCore i f).badL1 = s.badL1 := rfl
@[simp] theorem State.modCore_badPorch (f : Core → Core) : (s.modCore i f).badPorch = s.badPorch := rfl
@[simp] theorem State.modCore_soft (f : Core → Core) : (s.modCore i f).soft = s.soft := rfl
@[simp] theorem State.modCore_reqs (f : Core → Core) : (s.modCore i f).reqs = s.reqs := rfl
@[simp] theorem State.modCore_nextReq (f : Core → Core) : (s.modCore i f).nextReq = s.nextReq := rfl
@[simp] theorem State.modCore_upds (f : Core → Core) : (s.modCore i f).upds = s.upds := rfl
@[simp] theorem State.modCore_windows (f : Core → Core) : (s.modCore i f).windows = s.windows := rfl
@[simp] theorem State.modCore_pkts (f : Core → Core) : (s.modCore i f).pkts = s.pkts := rfl
@[simp] theorem State.modCore_nextPkt (f : Core → Core) : (s.modCore i f).nextPkt = s.nextPkt := rfl
@[simp] theorem State.modCore_links (f : Core → Core) : (s.modCore i f).links = s.links := rfl
@[simp] theorem State.modCore_routes (f : Core → Core) : (s.modCore i f).routes = s.routes := rfl
@[simp] theorem State.modCore_fscOrder (f : Core → Core) : (s.modCore i f).fscOrder = s.fscOrder := rfl
@[simp] theorem State.modCore_tables (f : Core → Core) : (s.modCore i f).tables = s.tables := rfl
@[simp] theorem State.modCore_regions (f : Core → Core) : (s.modCore i f).regions = s.regions := rfl
@[simp] theorem State.modCore_signals (f : Core → Core) : (s.modCore i f).signals = s.signals := rfl
@[simp] theorem State.modCore_events (f : Core → Core) : (s.modCore i f).events = s.events := rfl
@[simp] theorem State.modCore_background (f : Core → Core) : (s.modCore i f).background = s.background := rfl
@[simp] theorem State.modCore_out (f : Core → Core) : (s.modCore i f).out = s.out := rfl
@[simp] theorem State.modCore_snoops (f : Core → Core) : (s.modCore i f).snoops = s.snoops := rfl
@[simp] theorem State.modCore_phase (f : Core → Core) : (s.modCore i f).phase = s.phase := rfl
@[simp] theorem State.modCore_hsb (f : Core → Core) : (s.modCore i f).hsb = s.hsb := rfl
@[simp] theorem State.modCore_grade (f : Core → Core) : (s.modCore i f).grade = s.grade := rfl
@[simp] theorem State.modCore_umod (f : Core → Core) : (s.modCore i f).umod = s.umod := rfl
@[simp] theorem State.modCore_lwid (f : Core → Core) : (s.modCore i f).lwid = s.lwid := rfl
@[simp] theorem State.modCore_lspd (f : Core → Core) : (s.modCore i f).lspd = s.lspd := rfl
@[simp] theorem State.modCore_ths (f : Core → Core) : (s.modCore i f).ths = s.ths := rfl
@[simp] theorem State.modCore_node (f : Core → Core) : (s.modCore i f).node = s.node := rfl
@[simp] theorem State.modCore_uld (f : Core → Core) : (s.modCore i f).uld = s.uld := rfl
@[simp] theorem State.modCore_usz (f : Core → Core) : (s.modCore i f).usz = s.usz := rfl
@[simp] theorem State.modCore_stopped (f : Core → Core) : (s.modCore i f).stopped = s.stopped := rfl
@[simp] theorem State.modCore_clockScale (f : Core → Core) : (s.modCore i f).clockScale = s.clockScale := rfl
@[simp] theorem State.modCore_power (f : Core → Core) : (s.modCore i f).power = s.power := rfl
@[simp] theorem State.modCore_waking (f : Core → Core) : (s.modCore i f).waking = s.waking := rfl
@[simp] theorem State.modCore_powerLimit (f : Core → Core) : (s.modCore i f).powerLimit = s.powerLimit := rfl
@[simp] theorem State.modCore_floor (f : Core → Core) : (s.modCore i f).floor = s.floor := rfl
@[simp] theorem State.modCore_replayLimit (f : Core → Core) : (s.modCore i f).replayLimit = s.replayLimit := rfl
@[simp] theorem State.modCore_enabling (f : Core → Core) : (s.modCore i f).enabling = s.enabling := rfl
@[simp] theorem State.modCore_image (f : Core → Core) : (s.modCore i f).image = s.image := rfl
@[simp] theorem State.modCore_staged (f : Core → Core) : (s.modCore i f).staged = s.staged := rfl
@[simp] theorem State.modCore_transferred (f : Core → Core) : (s.modCore i f).transferred = s.transferred := rfl
@[simp] theorem State.modCore_versionFuse (f : Core → Core) : (s.modCore i f).versionFuse = s.versionFuse := rfl
@[simp] theorem State.modCore_certs (f : Core → Core) : (s.modCore i f).certs = s.certs := rfl
@[simp] theorem State.modCore_stagedCert (f : Core → Core) : (s.modCore i f).stagedCert = s.stagedCert := rfl

/-! ### A die changes -/

@[simp] theorem State.modDie_granted (f : Die → Die) : (s.modDie i f).granted = s.granted := rfl
@[simp] theorem State.modDie_cur (f : Die → Die) : (s.modDie i f).cur = s.cur := rfl
@[simp] theorem State.modDie_agenda (f : Die → Die) : (s.modDie i f).agenda = s.agenda := rfl
@[simp] theorem State.modDie_fresh (f : Die → Die) : (s.modDie i f).fresh = s.fresh := rfl
@[simp] theorem State.modDie_schedule (f : Die → Die) : (s.modDie i f).schedule = s.schedule := rfl
@[simp] theorem State.modDie_flowing (f : Die → Die) : (s.modDie i f).flowing = s.flowing := rfl
@[simp] theorem State.modDie_hb (f : Die → Die) : (s.modDie i f).hb = s.hb := rfl
@[simp] theorem State.modDie_clk0 (f : Die → Die) : (s.modDie i f).clk0 = s.clk0 := rfl
@[simp] theorem State.modDie_cores (f : Die → Die) : (s.modDie i f).cores = s.cores := rfl
@[simp] theorem State.modDie_wgs (f : Die → Die) : (s.modDie i f).wgs = s.wgs := rfl
@[simp] theorem State.modDie_binds (f : Die → Die) : (s.modDie i f).binds = s.binds := rfl
@[simp] theorem State.modDie_mem (f : Die → Die) : (s.modDie i f).mem = s.mem := rfl
@[simp] theorem State.modDie_homes (f : Die → Die) : (s.modDie i f).homes = s.homes := rfl
@[simp] theorem State.modDie_dir (f : Die → Die) : (s.modDie i f).dir = s.dir := rfl
@[simp] theorem State.modDie_seals (f : Die → Die) : (s.modDie i f).seals = s.seals := rfl
@[simp] theorem State.modDie_bad (f : Die → Die) : (s.modDie i f).bad = s.bad := rfl
@[simp] theorem State.modDie_badL1 (f : Die → Die) : (s.modDie i f).badL1 = s.badL1 := rfl
@[simp] theorem State.modDie_badPorch (f : Die → Die) : (s.modDie i f).badPorch = s.badPorch := rfl
@[simp] theorem State.modDie_soft (f : Die → Die) : (s.modDie i f).soft = s.soft := rfl
@[simp] theorem State.modDie_reqs (f : Die → Die) : (s.modDie i f).reqs = s.reqs := rfl
@[simp] theorem State.modDie_nextReq (f : Die → Die) : (s.modDie i f).nextReq = s.nextReq := rfl
@[simp] theorem State.modDie_upds (f : Die → Die) : (s.modDie i f).upds = s.upds := rfl
@[simp] theorem State.modDie_windows (f : Die → Die) : (s.modDie i f).windows = s.windows := rfl
@[simp] theorem State.modDie_pkts (f : Die → Die) : (s.modDie i f).pkts = s.pkts := rfl
@[simp] theorem State.modDie_nextPkt (f : Die → Die) : (s.modDie i f).nextPkt = s.nextPkt := rfl
@[simp] theorem State.modDie_links (f : Die → Die) : (s.modDie i f).links = s.links := rfl
@[simp] theorem State.modDie_routes (f : Die → Die) : (s.modDie i f).routes = s.routes := rfl
@[simp] theorem State.modDie_fscOrder (f : Die → Die) : (s.modDie i f).fscOrder = s.fscOrder := rfl
@[simp] theorem State.modDie_tables (f : Die → Die) : (s.modDie i f).tables = s.tables := rfl
@[simp] theorem State.modDie_regions (f : Die → Die) : (s.modDie i f).regions = s.regions := rfl
@[simp] theorem State.modDie_signals (f : Die → Die) : (s.modDie i f).signals = s.signals := rfl
@[simp] theorem State.modDie_events (f : Die → Die) : (s.modDie i f).events = s.events := rfl
@[simp] theorem State.modDie_background (f : Die → Die) : (s.modDie i f).background = s.background := rfl
@[simp] theorem State.modDie_out (f : Die → Die) : (s.modDie i f).out = s.out := rfl
@[simp] theorem State.modDie_snoops (f : Die → Die) : (s.modDie i f).snoops = s.snoops := rfl
@[simp] theorem State.modDie_phase (f : Die → Die) : (s.modDie i f).phase = s.phase := rfl
@[simp] theorem State.modDie_hsb (f : Die → Die) : (s.modDie i f).hsb = s.hsb := rfl
@[simp] theorem State.modDie_grade (f : Die → Die) : (s.modDie i f).grade = s.grade := rfl
@[simp] theorem State.modDie_umod (f : Die → Die) : (s.modDie i f).umod = s.umod := rfl
@[simp] theorem State.modDie_lwid (f : Die → Die) : (s.modDie i f).lwid = s.lwid := rfl
@[simp] theorem State.modDie_lspd (f : Die → Die) : (s.modDie i f).lspd = s.lspd := rfl
@[simp] theorem State.modDie_ths (f : Die → Die) : (s.modDie i f).ths = s.ths := rfl
@[simp] theorem State.modDie_node (f : Die → Die) : (s.modDie i f).node = s.node := rfl
@[simp] theorem State.modDie_uld (f : Die → Die) : (s.modDie i f).uld = s.uld := rfl
@[simp] theorem State.modDie_usz (f : Die → Die) : (s.modDie i f).usz = s.usz := rfl
@[simp] theorem State.modDie_stopped (f : Die → Die) : (s.modDie i f).stopped = s.stopped := rfl
@[simp] theorem State.modDie_clockScale (f : Die → Die) : (s.modDie i f).clockScale = s.clockScale := rfl
@[simp] theorem State.modDie_power (f : Die → Die) : (s.modDie i f).power = s.power := rfl
@[simp] theorem State.modDie_waking (f : Die → Die) : (s.modDie i f).waking = s.waking := rfl
@[simp] theorem State.modDie_powerLimit (f : Die → Die) : (s.modDie i f).powerLimit = s.powerLimit := rfl
@[simp] theorem State.modDie_floor (f : Die → Die) : (s.modDie i f).floor = s.floor := rfl
@[simp] theorem State.modDie_replayLimit (f : Die → Die) : (s.modDie i f).replayLimit = s.replayLimit := rfl
@[simp] theorem State.modDie_enabling (f : Die → Die) : (s.modDie i f).enabling = s.enabling := rfl
@[simp] theorem State.modDie_image (f : Die → Die) : (s.modDie i f).image = s.image := rfl
@[simp] theorem State.modDie_staged (f : Die → Die) : (s.modDie i f).staged = s.staged := rfl
@[simp] theorem State.modDie_transferred (f : Die → Die) : (s.modDie i f).transferred = s.transferred := rfl
@[simp] theorem State.modDie_versionFuse (f : Die → Die) : (s.modDie i f).versionFuse = s.versionFuse := rfl
@[simp] theorem State.modDie_certs (f : Die → Die) : (s.modDie i f).certs = s.certs := rfl
@[simp] theorem State.modDie_stagedCert (f : Die → Die) : (s.modDie i f).stagedCert = s.stagedCert := rfl

/-! ### A request changes -/

@[simp] theorem State.modReq_granted (f : Req → Req) : (s.modReq i f).granted = s.granted := rfl
@[simp] theorem State.modReq_cur (f : Req → Req) : (s.modReq i f).cur = s.cur := rfl
@[simp] theorem State.modReq_agenda (f : Req → Req) : (s.modReq i f).agenda = s.agenda := rfl
@[simp] theorem State.modReq_fresh (f : Req → Req) : (s.modReq i f).fresh = s.fresh := rfl
@[simp] theorem State.modReq_schedule (f : Req → Req) : (s.modReq i f).schedule = s.schedule := rfl
@[simp] theorem State.modReq_flowing (f : Req → Req) : (s.modReq i f).flowing = s.flowing := rfl
@[simp] theorem State.modReq_hb (f : Req → Req) : (s.modReq i f).hb = s.hb := rfl
@[simp] theorem State.modReq_clk0 (f : Req → Req) : (s.modReq i f).clk0 = s.clk0 := rfl
@[simp] theorem State.modReq_cores (f : Req → Req) : (s.modReq i f).cores = s.cores := rfl
@[simp] theorem State.modReq_dies (f : Req → Req) : (s.modReq i f).dies = s.dies := rfl
@[simp] theorem State.modReq_wgs (f : Req → Req) : (s.modReq i f).wgs = s.wgs := rfl
@[simp] theorem State.modReq_binds (f : Req → Req) : (s.modReq i f).binds = s.binds := rfl
@[simp] theorem State.modReq_mem (f : Req → Req) : (s.modReq i f).mem = s.mem := rfl
@[simp] theorem State.modReq_homes (f : Req → Req) : (s.modReq i f).homes = s.homes := rfl
@[simp] theorem State.modReq_dir (f : Req → Req) : (s.modReq i f).dir = s.dir := rfl
@[simp] theorem State.modReq_seals (f : Req → Req) : (s.modReq i f).seals = s.seals := rfl
@[simp] theorem State.modReq_bad (f : Req → Req) : (s.modReq i f).bad = s.bad := rfl
@[simp] theorem State.modReq_badL1 (f : Req → Req) : (s.modReq i f).badL1 = s.badL1 := rfl
@[simp] theorem State.modReq_badPorch (f : Req → Req) : (s.modReq i f).badPorch = s.badPorch := rfl
@[simp] theorem State.modReq_soft (f : Req → Req) : (s.modReq i f).soft = s.soft := rfl
@[simp] theorem State.modReq_nextReq (f : Req → Req) : (s.modReq i f).nextReq = s.nextReq := rfl
@[simp] theorem State.modReq_upds (f : Req → Req) : (s.modReq i f).upds = s.upds := rfl
@[simp] theorem State.modReq_windows (f : Req → Req) : (s.modReq i f).windows = s.windows := rfl
@[simp] theorem State.modReq_pkts (f : Req → Req) : (s.modReq i f).pkts = s.pkts := rfl
@[simp] theorem State.modReq_nextPkt (f : Req → Req) : (s.modReq i f).nextPkt = s.nextPkt := rfl
@[simp] theorem State.modReq_links (f : Req → Req) : (s.modReq i f).links = s.links := rfl
@[simp] theorem State.modReq_routes (f : Req → Req) : (s.modReq i f).routes = s.routes := rfl
@[simp] theorem State.modReq_fscOrder (f : Req → Req) : (s.modReq i f).fscOrder = s.fscOrder := rfl
@[simp] theorem State.modReq_tables (f : Req → Req) : (s.modReq i f).tables = s.tables := rfl
@[simp] theorem State.modReq_regions (f : Req → Req) : (s.modReq i f).regions = s.regions := rfl
@[simp] theorem State.modReq_signals (f : Req → Req) : (s.modReq i f).signals = s.signals := rfl
@[simp] theorem State.modReq_events (f : Req → Req) : (s.modReq i f).events = s.events := rfl
@[simp] theorem State.modReq_background (f : Req → Req) : (s.modReq i f).background = s.background := rfl
@[simp] theorem State.modReq_out (f : Req → Req) : (s.modReq i f).out = s.out := rfl
@[simp] theorem State.modReq_snoops (f : Req → Req) : (s.modReq i f).snoops = s.snoops := rfl
@[simp] theorem State.modReq_phase (f : Req → Req) : (s.modReq i f).phase = s.phase := rfl
@[simp] theorem State.modReq_hsb (f : Req → Req) : (s.modReq i f).hsb = s.hsb := rfl
@[simp] theorem State.modReq_grade (f : Req → Req) : (s.modReq i f).grade = s.grade := rfl
@[simp] theorem State.modReq_umod (f : Req → Req) : (s.modReq i f).umod = s.umod := rfl
@[simp] theorem State.modReq_lwid (f : Req → Req) : (s.modReq i f).lwid = s.lwid := rfl
@[simp] theorem State.modReq_lspd (f : Req → Req) : (s.modReq i f).lspd = s.lspd := rfl
@[simp] theorem State.modReq_ths (f : Req → Req) : (s.modReq i f).ths = s.ths := rfl
@[simp] theorem State.modReq_node (f : Req → Req) : (s.modReq i f).node = s.node := rfl
@[simp] theorem State.modReq_uld (f : Req → Req) : (s.modReq i f).uld = s.uld := rfl
@[simp] theorem State.modReq_usz (f : Req → Req) : (s.modReq i f).usz = s.usz := rfl
@[simp] theorem State.modReq_stopped (f : Req → Req) : (s.modReq i f).stopped = s.stopped := rfl
@[simp] theorem State.modReq_clockScale (f : Req → Req) : (s.modReq i f).clockScale = s.clockScale := rfl
@[simp] theorem State.modReq_power (f : Req → Req) : (s.modReq i f).power = s.power := rfl
@[simp] theorem State.modReq_waking (f : Req → Req) : (s.modReq i f).waking = s.waking := rfl
@[simp] theorem State.modReq_powerLimit (f : Req → Req) : (s.modReq i f).powerLimit = s.powerLimit := rfl
@[simp] theorem State.modReq_floor (f : Req → Req) : (s.modReq i f).floor = s.floor := rfl
@[simp] theorem State.modReq_replayLimit (f : Req → Req) : (s.modReq i f).replayLimit = s.replayLimit := rfl
@[simp] theorem State.modReq_enabling (f : Req → Req) : (s.modReq i f).enabling = s.enabling := rfl
@[simp] theorem State.modReq_image (f : Req → Req) : (s.modReq i f).image = s.image := rfl
@[simp] theorem State.modReq_staged (f : Req → Req) : (s.modReq i f).staged = s.staged := rfl
@[simp] theorem State.modReq_transferred (f : Req → Req) : (s.modReq i f).transferred = s.transferred := rfl
@[simp] theorem State.modReq_versionFuse (f : Req → Req) : (s.modReq i f).versionFuse = s.versionFuse := rfl
@[simp] theorem State.modReq_certs (f : Req → Req) : (s.modReq i f).certs = s.certs := rfl
@[simp] theorem State.modReq_stagedCert (f : Req → Req) : (s.modReq i f).stagedCert = s.stagedCert := rfl

/-! ### A command changes -/

@[simp] theorem State.modCmd_granted (f : Cmd → Cmd) : (s.modCmd i j f).granted = s.granted := rfl
@[simp] theorem State.modCmd_cur (f : Cmd → Cmd) : (s.modCmd i j f).cur = s.cur := rfl
@[simp] theorem State.modCmd_agenda (f : Cmd → Cmd) : (s.modCmd i j f).agenda = s.agenda := rfl
@[simp] theorem State.modCmd_fresh (f : Cmd → Cmd) : (s.modCmd i j f).fresh = s.fresh := rfl
@[simp] theorem State.modCmd_schedule (f : Cmd → Cmd) : (s.modCmd i j f).schedule = s.schedule := rfl
@[simp] theorem State.modCmd_flowing (f : Cmd → Cmd) : (s.modCmd i j f).flowing = s.flowing := rfl
@[simp] theorem State.modCmd_hb (f : Cmd → Cmd) : (s.modCmd i j f).hb = s.hb := rfl
@[simp] theorem State.modCmd_clk0 (f : Cmd → Cmd) : (s.modCmd i j f).clk0 = s.clk0 := rfl
@[simp] theorem State.modCmd_cores (f : Cmd → Cmd) : (s.modCmd i j f).cores = s.cores := rfl
@[simp] theorem State.modCmd_dies (f : Cmd → Cmd) : (s.modCmd i j f).dies = s.dies := rfl
@[simp] theorem State.modCmd_binds (f : Cmd → Cmd) : (s.modCmd i j f).binds = s.binds := rfl
@[simp] theorem State.modCmd_mem (f : Cmd → Cmd) : (s.modCmd i j f).mem = s.mem := rfl
@[simp] theorem State.modCmd_homes (f : Cmd → Cmd) : (s.modCmd i j f).homes = s.homes := rfl
@[simp] theorem State.modCmd_dir (f : Cmd → Cmd) : (s.modCmd i j f).dir = s.dir := rfl
@[simp] theorem State.modCmd_seals (f : Cmd → Cmd) : (s.modCmd i j f).seals = s.seals := rfl
@[simp] theorem State.modCmd_bad (f : Cmd → Cmd) : (s.modCmd i j f).bad = s.bad := rfl
@[simp] theorem State.modCmd_badL1 (f : Cmd → Cmd) : (s.modCmd i j f).badL1 = s.badL1 := rfl
@[simp] theorem State.modCmd_badPorch (f : Cmd → Cmd) : (s.modCmd i j f).badPorch = s.badPorch := rfl
@[simp] theorem State.modCmd_soft (f : Cmd → Cmd) : (s.modCmd i j f).soft = s.soft := rfl
@[simp] theorem State.modCmd_reqs (f : Cmd → Cmd) : (s.modCmd i j f).reqs = s.reqs := rfl
@[simp] theorem State.modCmd_nextReq (f : Cmd → Cmd) : (s.modCmd i j f).nextReq = s.nextReq := rfl
@[simp] theorem State.modCmd_upds (f : Cmd → Cmd) : (s.modCmd i j f).upds = s.upds := rfl
@[simp] theorem State.modCmd_windows (f : Cmd → Cmd) : (s.modCmd i j f).windows = s.windows := rfl
@[simp] theorem State.modCmd_pkts (f : Cmd → Cmd) : (s.modCmd i j f).pkts = s.pkts := rfl
@[simp] theorem State.modCmd_nextPkt (f : Cmd → Cmd) : (s.modCmd i j f).nextPkt = s.nextPkt := rfl
@[simp] theorem State.modCmd_links (f : Cmd → Cmd) : (s.modCmd i j f).links = s.links := rfl
@[simp] theorem State.modCmd_routes (f : Cmd → Cmd) : (s.modCmd i j f).routes = s.routes := rfl
@[simp] theorem State.modCmd_fscOrder (f : Cmd → Cmd) : (s.modCmd i j f).fscOrder = s.fscOrder := rfl
@[simp] theorem State.modCmd_tables (f : Cmd → Cmd) : (s.modCmd i j f).tables = s.tables := rfl
@[simp] theorem State.modCmd_regions (f : Cmd → Cmd) : (s.modCmd i j f).regions = s.regions := rfl
@[simp] theorem State.modCmd_signals (f : Cmd → Cmd) : (s.modCmd i j f).signals = s.signals := rfl
@[simp] theorem State.modCmd_events (f : Cmd → Cmd) : (s.modCmd i j f).events = s.events := rfl
@[simp] theorem State.modCmd_background (f : Cmd → Cmd) : (s.modCmd i j f).background = s.background := rfl
@[simp] theorem State.modCmd_out (f : Cmd → Cmd) : (s.modCmd i j f).out = s.out := rfl
@[simp] theorem State.modCmd_snoops (f : Cmd → Cmd) : (s.modCmd i j f).snoops = s.snoops := rfl
@[simp] theorem State.modCmd_phase (f : Cmd → Cmd) : (s.modCmd i j f).phase = s.phase := rfl
@[simp] theorem State.modCmd_hsb (f : Cmd → Cmd) : (s.modCmd i j f).hsb = s.hsb := rfl
@[simp] theorem State.modCmd_grade (f : Cmd → Cmd) : (s.modCmd i j f).grade = s.grade := rfl
@[simp] theorem State.modCmd_umod (f : Cmd → Cmd) : (s.modCmd i j f).umod = s.umod := rfl
@[simp] theorem State.modCmd_lwid (f : Cmd → Cmd) : (s.modCmd i j f).lwid = s.lwid := rfl
@[simp] theorem State.modCmd_lspd (f : Cmd → Cmd) : (s.modCmd i j f).lspd = s.lspd := rfl
@[simp] theorem State.modCmd_ths (f : Cmd → Cmd) : (s.modCmd i j f).ths = s.ths := rfl
@[simp] theorem State.modCmd_node (f : Cmd → Cmd) : (s.modCmd i j f).node = s.node := rfl
@[simp] theorem State.modCmd_uld (f : Cmd → Cmd) : (s.modCmd i j f).uld = s.uld := rfl
@[simp] theorem State.modCmd_usz (f : Cmd → Cmd) : (s.modCmd i j f).usz = s.usz := rfl
@[simp] theorem State.modCmd_stopped (f : Cmd → Cmd) : (s.modCmd i j f).stopped = s.stopped := rfl
@[simp] theorem State.modCmd_clockScale (f : Cmd → Cmd) : (s.modCmd i j f).clockScale = s.clockScale := rfl
@[simp] theorem State.modCmd_power (f : Cmd → Cmd) : (s.modCmd i j f).power = s.power := rfl
@[simp] theorem State.modCmd_waking (f : Cmd → Cmd) : (s.modCmd i j f).waking = s.waking := rfl
@[simp] theorem State.modCmd_powerLimit (f : Cmd → Cmd) : (s.modCmd i j f).powerLimit = s.powerLimit := rfl
@[simp] theorem State.modCmd_floor (f : Cmd → Cmd) : (s.modCmd i j f).floor = s.floor := rfl
@[simp] theorem State.modCmd_replayLimit (f : Cmd → Cmd) : (s.modCmd i j f).replayLimit = s.replayLimit := rfl
@[simp] theorem State.modCmd_enabling (f : Cmd → Cmd) : (s.modCmd i j f).enabling = s.enabling := rfl
@[simp] theorem State.modCmd_image (f : Cmd → Cmd) : (s.modCmd i j f).image = s.image := rfl
@[simp] theorem State.modCmd_staged (f : Cmd → Cmd) : (s.modCmd i j f).staged = s.staged := rfl
@[simp] theorem State.modCmd_transferred (f : Cmd → Cmd) : (s.modCmd i j f).transferred = s.transferred := rfl
@[simp] theorem State.modCmd_versionFuse (f : Cmd → Cmd) : (s.modCmd i j f).versionFuse = s.versionFuse := rfl
@[simp] theorem State.modCmd_certs (f : Cmd → Cmd) : (s.modCmd i j f).certs = s.certs := rfl
@[simp] theorem State.modCmd_stagedCert (f : Cmd → Cmd) : (s.modCmd i j f).stagedCert = s.stagedCert := rfl

/-! ### A link changes -/

@[simp] theorem State.modLink_granted (f : Link → Link) : (s.modLink i f).granted = s.granted := rfl
@[simp] theorem State.modLink_cur (f : Link → Link) : (s.modLink i f).cur = s.cur := rfl
@[simp] theorem State.modLink_agenda (f : Link → Link) : (s.modLink i f).agenda = s.agenda := rfl
@[simp] theorem State.modLink_fresh (f : Link → Link) : (s.modLink i f).fresh = s.fresh := rfl
@[simp] theorem State.modLink_schedule (f : Link → Link) : (s.modLink i f).schedule = s.schedule := rfl
@[simp] theorem State.modLink_flowing (f : Link → Link) : (s.modLink i f).flowing = s.flowing := rfl
@[simp] theorem State.modLink_hb (f : Link → Link) : (s.modLink i f).hb = s.hb := rfl
@[simp] theorem State.modLink_clk0 (f : Link → Link) : (s.modLink i f).clk0 = s.clk0 := rfl
@[simp] theorem State.modLink_cores (f : Link → Link) : (s.modLink i f).cores = s.cores := rfl
@[simp] theorem State.modLink_dies (f : Link → Link) : (s.modLink i f).dies = s.dies := rfl
@[simp] theorem State.modLink_wgs (f : Link → Link) : (s.modLink i f).wgs = s.wgs := rfl
@[simp] theorem State.modLink_binds (f : Link → Link) : (s.modLink i f).binds = s.binds := rfl
@[simp] theorem State.modLink_mem (f : Link → Link) : (s.modLink i f).mem = s.mem := rfl
@[simp] theorem State.modLink_homes (f : Link → Link) : (s.modLink i f).homes = s.homes := rfl
@[simp] theorem State.modLink_dir (f : Link → Link) : (s.modLink i f).dir = s.dir := rfl
@[simp] theorem State.modLink_seals (f : Link → Link) : (s.modLink i f).seals = s.seals := rfl
@[simp] theorem State.modLink_bad (f : Link → Link) : (s.modLink i f).bad = s.bad := rfl
@[simp] theorem State.modLink_badL1 (f : Link → Link) : (s.modLink i f).badL1 = s.badL1 := rfl
@[simp] theorem State.modLink_badPorch (f : Link → Link) : (s.modLink i f).badPorch = s.badPorch := rfl
@[simp] theorem State.modLink_soft (f : Link → Link) : (s.modLink i f).soft = s.soft := rfl
@[simp] theorem State.modLink_reqs (f : Link → Link) : (s.modLink i f).reqs = s.reqs := rfl
@[simp] theorem State.modLink_nextReq (f : Link → Link) : (s.modLink i f).nextReq = s.nextReq := rfl
@[simp] theorem State.modLink_upds (f : Link → Link) : (s.modLink i f).upds = s.upds := rfl
@[simp] theorem State.modLink_windows (f : Link → Link) : (s.modLink i f).windows = s.windows := rfl
@[simp] theorem State.modLink_pkts (f : Link → Link) : (s.modLink i f).pkts = s.pkts := rfl
@[simp] theorem State.modLink_nextPkt (f : Link → Link) : (s.modLink i f).nextPkt = s.nextPkt := rfl
@[simp] theorem State.modLink_routes (f : Link → Link) : (s.modLink i f).routes = s.routes := rfl
@[simp] theorem State.modLink_fscOrder (f : Link → Link) : (s.modLink i f).fscOrder = s.fscOrder := rfl
@[simp] theorem State.modLink_tables (f : Link → Link) : (s.modLink i f).tables = s.tables := rfl
@[simp] theorem State.modLink_regions (f : Link → Link) : (s.modLink i f).regions = s.regions := rfl
@[simp] theorem State.modLink_signals (f : Link → Link) : (s.modLink i f).signals = s.signals := rfl
@[simp] theorem State.modLink_events (f : Link → Link) : (s.modLink i f).events = s.events := rfl
@[simp] theorem State.modLink_background (f : Link → Link) : (s.modLink i f).background = s.background := rfl
@[simp] theorem State.modLink_out (f : Link → Link) : (s.modLink i f).out = s.out := rfl
@[simp] theorem State.modLink_snoops (f : Link → Link) : (s.modLink i f).snoops = s.snoops := rfl
@[simp] theorem State.modLink_phase (f : Link → Link) : (s.modLink i f).phase = s.phase := rfl
@[simp] theorem State.modLink_hsb (f : Link → Link) : (s.modLink i f).hsb = s.hsb := rfl
@[simp] theorem State.modLink_grade (f : Link → Link) : (s.modLink i f).grade = s.grade := rfl
@[simp] theorem State.modLink_umod (f : Link → Link) : (s.modLink i f).umod = s.umod := rfl
@[simp] theorem State.modLink_lwid (f : Link → Link) : (s.modLink i f).lwid = s.lwid := rfl
@[simp] theorem State.modLink_lspd (f : Link → Link) : (s.modLink i f).lspd = s.lspd := rfl
@[simp] theorem State.modLink_ths (f : Link → Link) : (s.modLink i f).ths = s.ths := rfl
@[simp] theorem State.modLink_node (f : Link → Link) : (s.modLink i f).node = s.node := rfl
@[simp] theorem State.modLink_uld (f : Link → Link) : (s.modLink i f).uld = s.uld := rfl
@[simp] theorem State.modLink_usz (f : Link → Link) : (s.modLink i f).usz = s.usz := rfl
@[simp] theorem State.modLink_stopped (f : Link → Link) : (s.modLink i f).stopped = s.stopped := rfl
@[simp] theorem State.modLink_clockScale (f : Link → Link) : (s.modLink i f).clockScale = s.clockScale := rfl
@[simp] theorem State.modLink_power (f : Link → Link) : (s.modLink i f).power = s.power := rfl
@[simp] theorem State.modLink_waking (f : Link → Link) : (s.modLink i f).waking = s.waking := rfl
@[simp] theorem State.modLink_powerLimit (f : Link → Link) : (s.modLink i f).powerLimit = s.powerLimit := rfl
@[simp] theorem State.modLink_floor (f : Link → Link) : (s.modLink i f).floor = s.floor := rfl
@[simp] theorem State.modLink_replayLimit (f : Link → Link) : (s.modLink i f).replayLimit = s.replayLimit := rfl
@[simp] theorem State.modLink_enabling (f : Link → Link) : (s.modLink i f).enabling = s.enabling := rfl
@[simp] theorem State.modLink_image (f : Link → Link) : (s.modLink i f).image = s.image := rfl
@[simp] theorem State.modLink_staged (f : Link → Link) : (s.modLink i f).staged = s.staged := rfl
@[simp] theorem State.modLink_transferred (f : Link → Link) : (s.modLink i f).transferred = s.transferred := rfl
@[simp] theorem State.modLink_versionFuse (f : Link → Link) : (s.modLink i f).versionFuse = s.versionFuse := rfl
@[simp] theorem State.modLink_certs (f : Link → Link) : (s.modLink i f).certs = s.certs := rfl
@[simp] theorem State.modLink_stagedCert (f : Link → Link) : (s.modLink i f).stagedCert = s.stagedCert := rfl

/-! ### A free value is drawn -/

@[simp] theorem State.draw_granted : (s.draw.2).granted = s.granted := rfl
@[simp] theorem State.draw_cur : (s.draw.2).cur = s.cur := rfl
@[simp] theorem State.draw_agenda : (s.draw.2).agenda = s.agenda := rfl
@[simp] theorem State.draw_schedule : (s.draw.2).schedule = s.schedule := rfl
@[simp] theorem State.draw_flowing : (s.draw.2).flowing = s.flowing := rfl
@[simp] theorem State.draw_hb : (s.draw.2).hb = s.hb := rfl
@[simp] theorem State.draw_clk0 : (s.draw.2).clk0 = s.clk0 := rfl
@[simp] theorem State.draw_cores : (s.draw.2).cores = s.cores := rfl
@[simp] theorem State.draw_dies : (s.draw.2).dies = s.dies := rfl
@[simp] theorem State.draw_wgs : (s.draw.2).wgs = s.wgs := rfl
@[simp] theorem State.draw_binds : (s.draw.2).binds = s.binds := rfl
@[simp] theorem State.draw_mem : (s.draw.2).mem = s.mem := rfl
@[simp] theorem State.draw_homes : (s.draw.2).homes = s.homes := rfl
@[simp] theorem State.draw_dir : (s.draw.2).dir = s.dir := rfl
@[simp] theorem State.draw_seals : (s.draw.2).seals = s.seals := rfl
@[simp] theorem State.draw_bad : (s.draw.2).bad = s.bad := rfl
@[simp] theorem State.draw_badL1 : (s.draw.2).badL1 = s.badL1 := rfl
@[simp] theorem State.draw_badPorch : (s.draw.2).badPorch = s.badPorch := rfl
@[simp] theorem State.draw_soft : (s.draw.2).soft = s.soft := rfl
@[simp] theorem State.draw_reqs : (s.draw.2).reqs = s.reqs := rfl
@[simp] theorem State.draw_nextReq : (s.draw.2).nextReq = s.nextReq := rfl
@[simp] theorem State.draw_upds : (s.draw.2).upds = s.upds := rfl
@[simp] theorem State.draw_windows : (s.draw.2).windows = s.windows := rfl
@[simp] theorem State.draw_pkts : (s.draw.2).pkts = s.pkts := rfl
@[simp] theorem State.draw_nextPkt : (s.draw.2).nextPkt = s.nextPkt := rfl
@[simp] theorem State.draw_links : (s.draw.2).links = s.links := rfl
@[simp] theorem State.draw_routes : (s.draw.2).routes = s.routes := rfl
@[simp] theorem State.draw_fscOrder : (s.draw.2).fscOrder = s.fscOrder := rfl
@[simp] theorem State.draw_tables : (s.draw.2).tables = s.tables := rfl
@[simp] theorem State.draw_regions : (s.draw.2).regions = s.regions := rfl
@[simp] theorem State.draw_signals : (s.draw.2).signals = s.signals := rfl
@[simp] theorem State.draw_events : (s.draw.2).events = s.events := rfl
@[simp] theorem State.draw_background : (s.draw.2).background = s.background := rfl
@[simp] theorem State.draw_out : (s.draw.2).out = s.out := rfl
@[simp] theorem State.draw_snoops : (s.draw.2).snoops = s.snoops := rfl
@[simp] theorem State.draw_phase : (s.draw.2).phase = s.phase := rfl
@[simp] theorem State.draw_hsb : (s.draw.2).hsb = s.hsb := rfl
@[simp] theorem State.draw_grade : (s.draw.2).grade = s.grade := rfl
@[simp] theorem State.draw_umod : (s.draw.2).umod = s.umod := rfl
@[simp] theorem State.draw_lwid : (s.draw.2).lwid = s.lwid := rfl
@[simp] theorem State.draw_lspd : (s.draw.2).lspd = s.lspd := rfl
@[simp] theorem State.draw_ths : (s.draw.2).ths = s.ths := rfl
@[simp] theorem State.draw_node : (s.draw.2).node = s.node := rfl
@[simp] theorem State.draw_uld : (s.draw.2).uld = s.uld := rfl
@[simp] theorem State.draw_usz : (s.draw.2).usz = s.usz := rfl
@[simp] theorem State.draw_stopped : (s.draw.2).stopped = s.stopped := rfl
@[simp] theorem State.draw_clockScale : (s.draw.2).clockScale = s.clockScale := rfl
@[simp] theorem State.draw_power : (s.draw.2).power = s.power := rfl
@[simp] theorem State.draw_waking : (s.draw.2).waking = s.waking := rfl
@[simp] theorem State.draw_powerLimit : (s.draw.2).powerLimit = s.powerLimit := rfl
@[simp] theorem State.draw_floor : (s.draw.2).floor = s.floor := rfl
@[simp] theorem State.draw_replayLimit : (s.draw.2).replayLimit = s.replayLimit := rfl
@[simp] theorem State.draw_enabling : (s.draw.2).enabling = s.enabling := rfl
@[simp] theorem State.draw_image : (s.draw.2).image = s.image := rfl
@[simp] theorem State.draw_staged : (s.draw.2).staged = s.staged := rfl
@[simp] theorem State.draw_transferred : (s.draw.2).transferred = s.transferred := rfl
@[simp] theorem State.draw_versionFuse : (s.draw.2).versionFuse = s.versionFuse := rfl
@[simp] theorem State.draw_certs : (s.draw.2).certs = s.certs := rfl
@[simp] theorem State.draw_stagedCert : (s.draw.2).stagedCert = s.stagedCert := rfl

/-! ### Bytes are written at once -/

@[simp] theorem State.applyNow_granted (bs : List Byte) : (s.applyNow i bs).granted = s.granted := rfl
@[simp] theorem State.applyNow_cur (bs : List Byte) : (s.applyNow i bs).cur = s.cur := rfl
@[simp] theorem State.applyNow_agenda (bs : List Byte) : (s.applyNow i bs).agenda = s.agenda := rfl
@[simp] theorem State.applyNow_fresh (bs : List Byte) : (s.applyNow i bs).fresh = s.fresh := rfl
@[simp] theorem State.applyNow_schedule (bs : List Byte) : (s.applyNow i bs).schedule = s.schedule := rfl
@[simp] theorem State.applyNow_flowing (bs : List Byte) : (s.applyNow i bs).flowing = s.flowing := rfl
@[simp] theorem State.applyNow_hb (bs : List Byte) : (s.applyNow i bs).hb = s.hb := rfl
@[simp] theorem State.applyNow_clk0 (bs : List Byte) : (s.applyNow i bs).clk0 = s.clk0 := rfl
@[simp] theorem State.applyNow_wgs (bs : List Byte) : (s.applyNow i bs).wgs = s.wgs := rfl
@[simp] theorem State.applyNow_binds (bs : List Byte) : (s.applyNow i bs).binds = s.binds := rfl
@[simp] theorem State.applyNow_homes (bs : List Byte) : (s.applyNow i bs).homes = s.homes := rfl
@[simp] theorem State.applyNow_dir (bs : List Byte) : (s.applyNow i bs).dir = s.dir := rfl
@[simp] theorem State.applyNow_seals (bs : List Byte) : (s.applyNow i bs).seals = s.seals := rfl
@[simp] theorem State.applyNow_bad (bs : List Byte) : (s.applyNow i bs).bad = s.bad := rfl
@[simp] theorem State.applyNow_badL1 (bs : List Byte) : (s.applyNow i bs).badL1 = s.badL1 := rfl
@[simp] theorem State.applyNow_badPorch (bs : List Byte) : (s.applyNow i bs).badPorch = s.badPorch := rfl
@[simp] theorem State.applyNow_soft (bs : List Byte) : (s.applyNow i bs).soft = s.soft := rfl
@[simp] theorem State.applyNow_nextReq (bs : List Byte) : (s.applyNow i bs).nextReq = s.nextReq := rfl
@[simp] theorem State.applyNow_windows (bs : List Byte) : (s.applyNow i bs).windows = s.windows := rfl
@[simp] theorem State.applyNow_pkts (bs : List Byte) : (s.applyNow i bs).pkts = s.pkts := rfl
@[simp] theorem State.applyNow_nextPkt (bs : List Byte) : (s.applyNow i bs).nextPkt = s.nextPkt := rfl
@[simp] theorem State.applyNow_links (bs : List Byte) : (s.applyNow i bs).links = s.links := rfl
@[simp] theorem State.applyNow_routes (bs : List Byte) : (s.applyNow i bs).routes = s.routes := rfl
@[simp] theorem State.applyNow_fscOrder (bs : List Byte) : (s.applyNow i bs).fscOrder = s.fscOrder := rfl
@[simp] theorem State.applyNow_tables (bs : List Byte) : (s.applyNow i bs).tables = s.tables := rfl
@[simp] theorem State.applyNow_regions (bs : List Byte) : (s.applyNow i bs).regions = s.regions := rfl
@[simp] theorem State.applyNow_signals (bs : List Byte) : (s.applyNow i bs).signals = s.signals := rfl
@[simp] theorem State.applyNow_events (bs : List Byte) : (s.applyNow i bs).events = s.events := rfl
@[simp] theorem State.applyNow_background (bs : List Byte) : (s.applyNow i bs).background = s.background := rfl
@[simp] theorem State.applyNow_out (bs : List Byte) : (s.applyNow i bs).out = s.out := rfl
@[simp] theorem State.applyNow_snoops (bs : List Byte) : (s.applyNow i bs).snoops = s.snoops := rfl
@[simp] theorem State.applyNow_phase (bs : List Byte) : (s.applyNow i bs).phase = s.phase := rfl
@[simp] theorem State.applyNow_hsb (bs : List Byte) : (s.applyNow i bs).hsb = s.hsb := rfl
@[simp] theorem State.applyNow_grade (bs : List Byte) : (s.applyNow i bs).grade = s.grade := rfl
@[simp] theorem State.applyNow_umod (bs : List Byte) : (s.applyNow i bs).umod = s.umod := rfl
@[simp] theorem State.applyNow_lwid (bs : List Byte) : (s.applyNow i bs).lwid = s.lwid := rfl
@[simp] theorem State.applyNow_lspd (bs : List Byte) : (s.applyNow i bs).lspd = s.lspd := rfl
@[simp] theorem State.applyNow_ths (bs : List Byte) : (s.applyNow i bs).ths = s.ths := rfl
@[simp] theorem State.applyNow_node (bs : List Byte) : (s.applyNow i bs).node = s.node := rfl
@[simp] theorem State.applyNow_uld (bs : List Byte) : (s.applyNow i bs).uld = s.uld := rfl
@[simp] theorem State.applyNow_usz (bs : List Byte) : (s.applyNow i bs).usz = s.usz := rfl
@[simp] theorem State.applyNow_stopped (bs : List Byte) : (s.applyNow i bs).stopped = s.stopped := rfl
@[simp] theorem State.applyNow_clockScale (bs : List Byte) : (s.applyNow i bs).clockScale = s.clockScale := rfl
@[simp] theorem State.applyNow_power (bs : List Byte) : (s.applyNow i bs).power = s.power := rfl
@[simp] theorem State.applyNow_waking (bs : List Byte) : (s.applyNow i bs).waking = s.waking := rfl
@[simp] theorem State.applyNow_powerLimit (bs : List Byte) : (s.applyNow i bs).powerLimit = s.powerLimit := rfl
@[simp] theorem State.applyNow_floor (bs : List Byte) : (s.applyNow i bs).floor = s.floor := rfl
@[simp] theorem State.applyNow_replayLimit (bs : List Byte) : (s.applyNow i bs).replayLimit = s.replayLimit := rfl
@[simp] theorem State.applyNow_enabling (bs : List Byte) : (s.applyNow i bs).enabling = s.enabling := rfl
@[simp] theorem State.applyNow_image (bs : List Byte) : (s.applyNow i bs).image = s.image := rfl
@[simp] theorem State.applyNow_staged (bs : List Byte) : (s.applyNow i bs).staged = s.staged := rfl
@[simp] theorem State.applyNow_transferred (bs : List Byte) : (s.applyNow i bs).transferred = s.transferred := rfl
@[simp] theorem State.applyNow_versionFuse (bs : List Byte) : (s.applyNow i bs).versionFuse = s.versionFuse := rfl
@[simp] theorem State.applyNow_certs (bs : List Byte) : (s.applyNow i bs).certs = s.certs := rfl
@[simp] theorem State.applyNow_stagedCert (bs : List Byte) : (s.applyNow i bs).stagedCert = s.stagedCert := rfl

/-! ### A thread of a workgroup changes -/

@[simp] theorem Workgroup.modThread_block (f : Thread → Thread) : (g.modThread i f).block = g.block := rfl
@[simp] theorem Workgroup.modThread_wg (f : Thread → Thread) : (g.modThread i f).wg = g.wg := rfl
@[simp] theorem Workgroup.modThread_ctx (f : Thread → Thread) : (g.modThread i f).ctx = g.ctx := rfl
@[simp] theorem Workgroup.modThread_core (f : Thread → Thread) : (g.modThread i f).core = g.core := rfl
@[simp] theorem Workgroup.modThread_slot (f : Thread → Thread) : (g.modThread i f).slot = g.slot := rfl
@[simp] theorem Workgroup.modThread_spBase (f : Thread → Thread) : (g.modThread i f).spBase = g.spBase := rfl
@[simp] theorem Workgroup.modThread_regBase (f : Thread → Thread) : (g.modThread i f).regBase = g.regBase := rfl
@[simp] theorem Workgroup.modThread_accBase (f : Thread → Thread) : (g.modThread i f).accBase = g.accBase := rfl
@[simp] theorem Workgroup.modThread_cls (f : Thread → Thread) : (g.modThread i f).cls = g.cls := rfl
@[simp] theorem Workgroup.modThread_level (f : Thread → Thread) : (g.modThread i f).level = g.level := rfl
@[simp] theorem Workgroup.modThread_hdr (f : Thread → Thread) : (g.modThread i f).hdr = g.hdr := rfl
@[simp] theorem Workgroup.modThread_hdrVa (f : Thread → Thread) : (g.modThread i f).hdrVa = g.hdrVa := rfl
@[simp] theorem Workgroup.modThread_fhnd (f : Thread → Thread) : (g.modThread i f).fhnd = g.fhnd := rfl
@[simp] theorem Workgroup.modThread_fhEntry (f : Thread → Thread) : (g.modThread i f).fhEntry = g.fhEntry := rfl
@[simp] theorem Workgroup.modThread_fhLen (f : Thread → Thread) : (g.modThread i f).fhLen = g.fhLen := rfl
@[simp] theorem Workgroup.modThread_args (f : Thread → Thread) : (g.modThread i f).args = g.args := rfl
@[simp] theorem Workgroup.modThread_argLen (f : Thread → Thread) : (g.modThread i f).argLen = g.argLen := rfl
@[simp] theorem Workgroup.modThread_argWords (f : Thread → Thread) : (g.modThread i f).argWords = g.argWords := rfl
@[simp] theorem Workgroup.modThread_hwarps (f : Thread → Thread) : (g.modThread i f).hwarps = g.hwarps := rfl
@[simp] theorem Workgroup.modThread_acc (f : Thread → Thread) : (g.modThread i f).acc = g.acc := rfl
@[simp] theorem Workgroup.modThread_staging (f : Thread → Thread) : (g.modThread i f).staging = g.staging := rfl
@[simp] theorem Workgroup.modThread_spad (f : Thread → Thread) : (g.modThread i f).spad = g.spad := rfl
@[simp] theorem Workgroup.modThread_spoilt (f : Thread → Thread) : (g.modThread i f).spoilt = g.spoilt := rfl
@[simp] theorem Workgroup.modThread_spass (f : Thread → Thread) : (g.modThread i f).spass = g.spass := rfl
@[simp] theorem Workgroup.modThread_chans (f : Thread → Thread) : (g.modThread i f).chans = g.chans := rfl
@[simp] theorem Workgroup.modThread_defers (f : Thread → Thread) : (g.modThread i f).defers = g.defers := rfl
@[simp] theorem Workgroup.modThread_matrix (f : Thread → Thread) : (g.modThread i f).matrix = g.matrix := rfl
@[simp] theorem Workgroup.modThread_mxq (f : Thread → Thread) : (g.modThread i f).mxq = g.mxq := rfl
@[simp] theorem Workgroup.modThread_act (f : Thread → Thread) : (g.modThread i f).act = g.act := rfl
@[simp] theorem Workgroup.modThread_cmds (f : Thread → Thread) : (g.modThread i f).cmds = g.cmds := rfl
@[simp] theorem Workgroup.modThread_perf (f : Thread → Thread) : (g.modThread i f).perf = g.perf := rfl
@[simp] theorem Workgroup.modThread_nextFw (f : Thread → Thread) : (g.modThread i f).nextFw = g.nextFw := rfl
@[simp] theorem Workgroup.modThread_relSets (f : Thread → Thread) : (g.modThread i f).relSets = g.relSets := rfl
@[simp] theorem Workgroup.modThread_trapSets (f : Thread → Thread) : (g.modThread i f).trapSets = g.trapSets := rfl
@[simp] theorem Workgroup.modThread_tails (f : Thread → Thread) : (g.modThread i f).tails = g.tails := rfl
@[simp] theorem Workgroup.modThread_byTail (f : Thread → Thread) : (g.modThread i f).byTail = g.byTail := rfl
@[simp] theorem Workgroup.modThread_status (f : Thread → Thread) : (g.modThread i f).status = g.status := rfl
@[simp] theorem Workgroup.modThread_kill (f : Thread → Thread) : (g.modThread i f).kill = g.kill := rfl
@[simp] theorem Workgroup.modThread_endDeps (f : Thread → Thread) : (g.modThread i f).endDeps = g.endDeps := rfl
@[simp] theorem Workgroup.modThread_boundAt (f : Thread → Thread) : (g.modThread i f).boundAt = g.boundAt := rfl
@[simp] theorem Workgroup.modThread_boundSeq (f : Thread → Thread) : (g.modThread i f).boundSeq = g.boundSeq := rfl
@[simp] theorem Workgroup.modThread_starved (f : Thread → Thread) : (g.modThread i f).starved = g.starved := rfl
@[simp] theorem Workgroup.modThread_ctxAddr (f : Thread → Thread) : (g.modThread i f).ctxAddr = g.ctxAddr := rfl

/-! ### A vector register is written -/

@[simp] theorem Thread.writeV_tid (v : W32) : (t.writeV i v).tid = t.tid := rfl
@[simp] theorem Thread.writeV_pc (v : W32) : (t.writeV i v).pc = t.pc := rfl
@[simp] theorem Thread.writeV_p (v : W32) : (t.writeV i v).p = t.p := rfl
@[simp] theorem Thread.writeV_meet (v : W32) : (t.writeV i v).meet = t.meet := rfl
@[simp] theorem Thread.writeV_entries (v : W32) : (t.writeV i v).entries = t.entries := rfl
@[simp] theorem Thread.writeV_depth (v : W32) : (t.writeV i v).depth = t.depth := rfl
@[simp] theorem Thread.writeV_rm (v : W32) : (t.writeV i v).rm = t.rm := rfl
@[simp] theorem Thread.writeV_fflags (v : W32) : (t.writeV i v).fflags = t.fflags := rfl
@[simp] theorem Thread.writeV_tcause (v : W32) : (t.writeV i v).tcause = t.tcause := rfl
@[simp] theorem Thread.writeV_tpos (v : W32) : (t.writeV i v).tpos = t.tpos := rfl
@[simp] theorem Thread.writeV_tval (v : W32) : (t.writeV i v).tval = t.tval := rfl
@[simp] theorem Thread.writeV_pend (v : W32) : (t.writeV i v).pend = t.pend := rfl
@[simp] theorem Thread.writeV_writes (v : W32) : (t.writeV i v).writes = t.writes := rfl
@[simp] theorem Thread.writeV_failed (v : W32) : (t.writeV i v).failed = t.failed := rfl
@[simp] theorem Thread.writeV_joined (v : W32) : (t.writeV i v).joined = t.joined := rfl
@[simp] theorem Thread.writeV_lost (v : W32) : (t.writeV i v).lost = t.lost := rfl
@[simp] theorem Thread.writeV_hold (v : W32) : (t.writeV i v).hold = t.hold := rfl
@[simp] theorem Thread.writeV_ended (v : W32) : (t.writeV i v).ended = t.ended := rfl
@[simp] theorem Thread.writeV_tailed (v : W32) : (t.writeV i v).tailed = t.tailed := rfl
@[simp] theorem Thread.writeV_parked (v : W32) : (t.writeV i v).parked = t.parked := rfl
@[simp] theorem Thread.writeV_priv (v : W32) : (t.writeV i v).priv = t.priv := rfl
@[simp] theorem Thread.writeV_depthIn (v : W32) : (t.writeV i v).depthIn = t.depthIn := rfl
@[simp] theorem Thread.writeV_user (v : W32) : (t.writeV i v).user = t.user := rfl
@[simp] theorem Thread.writeV_frames (v : W32) : (t.writeV i v).frames = t.frames := rfl
@[simp] theorem Thread.writeV_switched (v : W32) : (t.writeV i v).switched = t.switched := rfl
@[simp] theorem Thread.writeV_entered (v : W32) : (t.writeV i v).entered = t.entered := rfl
@[simp] theorem Thread.writeV_wait (v : W32) : (t.writeV i v).wait = t.wait := rfl
@[simp] theorem Thread.writeV_fw (v : W32) : (t.writeV i v).fw = t.fw := rfl
@[simp] theorem Thread.writeV_fwWith (v : W32) : (t.writeV i v).fwWith = t.fwWith := rfl
@[simp] theorem Thread.writeV_alone (v : W32) : (t.writeV i v).alone = t.alone := rfl
@[simp] theorem Thread.writeV_trapSlot (v : W32) : (t.writeV i v).trapSlot = t.trapSlot := rfl
@[simp] theorem Thread.writeV_again (v : W32) : (t.writeV i v).again = t.again := rfl
@[simp] theorem Thread.writeV_trapStamp (v : W32) : (t.writeV i v).trapStamp = t.trapStamp := rfl
@[simp] theorem Thread.writeV_wholeTrap (v : W32) : (t.writeV i v).wholeTrap = t.wholeTrap := rfl
@[simp] theorem Thread.writeV_memTrap (v : W32) : (t.writeV i v).memTrap = t.memTrap := rfl
@[simp] theorem Thread.writeV_stage (v : W32) : (t.writeV i v).stage = t.stage := rfl
@[simp] theorem Thread.writeV_heldSlot (v : W32) : (t.writeV i v).heldSlot = t.heldSlot := rfl
@[simp] theorem Thread.writeV_fscTick (v : W32) : (t.writeV i v).fscTick = t.fscTick := rfl
@[simp] theorem Thread.writeV_fscStamp (v : W32) : (t.writeV i v).fscStamp = t.fscStamp := rfl
@[simp] theorem Thread.writeV_blocked (v : W32) : (t.writeV i v).blocked = t.blocked := rfl
@[simp] theorem Thread.writeV_cont (v : W32) : (t.writeV i v).cont = t.cont := rfl
@[simp] theorem Thread.writeV_contSettle (v : W32) : (t.writeV i v).contSettle = t.contSettle := rfl
@[simp] theorem Thread.writeV_owedNow (v : W32) : (t.writeV i v).owedNow = t.owedNow := rfl

/-- A predicate is written. -/
theorem Thread.writeP_frame (b : Bool) : t.writeP i b = { t with p := (t.writeP i b).p, spoilt := (t.writeP i b).spoilt } := by
  unfold Thread.writeP; split <;> rfl

/-! ### What is read after a change -/

theorem State.wgOf_modWg_ne (f : Workgroup → Workgroup) (h : j ≠ i) : (s.modWg i f).wgOf j = s.wgOf j := by
  simp [State.modWg, State.wgOf, Tab.get, h]
theorem State.wgOf_modWg (f : Workgroup → Workgroup) (h : (Tab.find s.wgs i).isSome) : (s.modWg i f).wgOf i = f (s.wgOf i) := by
  obtain ⟨g, h⟩ := Option.isSome_iff_exists.mp h
  simp [State.modWg, State.wgOf, Tab.get, h]
@[simp] theorem State.coreOf_modCore (f : Core → Core) :
    (s.modCore i f).coreOf j = if j = i then f (s.coreOf i) else s.coreOf j := by
  simp only [State.modCore, State.coreOf, Tab.get_put]
@[simp] theorem State.dieAt_modDie (f : Die → Die) : (s.modDie i f).dieAt j = if j = i then f (s.dieAt i) else s.dieAt j := by
  simp only [State.modDie, State.dieAt, Tab.get_put]
@[simp] theorem State.linkAt_modLink (f : Link → Link) :
    (s.modLink i f).linkAt j = if j = i then f (s.linkAt i) else s.linkAt j := by
  simp only [State.modLink, State.linkAt, Tab.find_put]
  split <;> simp
@[simp] theorem Tab.find_modReq (f : Req → Req) :
    Tab.find (s.modReq i f).reqs j = if j = i then (Tab.find s.reqs j).map f else Tab.find s.reqs j := by
  simp only [State.modReq, Tab.find_modify]
theorem Workgroup.thread_modThread_ne (f : Thread → Thread) (h : j ≠ i) : (g.modThread i f).thread j = g.thread j := by
  simp [Workgroup.modThread, Workgroup.thread, Tab.get, h]
theorem Workgroup.thread_modThread (f : Thread → Thread) (h : (Tab.find g.threads i).isSome) :
    (g.modThread i f).thread i = f (g.thread i) := by
  obtain ⟨u, h⟩ := Option.isSome_iff_exists.mp h
  simp [Workgroup.modThread, Workgroup.thread, Tab.get, h]

end Sys2Proof.Machine
end

