-- ==== Sys2Proof/Laws/Lanes.lean ====
section
/-! SUPPORT. Laws of the shapes of vector instructions: threads changed one after another are threads changed each by
itself, and what `issue`, `laneGroup`, `lanewise` and `crosswise` do with operands that name no channel. -/

namespace Sys2Proof.Machine

/-! ### Threads of a workgroup -/

@[simp] theorem Workgroup.modThread_modThread (g : Workgroup) (t : Nat) (f h : Thread → Thread) :
    (g.modThread t f).modThread t h = g.modThread t fun x => h (f x) := by
  simp only [Workgroup.modThread, Tab.modify, Tab.map_map]
  congr 1; apply Tab.map_congr; intro k v; split <;> rfl

@[simp] theorem Workgroup.modThread_id (g : Workgroup) (t : Nat) : g.modThread t (fun x => x) = g := by
  simp [Workgroup.modThread, Tab.modify, Tab.map_id']

/-- The threads of some lanes, each once, changed one after another. -/
theorem foldl_modThread (ls : List Lane) (u : Lane → Thread → Thread) (g : Workgroup) (h : (ls.map (·.tid)).Nodup) :
    ls.foldl (fun g l => g.modThread l.tid (u l)) g =
      { g with threads := Tab.map (fun tid t =>
          match ls.find? (fun l => l.tid = tid) with | some l => u l t | none => t) g.threads } := by
  induction ls generalizing g with
  | nil => simp [Tab.map_id']
  | cons a rest ih =>
    simp only [List.map_cons, List.nodup_cons] at h
    simp only [List.foldl_cons, ih _ h.2]
    simp only [Workgroup.modThread, Tab.modify, Tab.map_map]
    congr 1
    apply Tab.map_congr
    intro k v
    by_cases hk : k = a.tid
    · subst hk
      have : rest.find? (fun l => decide (l.tid = a.tid)) = none := by
        rw [List.find?_eq_none]; intro l hl; simp only [decide_eq_true_eq]
        intro he; exact h.1 (List.mem_map.2 ⟨l, hl, he⟩)
      simp [this]
    · simp [Ne.symm hk, hk]

/-! ### Results of a lane -/

/-- Values for vector registers and predicates arrive in the thread. -/
theorem Workgroup.arriveAll_eq (g : Workgroup) (tid : Nat) (ws : List Write) (h : ∀ w ∈ ws, ∀ n, w.dest ≠ .s n) :
    g.arriveAll tid ws = g.modThread tid (·.take ws) := by
  induction ws generalizing g with
  | nil => simp [Workgroup.arriveAll, Thread.take]
  | cons w rest ih =>
    have hw := h w List.mem_cons_self
    have ih := fun g => ih g fun w hw => h w (List.mem_cons_of_mem _ hw)
    simp only [Workgroup.arriveAll, List.foldl_cons] at ih ⊢
    rw [ih]
    cases hd : w.dest with
    | v n => simp [Workgroup.arrive, hd, Thread.take]
    | p n => simp [Workgroup.arrive, hd, Thread.take]
    | s n => exact absurd hd (hw n)

theorem regWrites_dest (sg : Sig) (x : Args) (v : W128) (b : Bool) : ∀ w ∈ regWrites sg x v b, ∀ n, w.dest ≠ .s n := by
  intro w hw n
  simp only [regWrites, List.mem_append] at hw
  rcases hw with hw | hw
  · split at hw
    · split at hw
      · simp at hw
      · simp only [wordWrites, List.mem_map] at hw
        obtain ⟨i, -, rfl⟩ := hw; simp
    · simp only [List.mem_singleton] at hw; subst hw; simp
    · simp at hw
  · split at hw
    · simp only [List.mem_singleton] at hw; subst hw; simp
    · simp at hw

theorem zeroWrites_dest (sg : Sig) (x : Args) : ∀ w ∈ zeroWrites sg x, ∀ n, w.dest ≠ .s n := regWrites_dest _ x 0 false

theorem Workgroup.result_eq (g : Workgroup) (c : Cur) (sg : Sig) (x : Args) (tid : Nat) (late : Bool) (o : LaneOut)
    (bank : Option Nat) :
    g.result c sg x tid late o bank = g.modThread tid fun t =>
      if late then t.awaits c (destRegs sg x) (.ready (regWrites sg x o.v o.carry) o.flags) bank
      else (t.take (regWrites sg x o.v o.carry)).raise o.flags := by
  unfold Workgroup.result
  cases late
  · simp only [Bool.false_eq_true, if_false]
    rw [Workgroup.arriveAll_eq _ _ _ (regWrites_dest _ _ _ _), Workgroup.modThread_modThread]
  · rfl

/-! ### Operands without channels -/

section NoChannel
variable {sg : Sig} {x : Args} (h : noChannel sg x)
include h

theorem popsOf_noChannel : popsOf sg x = [] := by simp [popsOf, h _]
theorem pushSlot_noChannel (g : Workgroup) : pushSlot g sg x = none := by simp [pushSlot, h _]
theorem chanPasses_noChannel (n : Nat) (go : List Lane) (g : Workgroup) : chanPasses sg x n go g = g := by
  simp [chanPasses, popsOf_noChannel h, h _]
theorem claim_noChannel (g : Workgroup) (n m : Nat) : g.claim sg x n m = g := by
  simp [Workgroup.claim, popsOf_noChannel h, h _]
theorem chanBad_noChannel (g : Workgroup) (n : Nat) (k : Fld) : chanBad g sg x n k = false := by simp [chanBad, h k]
theorem pushes_noChannel : pushes sg x = false := by simp [pushes, h _]
theorem trapPush_noChannel (g : Workgroup) (c : Cur) (l : Lane) (e : Cause) :
    g.trapPush sg x c l e = g.trapLane c l.tid e := by simp [Workgroup.trapPush, pushes_noChannel h]
theorem formCause_noChannel (g : Workgroup) (op n : Nat) (c : Cur) (l : Lane) :
    formCause g op sg x n c l = formCause g op sg x 0 c l := by
  simp [formCause, chanBad_noChannel h]
theorem fieldSrc_noChannel (src g : Workgroup) (op : Nat) (l : Lane) (n r : Nat) (k : Fld) :
    fieldSrc src g op sg x l n r k = .val (readField op sg x l k) := by simp [fieldSrc, h k]
theorem laneSrc_noChannel (src g : Workgroup) (op : Nat) (l : Lane) (n r : Nat) :
    (laneSrc src g op sg x n r l).ready = true ∧ (laneSrc src g op sg x n r l).input = laneInput g op sg x l ∧
      (laneSrc src g op sg x n r l).tid = l.tid := by
  simp [laneSrc, fieldSrc_noChannel h, DLane.ready, Src.ready, DLane.input, Src.value, laneInput]
theorem laneSrc_rank (src g : Workgroup) (op : Nat) (l : Lane) (n r : Nat) :
    laneSrc src g op sg x n r l = laneSrc src g op sg x 0 0 l := by
  simp [laneSrc, fieldSrc_noChannel h]

/-- The lanes of a vector instruction without channels: `one` is called for each lane that goes on, with the operands of
all of them, and each lane is changed by itself. -/
theorem laneGroup_noChannel (op : Nat) (c : Cur) (ls : List Lane)
    (one : Workgroup → Acc → Bool → Option (Nat × Nat) → List DLane → Lane → DLane → Acc) (src g : Workgroup)
    (out : Lane → LaneOut) (hn : (ls.map (·.tid)).Nodup)
    (hone : ∀ (k : Acc) l, l ∈ ls → l.act = true → formCause g op sg x 0 c l = none → k.fills = [] → k.bank = tableBank g op →
      one g k (isSpecial op) none
        ((ls.filter fun l => l.act && (formCause g op sg x 0 c l).isNone).map (laneSrc src g op sg x 0 0)) l
        (laneSrc src g op sg x 0 0 l) =
        { k with g := k.g.result c sg x l.tid (isSpecial op) (out l) k.bank, pushed := k.pushed + 1 }) :
    laneGroup op sg x c ls one src g =
      { g with threads := Tab.map (fun tid t =>
          match ls.find? (fun l => l.tid = tid) with
          | some l => laneBecomes g op sg x c out l t
          | none => t) g.threads } := by
  rw [← foldl_modThread ls (laneBecomes g op sg x c out) g hn]
  unfold laneGroup
  have hpush : (if Sig.writes sg then pushSlot g sg x else none) = none := by
    split
    · exact pushSlot_noChannel h g
    · rfl
  simp only [formCause_noChannel h g op _ c, trapPush_noChannel h, chanPasses_noChannel h, claim_noChannel h, popsOf_noChannel h, hpush,
    List.isEmpty_nil, Bool.not_true, Bool.or_false]
  generalize hgo : (ls.filter fun l => l.act && (formCause g op sg x 0 c l).isNone) = go
  have hsrcs : (go.zipIdx.map fun p => laneSrc src g op sg x go.length p.2 p.1) = go.map (laneSrc src g op sg x 0 0) := by
    apply List.ext_getElem
    · simp
    · intro i h1 h2; simp [laneSrc_rank h src g op _ go.length]
  rw [hsrcs]
  rw [hgo] at hone
  generalize hF : (fun (k : Acc) (l : Lane) =>
      match formCause g op sg x 0 c l with
      | some e => { k with g := k.g.trapLane c l.tid e }
      | none =>
        if l.act then
          match (go.map (laneSrc src g op sg x 0 0))[k.claimed]? with
          | none => k
          | some y =>
            one g { k with claimed := k.claimed + 1 } (isSpecial op) none (go.map (laneSrc src g op sg x 0 0)) l y
        else if x.z then { k with g := k.g.arriveAll l.tid (zeroWrites sg x) }
        else k) = F
  have key : ∀ (rest done : List Lane) (k : Acc), ls = done ++ rest → k.fills = [] → k.bank = tableBank g op →
      k.claimed = (done.filter fun l => l.act && (formCause g op sg x 0 c l).isNone).length →
      (rest.foldl F k).fills = [] ∧
      (rest.foldl F k).g = rest.foldl (fun g' l => g'.modThread l.tid (laneBecomes g op sg x c out l)) k.g := by
    intro rest
    induction rest with
    | nil => intro done k _ hf _ _; exact ⟨hf, rfl⟩
    | cons l rest ih =>
      intro done k hls hf hact hcl
      have hmem : l ∈ ls := by rw [hls]; simp
      have hls' : ls = (done ++ [l]) ++ rest := by simp [hls]
      have step : ∀ k' : Acc, F k l = k' → k'.fills = [] → k'.bank = k.bank → k'.g = k.g.modThread l.tid (laneBecomes g op sg x c out l) →
          k'.claimed = ((done ++ [l]).filter fun l => l.act && (formCause g op sg x 0 c l).isNone).length →
          ((l :: rest).foldl F k).fills = [] ∧ ((l :: rest).foldl F k).g =
            (l :: rest).foldl (fun g' l => g'.modThread l.tid (laneBecomes g op sg x c out l)) k.g := by
        intro k' hk hf' hb' hg' hc'
        simp only [List.foldl_cons, hk]
        have := ih (done ++ [l]) k' hls' hf' (by rw [hb']; exact hact) hc'
        rw [hg'] at this
        exact this
      subst hF
      cases hcause : formCause g op sg x 0 c l with
      | some e =>
        refine step { k with g := k.g.trapLane c l.tid e } (by simp only [hcause]) hf rfl ?_ (by simp [List.filter_append, hcause, hcl])
        simp only [Workgroup.trapLane]
        congr 1; funext t; simp [laneBecomes, hcause]
      | none =>
        by_cases ha : l.act = true
        · have hidx : (go.map (laneSrc src g op sg x 0 0))[k.claimed]? = some (laneSrc src g op sg x 0 0 l) := by
            have : go = (done.filter fun l => l.act && (formCause g op sg x 0 c l).isNone) ++
                l :: (rest.filter fun l => l.act && (formCause g op sg x 0 c l).isNone) := by
              rw [← hgo, hls]; simp [List.filter_append, hcause, ha]
            rw [this, hcl]; simp
          refine step { k with claimed := k.claimed + 1, g := k.g.result c sg x l.tid (isSpecial op) (out l) k.bank, pushed := k.pushed + 1 }
            (by
              simp only [hcause, ha, if_true, hidx]
              exact hone { k with claimed := k.claimed + 1 } l hmem ha hcause hf hact) hf rfl ?_
            (by simp [List.filter_append, hcause, ha, hcl])
          simp only [Workgroup.result_eq]
          congr 1; funext t; simp [laneBecomes, hcause, ha, hact]
        · have ha : l.act = false := by simpa using ha
          by_cases hz : x.z = true
          · refine step { k with g := k.g.arriveAll l.tid (zeroWrites sg x) } (by simp [hcause, ha, hz]) hf rfl ?_
              (by simp [List.filter_append, ha, hcl])
            simp only [Workgroup.arriveAll_eq _ _ _ (zeroWrites_dest sg x)]
            congr 1; funext t; simp [laneBecomes, hcause, ha, hz]
          · have hz : x.z = false := by simpa using hz
            refine step k (by simp [hcause, ha, hz]) hf rfl ?_ (by simp [List.filter_append, ha, hcl])
            have : (fun t => laneBecomes g op sg x c out l t) = fun t => t := by
              funext t; simp [laneBecomes, hcause, ha, hz]
            rw [show laneBecomes g op sg x c out l = fun t => t from this, Workgroup.modThread_id]
  have hk := key ls [] { g := g, bank := tableBank g op } rfl rfl rfl rfl
  simp only [tableBank] at hk
  rw [hk.1, hk.2]; rfl

end NoChannel

/-! ### Instructions -/

variable {op : Nat} {x : Args} {sg : Sig} {c : Cur} {s : State}

/-- An instruction whose group issues has its effect. -/
theorem issue_eq (h : Issuing op x sg c s) (eff : Sig → Cur → State → State) :
    issue op x s eff = .next (eff sg c s) := by
  unfold issue
  rcases h.clear with hc | hg
  · simp [h.cur, hc, h.form]
  · by_cases hc : c.checked = true <;> simp [h.cur, hc, hg, h.form]

theorem lanesOf_tids (s : State) (c : Cur) (p : Option Pfx) : (lanesOf s c p).map (·.tid) = c.lanes := by
  simp [lanesOf, laneAt, Function.comp_def]

/-- A vector instruction that computes lane by lane, without channels. -/
theorem oneLane_noChannel (hc : noChannel sg x) (fn : Workgroup → LaneIn → LaneOut) (src g : Workgroup) (k : Acc)
    (all : List DLane) (l : Lane) :
    oneLane op sg x c fn g k (isSpecial op) none all l (laneSrc src g op sg x 0 0 l) =
      { k with g := k.g.result c sg x l.tid (isSpecial op) (fn g (laneInput g op sg x l)) k.bank, pushed := k.pushed + 1 } := by
  have := laneSrc_noChannel hc src g op l 0 0
  cases hk : k
  simp only [oneLane, this.1, if_true, Acc.deliver, this.2.1]

theorem lanewiseG_noChannel (h : Issuing op x sg c s) (hc : noChannel sg x) (fn : Workgroup → LaneIn → LaneOut) :
    lanewiseG op fn x s = .next (s.lanesBecome c.wg (lanesOf s c x.ctl.pfx) fun g =>
      laneBecomes g op sg x c fun l => fn g (laneInput g op sg x l)) := by
  unfold lanewiseG
  rw [issue_eq h]
  unfold State.lanesBecome
  congr 2
  funext g
  exact laneGroup_noChannel hc op c _ _ (c.source s) g (fun l => fn g (laneInput g op sg x l))
    (by rw [lanesOf_tids]; exact h.once) fun k l _ _ _ _ _ => oneLane_noChannel hc fn (c.source s) g k _ l

theorem lanewise_noChannel (h : Issuing op x sg c s) (hc : noChannel sg x) (fn : LaneIn → LaneOut) :
    lanewise op fn x s = .next (s.lanesBecome c.wg (lanesOf s c x.ctl.pfx) fun g =>
      laneBecomes g op sg x c fun l => fn (laneInput g op sg x l)) :=
  lanewiseG_noChannel h hc (fun _ => fn)

/-- Lanes under a format word that none of them finds invalid. -/
theorem withFmt_right {src g : Workgroup} {ls : List Lane} {k : Fld} (h : fmtWrong op k sg x c ls src g = false)
    (run : Workgroup → Workgroup) : withFmt op k sg x c ls run src g = run g := by simp [withFmt, h]

/-- Lanes under a format word that one of them finds invalid: every active lane traps. -/
theorem withFmt_wrong {src g : Workgroup} {ls : List Lane} {k : Fld} (h : fmtWrong op k sg x c ls src g = true)
    (hn : (ls.map (·.tid)).Nodup) (run : Workgroup → Workgroup) :
    withFmt op k sg x c ls run src g =
      { g with threads := Tab.map (fun tid t =>
          match ls.find? (fun l => l.tid = tid) with
          | some l =>
            match if l.act then some (illegal c) else formCause g op sg x 0 c l with
            | some e => t.trap c.pc.pkt c.slot e
            | none => t
          | none => t) g.threads } := by
  rw [withFmt, if_pos h, fmtTraps, ← foldl_modThread ls _ g hn]
  congr 1
  funext g' l
  split <;> simp_all [Workgroup.trapLane]

/-- Without channels: when a lane finds the format word invalid. -/
theorem fmtWrong_noChannel (hc : noChannel sg x) (k : Fld) (ls : List Lane) (src g : Workgroup) :
    fmtWrong op k sg x c ls src g = ls.any fun l => l.act && formCause g op sg x 0 c l != some (illegal c) &&
      known sg x l k &&
      (vecFmt? ((readField op sg x l k).setWidth 32)).isNone := by
  simp [fmtWrong, hc k, formCause_noChannel hc]

/-- A change of a workgroup that agrees with another on what stands there. -/
theorem State.modWg_agree (s : State) (w : Nat) (f f' : Workgroup → Workgroup)
    (h : ∀ p ∈ s.wgs, p.1 = w → f p.2 = f' p.2) : s.modWg w f = s.modWg w f' := by
  have : ∀ m : Tab Workgroup, (∀ p ∈ m, p.1 = w → f p.2 = f' p.2) → Tab.modify m w f = Tab.modify m w f' := by
    intro m
    induction m with
    | nil => intro _; rfl
    | cons p m ih =>
      intro hm
      have := ih fun q hq => hm q (List.mem_cons_of_mem _ hq)
      simp only [Tab.modify, Tab.map] at this ⊢
      rw [this]
      by_cases hp : p.1 = w
      · simp [hp, hm p List.mem_cons_self hp]
      · simp [hp]
  simp [State.modWg, this s.wgs h]

/-- An instruction under a format word, without channels, when no lane finds the word invalid. -/
theorem lanewiseFmt_noChannel (h : Issuing op x sg c s) (hc : noChannel sg x) (k : Fld) (fn : LaneIn → LaneOut)
    (hf : fmtWrong op k sg x c (lanesOf s c x.ctl.pfx) (c.source s) (s.wgOf c.wg) = false) :
    lanewiseFmt op k fn x s = .next (s.lanesBecome c.wg (lanesOf s c x.ctl.pfx) fun g =>
      laneBecomes g op sg x c fun l => fn (laneInput g op sg x l)) := by
  rw [← lanewise_noChannel h hc, lanewise, lanewiseG, lanewiseFmt, issue_eq h, issue_eq h]
  congr 1
  refine State.modWg_agree s c.wg _ _ fun p hp hw => ?_
  rw [h.one p hp hw, withFmt_right hf]

/-- The same when a lane finds it invalid: every active lane traps, and nothing else changes. -/
theorem lanewiseFmt_wrong (h : Issuing op x sg c s) (k : Fld) (fn : LaneIn → LaneOut)
    (hf : fmtWrong op k sg x c (lanesOf s c x.ctl.pfx) (c.source s) (s.wgOf c.wg) = true) :
    lanewiseFmt op k fn x s = .next (s.lanesBecome c.wg (lanesOf s c x.ctl.pfx) fun g l t =>
      match if l.act then some (illegal c) else formCause g op sg x 0 c l with
      | some e => t.trap c.pc.pkt c.slot e
      | none => t) := by
  rw [lanewiseFmt, issue_eq h]
  congr 1
  refine State.modWg_agree s c.wg _ _ fun p hp hw => ?_
  rw [h.one p hp hw, withFmt_wrong hf (by rw [lanesOf_tids]; exact h.once)]
  all_goals rfl

end Sys2Proof.Machine
end

