-- ==== Sys2Proof/Laws/Homes.lean ====
section
/-! SUPPORT. Laws of the shapes of scalar instructions and of those executed lane by lane: what `shared`, `perHome`, `perLane`
and `perWarp` do with the threads and the home warps of the group. -/

namespace Sys2Proof.Machine

/-! ### Changing one workgroup -/

@[simp] theorem State.modWg_modWg (s : State) (w : Nat) (f h : Workgroup → Workgroup) :
    (s.modWg w f).modWg w h = s.modWg w fun g => h (f g) := by
  simp only [State.modWg, Tab.modify, Tab.map_map]
  congr 1; apply Tab.map_congr; intro k v; split <;> rfl

theorem State.modWg_id (s : State) (w : Nat) : s.modWg w (fun g => g) = s := by
  simp [State.modWg, Tab.modify, Tab.map_id']

theorem State.modWg_congr (s : State) (w : Nat) (f h : Workgroup → Workgroup) (e : ∀ g, f g = h g) :
    s.modWg w f = s.modWg w h := by
  have : f = h := funext e
  rw [this]

/-! ### Units of lanes -/

/-- What the causes of a unit's lanes do to its threads. -/
def trapUnit (c : Cur) (cause : List Lane → Lane → Option Cause) (u : List Lane) (g : Workgroup) : Workgroup :=
  u.foldl (fun g l => match if l.act then sharedCause (cause (u.filter (·.act))) (u.filter (·.act)) l
      else cause (u.filter (·.act)) l with
    | some k => g.trapLane c l.tid k
    | none => g) g

/-- A unit has its effect: it has an active lane, and none meets a cause. -/
def unitRuns (cause : List Lane → Lane → Option Cause) (u : List Lane) : Bool :=
  !(u.filter (·.act)).isEmpty && ((u.filter (·.act)).findSome? (cause (u.filter (·.act)))).isNone

/-- Units whose causes do not depend on the state, and whose effect is on the workgroup alone. -/
theorem shared_modWg (s : State) (c : Cur) (units : List (List Lane)) (cause : List Lane → Lane → Option Cause)
    (eff : State → List Lane → State) (E : List Lane → Workgroup → Workgroup)
    (he : ∀ s u, unitRuns cause u = true → eff s (u.filter (·.act)) = s.modWg c.wg (E (u.filter (·.act)))) :
    s.shared c units (fun _ => cause) eff = s.modWg c.wg fun g =>
      units.foldl (fun g u => if unitRuns cause u then E (u.filter (·.act)) (trapUnit c cause u g) else trapUnit c cause u g) g := by
  unfold State.shared
  induction units generalizing s with
  | nil => simp [State.modWg_id]
  | cons u rest ih =>
    simp only [List.foldl_cons]
    rw [ih]
    have hf : u.filter (fun _ => false) = [] := by simp
    simp only [hf, if_true]
    change State.modWg (if u.filter (·.act) = [] ∨ ((u.filter (·.act)).findSome? (cause (u.filter (·.act)))).isSome = true
      then s.modWg c.wg (trapUnit c cause u) else eff (s.modWg c.wg (trapUnit c cause u)) (u.filter (·.act))) c.wg _ = _
    by_cases hr : unitRuns cause u = true
    · have hn : ¬(u.filter (·.act) = [] ∨ ((u.filter (·.act)).findSome? (cause (u.filter (·.act)))).isSome = true) := by
        simp only [unitRuns, Bool.and_eq_true, Bool.not_eq_true', List.isEmpty_eq_false_iff, Option.isNone_iff_eq_none] at hr
        rintro (h | h)
        · exact hr.1 h
        · rw [hr.2] at h; simp at h
      rw [if_neg hn, he _ _ hr]
      simp only [State.modWg_modWg, hr, if_true]
    · have hn : (u.filter (·.act) = [] ∨ ((u.filter (·.act)).findSome? (cause (u.filter (·.act)))).isSome = true) := by
        simp only [unitRuns, Bool.and_eq_true, Bool.not_eq_true', List.isEmpty_eq_false_iff, Option.isNone_iff_eq_none, not_and] at hr
        by_cases h : u.filter (·.act) = []
        · exact .inl h
        · right; have := hr h; cases h' : List.findSome? (cause (u.filter (·.act))) (u.filter (·.act))
          · exact absurd h' this
          · rfl
      rw [if_pos hn]
      simp only [State.modWg_modWg, hr]
      rfl

/-! ### The threads and the home warps of a workgroup changed apart -/

/-- The threads and home warps of a workgroup, changed by functions of themselves. -/
def Workgroup.both (g : Workgroup) (T : Tab Thread → Tab Thread) (H : Tab HWarp → Tab HWarp) : Workgroup :=
  { g with threads := T g.threads, hwarps := H g.hwarps }

theorem foldl_both {α : Type} (l : List α) (T : α → Tab Thread → Tab Thread) (H : α → Tab HWarp → Tab HWarp) (g : Workgroup) :
    l.foldl (fun g a => g.both (T a) (H a)) g =
      g.both (fun m => l.foldl (fun m a => T a m) m) (fun m => l.foldl (fun m a => H a m) m) := by
  induction l generalizing g with
  | nil => rfl
  | cons a rest ih => simp only [List.foldl_cons, ih]; rfl

/-- What the cause of a lane does to its thread. -/
def causeTrap (c : Cur) (k : Option Cause) (t : Thread) : Thread :=
  match k with
  | some k => t.trap c.pc.pkt c.slot k
  | none => t

/-- The cause of a lane of a unit. -/
def unitCause (cause : List Lane → Lane → Option Cause) (u : List Lane) (l : Lane) : Option Cause :=
  if l.act then sharedCause (cause (u.filter (·.act))) (u.filter (·.act)) l else cause (u.filter (·.act)) l

theorem Tab.modify_id (m : Tab Thread) (k : Nat) : Tab.modify m k (fun t => t) = m := by
  simp [Tab.modify, Tab.map_id']

theorem foldl_congr' {α β : Type} (l : List α) (f h : β → α → β) (b : β) (e : ∀ b, ∀ a ∈ l, f b a = h b a) :
    l.foldl f b = l.foldl h b := by
  induction l generalizing b with
  | nil => rfl
  | cons a rest ih =>
    simp only [List.foldl_cons]
    rw [e b a (by simp), ih _ fun b a ha => e b a (by simp [ha])]

/-- The threads of some lanes, each once, changed one after another in the table. -/
theorem foldl_modify (ls : List Lane) (u : Lane → Thread → Thread) (m : Tab Thread) (h : (ls.map (·.tid)).Nodup) :
    ls.foldl (fun m l => Tab.modify m l.tid (u l)) m =
      Tab.map (fun tid t => match ls.find? (fun l => l.tid = tid) with | some l => u l t | none => t) m := by
  have := foldl_modThread ls u { ({} : Workgroup) with threads := m } h
  have key : ∀ (ls : List Lane) (g : Workgroup),
      (ls.foldl (fun g l => g.modThread l.tid (u l)) g).threads = ls.foldl (fun m l => Tab.modify m l.tid (u l)) g.threads := by
    intro ls
    induction ls with
    | nil => intro g; rfl
    | cons a rest ih => intro g; simp only [List.foldl_cons, ih]; rfl
  have := congrArg Workgroup.threads this
  rw [key] at this
  exact this

/-- The order of lanes, each with a thread of its own, does not matter. -/
theorem find_perm (ls ms : List Lane) (hn : (ls.map (·.tid)).Nodup) (hp : ∀ l, l ∈ ls ↔ l ∈ ms) (tid : Nat) :
    ls.find? (fun l => l.tid = tid) = ms.find? (fun l => l.tid = tid) := by
  have uniq : ∀ a ∈ ls, ∀ b ∈ ls, a.tid = b.tid → a = b := by
    intro a ha b hb hab
    exact List.inj_on_of_nodup_map hn ha hb hab
  cases h1 : ls.find? (fun l => l.tid = tid) with
  | none =>
    rw [List.find?_eq_none] at h1
    rw [eq_comm, List.find?_eq_none]
    intro l hl; exact h1 l ((hp l).2 hl)
  | some a =>
    have ha := List.mem_of_find?_eq_some h1
    have hat := List.find?_some h1
    cases h2 : ms.find? (fun l => l.tid = tid) with
    | none =>
      rw [List.find?_eq_none] at h2
      exact absurd hat (h2 a ((hp a).1 ha))
    | some b =>
      have hb := (hp b).2 (List.mem_of_find?_eq_some h2)
      have hbt := List.find?_some h2
      simp only [decide_eq_true_eq] at hat hbt
      rw [uniq a ha b hb (by rw [hat, hbt])]

/-! ### The home warps of a group -/

variable {op : Nat} {x : Args} {sg : Sig} {c : Cur} {s : State}

theorem mem_homesOf (ls : List Lane) (h : Nat) : h ∈ homesOf ls ↔ h < 128 ∧ ∃ l ∈ ls, l.hw = h := by
  simp [homesOf]

theorem homesOf_nodup (ls : List Lane) : (homesOf ls).Nodup := List.nodup_range.filter _

/-- The lanes by home warp are the lanes. -/
theorem byHome_flatten (ls : List Lane) (hl : ∀ l ∈ ls, l.hw < 128) (l : Lane) : l ∈ (byHome ls).flatten ↔ l ∈ ls := by
  simp only [byHome, List.mem_flatten, List.mem_map, mem_homesOf]
  constructor
  · rintro ⟨_, ⟨h, _, rfl⟩, hm⟩; exact (List.mem_filter.1 hm).1
  · intro hm
    exact ⟨_, ⟨l.hw, ⟨hl l hm, l, hm, rfl⟩, rfl⟩, List.mem_filter.2 ⟨hm, by simp⟩⟩

theorem byHome_nodup (ls : List Lane) (hn : (ls.map (·.tid)).Nodup) : ((byHome ls).flatten.map (·.tid)).Nodup := by
  unfold byHome
  have hh := homesOf_nodup ls
  generalize homesOf ls = hs at hh
  have inj : ∀ a ∈ ls, ∀ b ∈ ls, a.tid = b.tid → a = b := fun a ha b hb hab => List.inj_on_of_nodup_map hn ha hb hab
  induction hs with
  | nil => simp
  | cons h rest ih =>
    rw [List.nodup_cons] at hh
    simp only [List.map_cons, List.flatten_cons, List.map_append]
    rw [List.nodup_append]
    refine ⟨?_, ih hh.2, ?_⟩
    · exact hn.sublist (List.filter_sublist.map _)
    · intro a ha b hb hab
      simp only [List.mem_map, List.mem_filter, decide_eq_true_eq] at ha
      obtain ⟨l, ⟨hl, hlh⟩, rfl⟩ := ha
      simp only [List.mem_map, List.mem_flatten] at hb
      obtain ⟨m, ⟨_, ⟨h', hh', rfl⟩, hm⟩, rfl⟩ := hb
      simp only [List.mem_filter, decide_eq_true_eq] at hm
      have := inj l hl m hm.1 hab
      subst this
      exact hh.1 (by rw [← hlh, hm.2]; exact hh')

/-- The lanes of the group by home warp. -/
theorem lanesOf_hw (h : Issuing op x sg c s) (p : Option Pfx) : ∀ l ∈ lanesOf s c p, l.hw < 128 := by
  intro l hl
  simp only [lanesOf, List.mem_map] at hl
  obtain ⟨t, ht, rfl⟩ := hl
  exact h.homes (laneAt (c.source s) none t) (List.mem_map.2 ⟨t, ht, rfl⟩)

theorem filter_home_act (s : State) (c : Cur) (x : Args) (h : Nat) :
    ((lanesOf s c x.ctl.pfx).filter (·.hw = h)).filter (·.act) = homeActives s c x h := by
  simp only [homeActives, actives, List.filter_filter]
  congr 1; funext l; exact Bool.and_comm _ _

theorem unitCause_home (s : State) (l : Lane) (h : Nat) (hl : l.hw = h) :
    unitCause (fun _ => formCause (c.source s) op sg x 0 c) ((lanesOf s c x.ctl.pfx).filter (·.hw = h)) l =
      homeCause s op sg x c l := by
  subst hl
  simp only [unitCause, homeCause, filter_home_act]

/-! ### A result for each home warp -/

/-- Units of one home warp each: a unit's home warp and the threads of its lanes change, the threads by themselves. -/
theorem units_both (hs : List Nat) (lanes : Nat → List Lane) (T : Lane → Thread → Thread) (R : Nat → Option (HWarp → HWarp))
    (step : Workgroup → Nat → Workgroup)
    (hstep : ∀ g h, h ∈ hs → step g h = g.both (fun m => (lanes h).foldl (fun m l => Tab.modify m l.tid (T l)) m)
      (fun m => match R h with | some f => Tab.put m h (f (Tab.get {} m h)) | none => m)) (g : Workgroup) :
    hs.foldl step g =
      g.both (fun m => (hs.flatMap lanes).foldl (fun m l => Tab.modify m l.tid (T l)) m)
        (fun m => hs.foldl (fun m h => match R h with | some f => Tab.put m h (f (Tab.get {} m h)) | none => m) m) := by
  rw [foldl_congr' hs step _ g fun b a ha => hstep b a ha, foldl_both]
  congr 1
  funext m
  rw [List.foldl_flatMap]

theorem get_foldl_put (hs : List Nat) (hn : hs.Nodup) (R : Nat → Option (HWarp → HWarp)) (m : Tab HWarp) (h : Nat) :
    Tab.get {} (hs.foldl (fun m h => match R h with | some f => Tab.put m h (f (Tab.get {} m h)) | none => m) m) h =
      if h ∈ hs then (match R h with | some f => f (Tab.get {} m h) | none => Tab.get {} m h) else Tab.get {} m h := by
  induction hs generalizing m with
  | nil => simp
  | cons a rest ih =>
    rw [List.nodup_cons] at hn
    simp only [List.foldl_cons, ih hn.2]
    by_cases ha : h = a
    · subst ha
      simp only [hn.1, if_false, List.mem_cons, true_or, if_true]
      cases R h <;> simp
    · have : Tab.get {} (match R a with | some f => Tab.put m a (f (Tab.get {} m a)) | none => m) h = Tab.get {} m h := by
        cases R a <;> simp [ha]
      simp only [List.mem_cons, ha, false_or, this]

/-- A unit's traps are changes of its threads. -/
theorem trapUnit_eq (c : Cur) (cause : List Lane → Lane → Option Cause) (u : List Lane) (g : Workgroup) :
    trapUnit c cause u g =
      g.both (fun m => u.foldl (fun m l => Tab.modify m l.tid (causeTrap c (unitCause cause u l))) m) (fun m => m) := by
  unfold trapUnit
  rw [foldl_congr' u _ (fun g l => g.both (fun m => Tab.modify m l.tid (causeTrap c (unitCause cause u l))) (fun m => m)) g]
  · rw [foldl_both]; congr 1; funext m; exact List.foldl_const_id ..
  · intro g l _
    simp only [unitCause]
    split
    · rename_i k hk
      simp only [hk]
      rfl
    · rename_i hk
      simp only [hk]
      have : causeTrap c none = fun t => t := rfl
      simp [this, Tab.modify_id, Workgroup.both]
where
  List.foldl_const_id {α β : Type} (l : List α) (b : β) : l.foldl (fun m _ => m) b = b := by
    induction l <;> simp_all

/-- A home warp with an active lane, none of which meets a cause. -/
def homeRuns (s : State) (op : Nat) (sg : Sig) (x : Args) (c : Cur) (h : Nat) : Bool :=
  (homeActives s c x h).all fun l => (formCause (c.source s) op sg x 0 c l).isNone

theorem unitRuns_home (s : State) (h : Nat) :
    unitRuns (fun _ => formCause (c.source s) op sg x 0 c) ((lanesOf s c x.ctl.pfx).filter (·.hw = h)) =
      ((lowest s c x h).isSome && homeRuns s op sg x c h) := by
  have hl : lowest s c x h = (homeActives s c x h).head? := by
    simp [lowest, homeActives, List.head?_filter]
  simp only [unitRuns, filter_home_act, hl, homeRuns]
  cases hA : homeActives s c x h with
  | nil => simp
  | cons a rest =>
    simp only [List.isEmpty_cons, Bool.not_false, Bool.true_and, List.head?_cons, Option.isSome_some]
    rw [Bool.eq_iff_iff]
    simp [Option.isNone_iff_eq_none, List.findSome?_eq_none_iff]

/-- A scalar instruction: the result of each home warp with an active lane whose lanes meet no cause, and the traps of the
others (R47, R79, R341). -/
theorem scalarResult_eq (h : Issuing op x sg c s) (f : Sig → Lane → W64) :
    ∃ t, scalarResult op f x s = .next t ∧
      HomesBecome s t c.wg (lanesOf s c x.ctl.pfx)
        (fun k w => match lowest s c x k with
          | some l => if homeRuns s op sg x c k then w.writeS x.d.toNat (f sg l) else w
          | none => w)
        (homeTrap s op sg x c) := by
  unfold scalarResult perHome
  rw [issue_eq h]
  refine ⟨_, rfl, ?_⟩
  have hcause : ∀ (s' : State) (act : List Lane) (l : Lane),
      scalarCause (c.source s) op sg x c (noCause s' c sg) act l (noIll.at_ s' c sg x l) =
        formCause (c.source s) op sg x 0 c l := by
    intro s' act l
    simp only [scalarCause, noCause, noIll, Ill.at_, Bool.and_false, Bool.false_eq_true, if_false]
    split
    · rename_i hk; exact hk.symm
    · rename_i hk; simp [hk]
  have howed : ∀ (k : Option Cause) (l : Lane), orOwed false k l = k := by intro k l; cases k <;> simp [orOwed]
  simp only [hcause, howed, Bool.false_and]
  rw [shared_modWg s c _ (fun _ => formCause (c.source s) op sg x 0 c) _
    (fun act g => match act with | [] => g | l :: _ => g.modHw l.hw (·.writeS x.d.toNat (f sg l)))
    (by
      intro s u hu
      cases hA : u.filter (·.act) with
      | nil => simp [State.modWg_id]
      | cons a rest => rfl)]
  generalize hR : (fun k => match lowest s c x k with
      | some l => if homeRuns s op sg x c k then some (fun w : HWarp => w.writeS x.d.toNat (f sg l)) else none
      | none => none) = R
  refine ⟨fun m => (homesOf (lanesOf s c x.ctl.pfx)).foldl
    (fun m h => match R h with | some f => Tab.put m h (f (Tab.get {} m h)) | none => m) m, ?_, ?_⟩
  · intro m k
    rw [get_foldl_put _ (homesOf_nodup _)]
    subst hR
    by_cases hk : k ∈ homesOf (lanesOf s c x.ctl.pfx)
    · simp only [hk, if_true]
      cases lowest s c x k with
      | none => rfl
      | some l => by_cases hr : homeRuns s op sg x c k = true <;> simp [hr]
    · simp only [hk, if_false]
      have : lowest s c x k = none := by
        cases hl : lowest s c x k with
        | none => rfl
        | some l =>
          exfalso; apply hk
          have hm := List.mem_of_find?_eq_some hl
          have hw := List.find?_some hl
          simp only [decide_eq_true_eq] at hw
          have hm' := (List.mem_filter.1 hm).1
          exact (mem_homesOf _ _).2 ⟨by rw [← hw]; exact lanesOf_hw h _ l hm', l, hm', hw⟩
      simp [this]
  · unfold State.lanesBecome
    rw [State.modWg_modWg]
    apply State.modWg_congr
    intro g
    rw [byHome, List.foldl_map]
    rw [units_both (homesOf (lanesOf s c x.ctl.pfx)) (fun h => (lanesOf s c x.ctl.pfx).filter (·.hw = h))
      (fun l => homeTrap s op sg x c l) R]
    · simp only [Workgroup.both]
      congr 1
      have hfl : (homesOf (lanesOf s c x.ctl.pfx)).flatMap (fun h => (lanesOf s c x.ctl.pfx).filter (·.hw = h)) =
          (byHome (lanesOf s c x.ctl.pfx)).flatten := by simp [byHome, List.flatMap_def]
      rw [hfl, foldl_modify _ _ _ (byHome_nodup _ (by rw [lanesOf_tids]; exact h.once))]
      apply Tab.map_congr
      intro tid t
      rw [find_perm _ (lanesOf s c x.ctl.pfx) (byHome_nodup _ (by rw [lanesOf_tids]; exact h.once))
        (byHome_flatten _ (lanesOf_hw h _))]
      all_goals (cases List.find? (fun l => decide (l.tid = tid)) (lanesOf s c x.ctl.pfx) <;> rfl)
    · intro g k hk
      have htrap := trapUnit_eq c (fun _ => formCause (c.source s) op sg x 0 c) ((lanesOf s c x.ctl.pfx).filter (·.hw = k)) g
      have hT : (fun m : Tab Thread => ((lanesOf s c x.ctl.pfx).filter (·.hw = k)).foldl (fun m l => Tab.modify m l.tid
            (causeTrap c (unitCause (fun _ => formCause (c.source s) op sg x 0 c) ((lanesOf s c x.ctl.pfx).filter (·.hw = k)) l))) m) =
          fun m => ((lanesOf s c x.ctl.pfx).filter (·.hw = k)).foldl (fun m l => Tab.modify m l.tid (homeTrap s op sg x c l)) m := by
        funext m
        apply foldl_congr'
        intro m l hl
        have hlh : l.hw = k := by simpa using (List.mem_filter.1 hl).2
        rw [unitCause_home s l k hlh]
        rfl
      rw [hT] at htrap
      rw [htrap, unitRuns_home, filter_home_act]
      subst hR
      have hl : lowest s c x k = (homeActives s c x k).head? := by simp [lowest, homeActives, List.head?_filter]
      cases hA : homeActives s c x k with
      | nil => simp [hl, hA, Workgroup.both]
      | cons a rest =>
        have hak : a.hw = k := by
          have : a ∈ homeActives s c x k := by rw [hA]; simp
          simpa [homeActives] using (List.mem_filter.1 this).2
        simp only [hl, hA, List.head?_cons, Option.isSome_some, Bool.true_and]
        by_cases hr : homeRuns s op sg x c k = true
        · simp only [hr, if_true, hak]; rfl
        · simp only [hr]; rfl

end Sys2Proof.Machine
end

