-- ==== Sys2Proof/Laws/Memory.lean ====
section
/-! SUPPORT. Laws of memory: what a read of a byte gives after a write, and that every operation that writes memory keeps
its canonical form. -/

namespace Sys2Proof.Machine

/-! ### Bytes written one after another -/

theorem Memory.wf_writes (pa : Nat) (bs : List Byte) (m : Tab Byte) (h : Memory.wf m = true) :
    Memory.wf (bs.zipIdx.foldl (fun t p => Tab.set 0 t (pa + p.2) p.1) m) = true :=
  Tab.wf_foldl 0 _ (fun t (p : Byte × Nat) => Tab.wf_set 0 t (pa + p.2) p.1) _ m h

theorem Memory.get_writesFrom (pa a : Nat) (bs : List Byte) (n : Nat) (m : Tab Byte) :
    Tab.get 0 ((bs.zipIdx n).foldl (fun t p => Tab.set 0 t (pa + p.2) p.1) m) a =
      if pa + n ≤ a ∧ a < pa + n + bs.length then bs.getD (a - (pa + n)) 0 else Tab.get 0 m a := by
  induction bs generalizing n m with
  | nil => simp
  | cons b bs ih =>
    simp only [List.zipIdx_cons, List.foldl_cons, ih, Tab.get_set, List.length_cons]
    by_cases h : a = pa + n
    · subst h; simp
    · by_cases h2 : pa + (n + 1) ≤ a ∧ a < pa + (n + 1) + bs.length
      · obtain ⟨k, hk⟩ : ∃ k, a - (pa + n) = k + 1 := ⟨a - (pa + n) - 1, by omega⟩
        have : a - (pa + (n + 1)) = k := by omega
        rw [if_pos h2, if_pos (by omega), hk, this, List.getD_cons_succ]
      · rw [if_neg h2, if_neg h, if_neg (by omega)]

/-- A read after a write: the bytes written there, and every other byte as before. -/
theorem Memory.get_writes (pa a : Nat) (bs : List Byte) (m : Tab Byte) :
    Tab.get 0 (bs.zipIdx.foldl (fun t p => Tab.set 0 t (pa + p.2) p.1) m) a =
      if pa ≤ a ∧ a < pa + bs.length then bs.getD (a - pa) 0 else Tab.get 0 m a := by
  simpa using Memory.get_writesFrom pa a bs 0 m

theorem State.applyNow_wf (s : State) (pa : Nat) (bs : List Byte) (h : Memory.wf s.mem = true) :
    Memory.wf (s.applyNow pa bs).mem = true := Memory.wf_writes pa bs s.mem h

theorem State.applyNow_get (s : State) (pa a : Nat) (bs : List Byte) :
    Tab.get 0 (s.applyNow pa bs).mem a = if pa ≤ a ∧ a < pa + bs.length then bs.getD (a - pa) 0 else Tab.get 0 s.mem a :=
  Memory.get_writes pa a bs s.mem

theorem placeBytes_wf (m : Tab Byte) (pa : Nat) (bs : List Byte) (h : Memory.wf m = true) :
    Memory.wf (placeBytes m pa bs) = true := Memory.wf_writes pa bs m h

/-- Setting A and D. -/
theorem State.setAD_wf (s : State) (entries : List Nat) (write : Bool) (h : Memory.wf s.mem = true) :
    Memory.wf (s.setAD entries write).mem = true := by
  have keep : ∀ (l : List Nat) (s : State), Memory.wf s.mem = true →
      Memory.wf (l.foldl (fun s ea => s.applyNow ea (bytesOfNat (s.natAt ea 8 ||| 0x80) 8)) s).mem = true := by
    intro l
    induction l with
    | nil => exact fun _ h => h
    | cons a l ih => exact fun s h => ih _ (State.applyNow_wf s _ _ h)
  cases entries with
  | nil => exact h
  | cons leaf rest => exact keep rest _ (State.applyNow_wf s _ _ h)

/-! ### Writes at their home -/

theorem State.settleCopies_mem (s : State) (die : Nat) (rs : List Nat) : (s.settleCopies die rs).mem = s.mem := by
  unfold State.settleCopies; rfl

theorem State.homeRegion_mem (s : State) (pa die : Nat) (huge : Bool) : (s.homeRegion pa die huge).mem = s.mem := by
  have keep : ∀ (d : Nat) (rs : List Nat) (s : State), (rs.foldl (fun s r =>
      let (f, s) := s.freeFrame d
      { s with homes := Tab.put s.homes r (.die d f) }) s).mem = s.mem := by
    intro d rs
    induction rs with
    | nil => exact fun _ => rfl
    | cons r rs ih => exact fun s => (ih _).trans rfl
  unfold State.homeRegion
  extract_lets r rs d s'
  have h : s'.mem = s.mem := keep d rs s
  split
  · exact h
  · rw [State.settleCopies_mem, h]

theorem State.cancelFills_mem (s : State) (sector : Nat) (who : Nat → Bool) : (s.cancelFills sector who).mem = s.mem := rfl

theorem State.sendUpds_mem (l : List Nat) (id sec : Nat) (data : BitVec 512) (m : BitVec 64) (s : State) :
    (l.foldl (fun s c => { s with
      upds := Tab.put s.upds s.nextReq { req := id, core := c, sector := sec, data, mask := m }
      nextReq := s.nextReq + 1 }) s).mem = s.mem := by
  induction l generalizing s with
  | nil => rfl
  | cons a l ih => exact ih _

/-- The memory a write leaves. -/
theorem State.applyWrite_mem (s : State) (id : Nat) (r : Req) (data : BitVec 512) (m : BitVec 64) :
    (s.applyWrite id r data m).mem = (List.range 64).foldl (fun t i =>
      if m.getLsbD i then Tab.set 0 t (sectorOf r.pa * 64 + i) (dataByte data i) else t) s.mem := by
  simp only [State.applyWrite, State.sendUpds_mem]
  split <;> split <;> split <;> simp [State.dropCopies, State.maskUpds, State.cancelFills_mem, State.homeRegion_mem]

theorem State.applyWrite_wf (s : State) (id : Nat) (r : Req) (data : BitVec 512) (m : BitVec 64) (h : Memory.wf s.mem = true) :
    Memory.wf (s.applyWrite id r data m).mem = true := by
  rw [State.applyWrite_mem]
  refine Tab.wf_foldl 0 _ (fun t i ht => ?_) _ s.mem h
  split
  · exact Tab.wf_set 0 t _ _ ht
  · exact ht

theorem State.writeAtHome_wf (s : State) (die pa : Nat) (bs : List Byte) (h : Memory.wf s.mem = true) :
    Memory.wf (s.writeAtHome die pa bs).mem = true := by
  refine State.applyNow_wf _ _ _ ?_
  split
  · rw [State.homeRegion_mem]; exact h
  · exact h

/-! ### The whole device -/

theorem State.afterReset_wf (s : State) (h : Memory.wf s.mem = true) : Memory.wf s.afterReset.mem = true :=
  Tab.wf_filter 0 s.mem _ h

theorem State.renumber_wf (s : State) (n : Nat) (h : Memory.wf s.mem = true) : Memory.wf (s.renumber n).mem = true := by
  have moved : ∀ (l m : Tab Byte), (∀ p ∈ l, p.2 ≠ 0) → Memory.wf m = true →
      Memory.wf (l.foldl (fun m p => Tab.put m p.1 p.2) m) = true := by
    intro l
    induction l with
    | nil => exact fun _ _ h => h
    | cons p l ih =>
      exact fun m hl hm => ih _ (fun q hq => hl q (List.mem_cons_of_mem _ hq)) (Tab.wf_put 0 m _ _ (hl p List.mem_cons_self) hm)
  refine moved _ _ (fun p hp => ?_) (Tab.wf_filter 0 s.mem _ h)
  simp only [List.mem_filterMap] at hp
  obtain ⟨q, hq, hp⟩ := hp
  split at hp
  · cases hp; exact ((Tab.wf_iff 0 s.mem).mp h).2 q hq
  · cases hp

theorem State.withFetchWord_wf (s : State) (nbits w : Nat) (h : Memory.wf s.mem = true) :
    Memory.wf (s.withFetchWord nbits w).mem = true :=
  placeBytes_wf _ _ _ (placeBytes_wf _ _ _ (Tab.wf_foldl 0 _ (fun m _ hm => placeBytes_wf m _ _ hm) _ _ h))

theorem State.reset_wf : Memory.wf State.reset.mem = true := rfl

end Sys2Proof.Machine
end

