-- ==== Sys2Proof/Laws/PerInstr.lean ====
section
/-! SUPPORT. Of every constructor of `Instr`: the map of R39 gives the instruction of its opcode for its own fields, if they are
well-formed (the family `Decoded` of LAWS.json). -/

namespace Sys2Proof.Laws

theorem field_zero (fld : BitVec 7) (dest bs) : FK.ok .zero fld dest bs = true → fld = 0 := by simp [FK.ok]

/-- What the well-formedness of an instruction says of its fields. -/
theorem wfArgs_cases {op : Nat} {x : Args} {g : Sig} (h : wfArgs op x = true) (e : sigOf op x = some g) :
    g.d.ok x.d g.dRole.isDst false = true ∧ g.a.ok x.a false false = true ∧
    g.b.ok x.b false ((x.ctl.pfx.map (·.bs)).getD false) = true ∧ joinWf op x = true := by
  simp only [wfArgs, e, Sig.wf, Bool.and_eq_true] at h
  grind

theorem qual_bits (f : BitVec 7) (bs : Bool) :
    (FK.ok (.qual .ld) f false bs = true → f &&& 0x60 = 0) ∧ (FK.ok (.qual .st) f false bs = true → f &&& 0x70 = 0) ∧
    (FK.ok (.qual .fence) f false bs = true → f &&& 0x70 = 0) ∧ (FK.ok .bar f false bs = true → f &&& 0x60 = 0) ∧
    (FK.ok .drain f false bs = true → f &&& 0x60 = 0) := by
  revert f bs; decide
theorem drain_bits (f : BitVec 7) (bs : Bool) :
    FK.ok .drain f false bs = true → bitsNat f 4 2 = 0 → f &&& 0x7c = 0 := by revert f bs; decide

namespace Decoded

/-- The map of R39 gives the instruction back from its opcode and its fields. -/
def Statement (i : Instr) : Prop := ∀ x w, i.args? = some x → i.wf = true → ofOp i.op w x = some i
theorem none_args (i : Instr) (h : i.args? = none) : Statement i := fun _ _ e => absurd (h.symm.trans e) (by simp)

theorem nop : Statement .nop := none_args _ rfl
theorem sadd (y) : Statement (.sadd y) := by
  intro x w h _; cases h; exact (rfl : ofOp 0x001 w y = _)
theorem ssub (y) : Statement (.ssub y) := by
  intro x w h _; cases h; exact (rfl : ofOp 0x002 w y = _)
theorem smul (y) : Statement (.smul y) := by
  intro x w h _; cases h; exact (rfl : ofOp 0x003 w y = _)
theorem smulhS64 (y) : Statement (.smulhS64 y) := by
  intro x w h _; cases h; exact (rfl : ofOp 0x004 w y = _)
theorem smulhN64 (y) : Statement (.smulhN64 y) := by
  intro x w h _; cases h; exact (rfl : ofOp 0x005 w y = _)
theorem sdivS64 (y) : Statement (.sdivS64 y) := by
  intro x w h _; cases h; exact (rfl : ofOp 0x006 w y = _)
theorem sdivN64 (y) : Statement (.sdivN64 y) := by
  intro x w h _; cases h; exact (rfl : ofOp 0x007 w y = _)
theorem sremS64 (y) : Statement (.sremS64 y) := by
  intro x w h _; cases h; exact (rfl : ofOp 0x008 w y = _)
theorem sremN64 (y) : Statement (.sremN64 y) := by
  intro x w h _; cases h; exact (rfl : ofOp 0x009 w y = _)
theorem sand (y) : Statement (.sand y) := by
  intro x w h _; cases h; exact (rfl : ofOp 0x00A w y = _)
theorem sor (y) : Statement (.sor y) := by
  intro x w h _; cases h; exact (rfl : ofOp 0x00B w y = _)
theorem sxor (y) : Statement (.sxor y) := by
  intro x w h _; cases h; exact (rfl : ofOp 0x00C w y = _)
theorem sshl (y) : Statement (.sshl y) := by
  intro x w h _; cases h; exact (rfl : ofOp 0x00D w y = _)
theorem sshr (y) : Statement (.sshr y) := by
  intro x w h _; cases h; exact (rfl : ofOp 0x00E w y = _)
theorem ssra (y) : Statement (.ssra y) := by
  intro x w h _; cases h; exact (rfl : ofOp 0x00F w y = _)
theorem sminS64 (y) : Statement (.sminS64 y) := by
  intro x w h _; cases h; exact (rfl : ofOp 0x010 w y = _)
theorem sminN64 (y) : Statement (.sminN64 y) := by
  intro x w h _; cases h; exact (rfl : ofOp 0x011 w y = _)
theorem smaxS64 (y) : Statement (.smaxS64 y) := by
  intro x w h _; cases h; exact (rfl : ofOp 0x012 w y = _)
theorem smaxN64 (y) : Statement (.smaxN64 y) := by
  intro x w h _; cases h; exact (rfl : ofOp 0x013 w y = _)
theorem smov (y) : Statement (.smov y) := by
  intro x w h k; cases h
  have k : (wfArgs 0x014 y && (Instr.selects (.smov y))) = true := k
  rw [Bool.and_eq_true] at k
  obtain ⟨d, a, b, j⟩ := wfArgs_cases k.1 rfl
  have a := field_zero _ _ _ a
  show ofOp 0x014 w y = _; exact if_pos a
theorem ssel (y) : Statement (.ssel y) := by
  intro x w h _; cases h; exact (rfl : ofOp 0x015 w y = _)
theorem rdsr (y) : Statement (.rdsr y) := by
  intro x w h k; cases h
  have k : (wfArgs 0x016 y && (Instr.selects (.rdsr y))) = true := k
  rw [Bool.and_eq_true] at k
  obtain ⟨d, a, b, j⟩ := wfArgs_cases k.1 rfl
  have b := field_zero _ _ _ b
  show ofOp 0x016 w y = _; exact if_pos b
theorem wrsr (y) : Statement (.wrsr y) := by
  intro x w h k; cases h
  have k : (wfArgs 0x017 y && (Instr.selects (.wrsr y))) = true := k
  rw [Bool.and_eq_true] at k
  obtain ⟨d, a, b, j⟩ := wfArgs_cases k.1 rfl
  have b := field_zero _ _ _ b
  show ofOp 0x017 w y = _; exact if_pos b
theorem sldk (y) : Statement (.sldk y) := by
  intro x w h _; cases h; exact (rfl : ofOp 0x018 w y = _)
theorem smovV (y) : Statement (.smovV y) := by
  intro x w h k; cases h
  have k : (wfArgs 0x019 y && (Instr.selects (.smovV y))) = true := k
  rw [Bool.and_eq_true] at k
  obtain ⟨d, a, b, j⟩ := wfArgs_cases k.1 rfl
  have b := field_zero _ _ _ b
  show ofOp 0x019 w y = _; exact if_pos b
theorem saddI (y) : Statement (.saddI y) := by
  intro x w h _; cases h; exact (rfl : ofOp 0x01A w y = _)
theorem sandI (y) : Statement (.sandI y) := by
  intro x w h _; cases h; exact (rfl : ofOp 0x01B w y = _)
theorem sorI (y) : Statement (.sorI y) := by
  intro x w h _; cases h; exact (rfl : ofOp 0x01C w y = _)
theorem sxorI (y) : Statement (.sxorI y) := by
  intro x w h _; cases h; exact (rfl : ofOp 0x01D w y = _)
theorem sshlI (y) : Statement (.sshlI y) := by
  intro x w h _; cases h; exact (rfl : ofOp 0x01E w y = _)
theorem sshrI (y) : Statement (.sshrI y) := by
  intro x w h _; cases h; exact (rfl : ofOp 0x01F w y = _)
theorem ssraI (y) : Statement (.ssraI y) := by
  intro x w h _; cases h; exact (rfl : ofOp 0x020 w y = _)
theorem sli (y) : Statement (.sli y) := by
  intro x w h k; cases h
  have k : (wfArgs 0x021 y && (Instr.selects (.sli y))) = true := k
  rw [Bool.and_eq_true] at k
  obtain ⟨d, a, b, j⟩ := wfArgs_cases k.1 rfl
  have a := field_zero _ _ _ a
  show ofOp 0x021 w y = _; exact if_pos a
theorem scmpEq (y) : Statement (.scmpEq y) := by
  intro x w h _; cases h; exact (rfl : ofOp 0x022 w y = _)
theorem scmpNe (y) : Statement (.scmpNe y) := by
  intro x w h _; cases h; exact (rfl : ofOp 0x023 w y = _)
theorem scmpLtS64 (y) : Statement (.scmpLtS64 y) := by
  intro x w h _; cases h; exact (rfl : ofOp 0x024 w y = _)
theorem scmpLeS64 (y) : Statement (.scmpLeS64 y) := by
  intro x w h _; cases h; exact (rfl : ofOp 0x025 w y = _)
theorem scmpLtN64 (y) : Statement (.scmpLtN64 y) := by
  intro x w h _; cases h; exact (rfl : ofOp 0x026 w y = _)
theorem scmpLeN64 (y) : Statement (.scmpLeN64 y) := by
  intro x w h _; cases h; exact (rfl : ofOp 0x027 w y = _)
theorem scmpEqI (y) : Statement (.scmpEqI y) := by
  intro x w h _; cases h; exact (rfl : ofOp 0x028 w y = _)
theorem scmpNeI (y) : Statement (.scmpNeI y) := by
  intro x w h _; cases h; exact (rfl : ofOp 0x029 w y = _)
theorem scmpLtS64I (y) : Statement (.scmpLtS64I y) := by
  intro x w h _; cases h; exact (rfl : ofOp 0x02A w y = _)
theorem scmpLtN64I (y) : Statement (.scmpLtN64I y) := by
  intro x w h _; cases h; exact (rfl : ofOp 0x02B w y = _)
theorem sldN8 (y) : Statement (.sldN8 y) := by
  intro x w h _; cases h; exact (rfl : ofOp 0x030 w y = _)
theorem sldS8 (y) : Statement (.sldS8 y) := by
  intro x w h _; cases h; exact (rfl : ofOp 0x031 w y = _)
theorem sldN16 (y) : Statement (.sldN16 y) := by
  intro x w h _; cases h; exact (rfl : ofOp 0x032 w y = _)
theorem sldS16 (y) : Statement (.sldS16 y) := by
  intro x w h _; cases h; exact (rfl : ofOp 0x033 w y = _)
theorem sldN32 (y) : Statement (.sldN32 y) := by
  intro x w h _; cases h; exact (rfl : ofOp 0x034 w y = _)
theorem sldS32 (y) : Statement (.sldS32 y) := by
  intro x w h _; cases h; exact (rfl : ofOp 0x035 w y = _)
theorem sldB64 (y) : Statement (.sldB64 y) := by
  intro x w h _; cases h; exact (rfl : ofOp 0x036 w y = _)
theorem sstN8 (y) : Statement (.sstN8 y) := by
  intro x w h _; cases h; exact (rfl : ofOp 0x037 w y = _)
theorem sstN16 (y) : Statement (.sstN16 y) := by
  intro x w h _; cases h; exact (rfl : ofOp 0x038 w y = _)
theorem sstN32 (y) : Statement (.sstN32 y) := by
  intro x w h _; cases h; exact (rfl : ofOp 0x039 w y = _)
theorem sstB64 (y) : Statement (.sstB64 y) := by
  intro x w h _; cases h; exact (rfl : ofOp 0x03A w y = _)
theorem br z0 : Statement (.br z0) := none_args _ rfl
theorem bra (y) : Statement (.bra y) := by
  intro x w h k; cases h
  have k : (wfArgs 0x041 y && (Instr.selects (.bra y))) = true := k
  rw [Bool.and_eq_true] at k
  obtain ⟨d, a, b, j⟩ := wfArgs_cases k.1 rfl
  have d := field_zero _ _ _ d
  have b := field_zero _ _ _ b
  show ofOp 0x041 w y = _; exact if_pos ⟨d, b⟩
theorem brx (y) : Statement (.brx y) := by
  intro x w h k; cases h
  have k : (wfArgs 0x042 y && (Instr.selects (.brx y))) = true := k
  rw [Bool.and_eq_true] at k
  obtain ⟨d, a, b, j⟩ := wfArgs_cases k.1 rfl
  have d := field_zero _ _ _ d
  have b := field_zero _ _ _ b
  show ofOp 0x042 w y = _; exact if_pos ⟨d, b⟩
theorem call (y) : Statement (.call y) := by
  intro x w h k; cases h
  have k : (wfArgs 0x043 y && (Instr.selects (.call y))) = true := k
  rw [Bool.and_eq_true] at k
  obtain ⟨d, a, b, j⟩ := wfArgs_cases k.1 rfl
  have a := field_zero _ _ _ a
  show ofOp 0x043 w y = _; exact if_pos a
theorem ret (y) : Statement (.ret y) := by
  intro x w h k; cases h
  have k : (wfArgs 0x044 y && (Instr.selects (.ret y))) = true := k
  rw [Bool.and_eq_true] at k
  obtain ⟨d, a, b, j⟩ := wfArgs_cases k.1 rfl
  have d := field_zero _ _ _ d
  have b := field_zero _ _ _ b
  show ofOp 0x044 w y = _; exact if_pos ⟨d, b⟩
theorem meet (y) : Statement (.meet y) := by
  intro x w h k; cases h
  have k : (wfArgs 0x045 y && (Instr.selects (.meet y))) = true := k
  rw [Bool.and_eq_true] at k
  obtain ⟨d, a, b, j⟩ := wfArgs_cases k.1 rfl
  have a := field_zero _ _ _ a
  show ofOp 0x045 w y = _; exact if_pos a
theorem jn (y) : Statement (.jn y) := by
  intro x w h k; cases h
  have k : (wfArgs 0x046 y && (Instr.selects (.jn y))) = true := k
  rw [Bool.and_eq_true] at k
  obtain ⟨d, a, b, j⟩ := wfArgs_cases k.1 rfl
  have a := field_zero _ _ _ a
  have b := field_zero _ _ _ b
  show ofOp 0x046 w y = _; exact if_pos ⟨a, b⟩
theorem lv (y) : Statement (.lv y) := by
  intro x w h k; cases h
  have k : (wfArgs 0x047 y && (Instr.selects (.lv y))) = true := k
  rw [Bool.and_eq_true] at k
  obtain ⟨d, a, b, j⟩ := wfArgs_cases k.1 rfl
  have a := field_zero _ _ _ a
  have b := field_zero _ _ _ b
  show ofOp 0x047 w y = _; exact if_pos ⟨a, b⟩
theorem exit (y) : Statement (.exit y) := by
  intro x w h k; cases h
  have k : (wfArgs 0x048 y && (Instr.selects (.exit y))) = true := k
  rw [Bool.and_eq_true] at k
  obtain ⟨d, a, b, j⟩ := wfArgs_cases k.1 rfl
  have d := field_zero _ _ _ d
  have a := field_zero _ _ _ a
  have b := field_zero _ _ _ b
  show ofOp 0x048 w y = _; exact if_pos ⟨d, a, b⟩
theorem tail (y) : Statement (.tail y) := by
  intro x w h k; cases h
  have k : (wfArgs 0x049 y && (Instr.selects (.tail y))) = true := k
  rw [Bool.and_eq_true] at k
  obtain ⟨d, a, b, j⟩ := wfArgs_cases k.1 rfl
  have d := field_zero _ _ _ d
  show ofOp 0x049 w y = _; exact if_pos d
theorem spawn (y) : Statement (.spawn y) := by
  intro x w h k; cases h
  have k : (wfArgs 0x04A y && (Instr.selects (.spawn y))) = true := k
  rw [Bool.and_eq_true] at k
  obtain ⟨d, a, b, j⟩ := wfArgs_cases k.1 rfl
  have d := field_zero _ _ _ d
  have b := field_zero _ _ _ b
  show ofOp 0x04A w y = _; exact if_pos ⟨d, b⟩
theorem elect (y) : Statement (.elect y) := by
  intro x w h k; cases h
  have k : (wfArgs 0x04B y && (Instr.selects (.elect y))) = true := k
  rw [Bool.and_eq_true] at k
  obtain ⟨d, a, b, j⟩ := wfArgs_cases k.1 rfl
  have b := field_zero _ _ _ b
  show ofOp 0x04B w y = _; exact if_pos b
theorem yield (y) : Statement (.yield y) := by
  intro x w h k; cases h
  have k : (wfArgs 0x04C y && (Instr.selects (.yield y))) = true := k
  rw [Bool.and_eq_true] at k
  obtain ⟨d, a, b, j⟩ := wfArgs_cases k.1 rfl
  have d := field_zero _ _ _ d
  have a := field_zero _ _ _ a
  have b := field_zero _ _ _ b
  show ofOp 0x04C w y = _; exact if_pos ⟨d, a, b⟩
theorem vaddS32 (y) : Statement (.vaddS32 y) := by
  intro x w h _; cases h; exact (rfl : ofOp 0x060 w y = _)
theorem vaddS64 (y) : Statement (.vaddS64 y) := by
  intro x w h _; cases h; exact (rfl : ofOp 0x061 w y = _)
theorem vaddSatS32 (y) : Statement (.vaddSatS32 y) := by
  intro x w h _; cases h; exact (rfl : ofOp 0x062 w y = _)
theorem vaddSatN32 (y) : Statement (.vaddSatN32 y) := by
  intro x w h _; cases h; exact (rfl : ofOp 0x063 w y = _)
theorem vsubS32 (y) : Statement (.vsubS32 y) := by
  intro x w h _; cases h; exact (rfl : ofOp 0x064 w y = _)
theorem vsubS64 (y) : Statement (.vsubS64 y) := by
  intro x w h _; cases h; exact (rfl : ofOp 0x065 w y = _)
theorem vsubSatS32 (y) : Statement (.vsubSatS32 y) := by
  intro x w h _; cases h; exact (rfl : ofOp 0x066 w y = _)
theorem vsubSatN32 (y) : Statement (.vsubSatN32 y) := by
  intro x w h _; cases h; exact (rfl : ofOp 0x067 w y = _)
theorem vmulS32 (y) : Statement (.vmulS32 y) := by
  intro x w h _; cases h; exact (rfl : ofOp 0x068 w y = _)
theorem vmulS64 (y) : Statement (.vmulS64 y) := by
  intro x w h _; cases h; exact (rfl : ofOp 0x069 w y = _)
theorem vmulhS32 (y) : Statement (.vmulhS32 y) := by
  intro x w h _; cases h; exact (rfl : ofOp 0x06A w y = _)
theorem vmulhN32 (y) : Statement (.vmulhN32 y) := by
  intro x w h _; cases h; exact (rfl : ofOp 0x06B w y = _)
theorem vmadS32 (y) : Statement (.vmadS32 y) := by
  intro x w h _; cases h; exact (rfl : ofOp 0x06C w y = _)
theorem vmadS64 (y) : Statement (.vmadS64 y) := by
  intro x w h _; cases h; exact (rfl : ofOp 0x06D w y = _)
theorem vadcN32 (y) : Statement (.vadcN32 y) := by
  intro x w h _; cases h; exact (rfl : ofOp 0x06E w y = _)
theorem vsbcN32 (y) : Statement (.vsbcN32 y) := by
  intro x w h _; cases h; exact (rfl : ofOp 0x06F w y = _)
theorem vdivS32 (y) : Statement (.vdivS32 y) := by
  intro x w h _; cases h; exact (rfl : ofOp 0x070 w y = _)
theorem vdivN32 (y) : Statement (.vdivN32 y) := by
  intro x w h _; cases h; exact (rfl : ofOp 0x071 w y = _)
theorem vdivS64 (y) : Statement (.vdivS64 y) := by
  intro x w h _; cases h; exact (rfl : ofOp 0x072 w y = _)
theorem vdivN64 (y) : Statement (.vdivN64 y) := by
  intro x w h _; cases h; exact (rfl : ofOp 0x073 w y = _)
theorem vremS32 (y) : Statement (.vremS32 y) := by
  intro x w h _; cases h; exact (rfl : ofOp 0x074 w y = _)
theorem vremN32 (y) : Statement (.vremN32 y) := by
  intro x w h _; cases h; exact (rfl : ofOp 0x075 w y = _)
theorem vremS64 (y) : Statement (.vremS64 y) := by
  intro x w h _; cases h; exact (rfl : ofOp 0x076 w y = _)
theorem vremN64 (y) : Statement (.vremN64 y) := by
  intro x w h _; cases h; exact (rfl : ofOp 0x077 w y = _)
theorem vabsS32 (y) : Statement (.vabsS32 y) := by
  intro x w h k; cases h
  have k : (wfArgs 0x078 y && (Instr.selects (.vabsS32 y))) = true := k
  rw [Bool.and_eq_true] at k
  obtain ⟨d, a, b, j⟩ := wfArgs_cases k.1 rfl
  have a := field_zero _ _ _ a
  show ofOp 0x078 w y = _; exact if_pos a
theorem vabsS64 (y) : Statement (.vabsS64 y) := by
  intro x w h k; cases h
  have k : (wfArgs 0x079 y && (Instr.selects (.vabsS64 y))) = true := k
  rw [Bool.and_eq_true] at k
  obtain ⟨d, a, b, j⟩ := wfArgs_cases k.1 rfl
  have a := field_zero _ _ _ a
  show ofOp 0x079 w y = _; exact if_pos a
theorem vnegS32 (y) : Statement (.vnegS32 y) := by
  intro x w h k; cases h
  have k : (wfArgs 0x07A y && (Instr.selects (.vnegS32 y))) = true := k
  rw [Bool.and_eq_true] at k
  obtain ⟨d, a, b, j⟩ := wfArgs_cases k.1 rfl
  have a := field_zero _ _ _ a
  show ofOp 0x07A w y = _; exact if_pos a
theorem vnegS64 (y) : Statement (.vnegS64 y) := by
  intro x w h k; cases h
  have k : (wfArgs 0x07B y && (Instr.selects (.vnegS64 y))) = true := k
  rw [Bool.and_eq_true] at k
  obtain ⟨d, a, b, j⟩ := wfArgs_cases k.1 rfl
  have a := field_zero _ _ _ a
  show ofOp 0x07B w y = _; exact if_pos a
theorem vminS32 (y) : Statement (.vminS32 y) := by
  intro x w h _; cases h; exact (rfl : ofOp 0x07C w y = _)
theorem vminN32 (y) : Statement (.vminN32 y) := by
  intro x w h _; cases h; exact (rfl : ofOp 0x07D w y = _)
theorem vmaxS32 (y) : Statement (.vmaxS32 y) := by
  intro x w h _; cases h; exact (rfl : ofOp 0x07E w y = _)
theorem vmaxN32 (y) : Statement (.vmaxN32 y) := by
  intro x w h _; cases h; exact (rfl : ofOp 0x07F w y = _)
theorem vminS64 (y) : Statement (.vminS64 y) := by
  intro x w h _; cases h; exact (rfl : ofOp 0x080 w y = _)
theorem vminN64 (y) : Statement (.vminN64 y) := by
  intro x w h _; cases h; exact (rfl : ofOp 0x081 w y = _)
theorem vmaxS64 (y) : Statement (.vmaxS64 y) := by
  intro x w h _; cases h; exact (rfl : ofOp 0x082 w y = _)
theorem vmaxN64 (y) : Statement (.vmaxN64 y) := by
  intro x w h _; cases h; exact (rfl : ofOp 0x083 w y = _)
theorem vandB32 (y) : Statement (.vandB32 y) := by
  intro x w h _; cases h; exact (rfl : ofOp 0x084 w y = _)
theorem vorB32 (y) : Statement (.vorB32 y) := by
  intro x w h _; cases h; exact (rfl : ofOp 0x085 w y = _)
theorem vxorB32 (y) : Statement (.vxorB32 y) := by
  intro x w h _; cases h; exact (rfl : ofOp 0x086 w y = _)
theorem vandnB32 (y) : Statement (.vandnB32 y) := by
  intro x w h _; cases h; exact (rfl : ofOp 0x087 w y = _)
theorem vandB64 (y) : Statement (.vandB64 y) := by
  intro x w h _; cases h; exact (rfl : ofOp 0x088 w y = _)
theorem vorB64 (y) : Statement (.vorB64 y) := by
  intro x w h _; cases h; exact (rfl : ofOp 0x089 w y = _)
theorem vxorB64 (y) : Statement (.vxorB64 y) := by
  intro x w h _; cases h; exact (rfl : ofOp 0x08A w y = _)
theorem vandnB64 (y) : Statement (.vandnB64 y) := by
  intro x w h _; cases h; exact (rfl : ofOp 0x08B w y = _)
theorem vshlB32 (y) : Statement (.vshlB32 y) := by
  intro x w h _; cases h; exact (rfl : ofOp 0x08C w y = _)
theorem vshrB32 (y) : Statement (.vshrB32 y) := by
  intro x w h _; cases h; exact (rfl : ofOp 0x08D w y = _)
theorem vsraB32 (y) : Statement (.vsraB32 y) := by
  intro x w h _; cases h; exact (rfl : ofOp 0x08E w y = _)
theorem vrotB32 (y) : Statement (.vrotB32 y) := by
  intro x w h _; cases h; exact (rfl : ofOp 0x08F w y = _)
theorem vshlB64 (y) : Statement (.vshlB64 y) := by
  intro x w h _; cases h; exact (rfl : ofOp 0x090 w y = _)
theorem vshrB64 (y) : Statement (.vshrB64 y) := by
  intro x w h _; cases h; exact (rfl : ofOp 0x091 w y = _)
theorem vsraB64 (y) : Statement (.vsraB64 y) := by
  intro x w h _; cases h; exact (rfl : ofOp 0x092 w y = _)
theorem vrotB64 (y) : Statement (.vrotB64 y) := by
  intro x w h _; cases h; exact (rfl : ofOp 0x093 w y = _)
theorem vclzB32 (y) : Statement (.vclzB32 y) := by
  intro x w h k; cases h
  have k : (wfArgs 0x094 y && (Instr.selects (.vclzB32 y))) = true := k
  rw [Bool.and_eq_true] at k
  obtain ⟨d, a, b, j⟩ := wfArgs_cases k.1 rfl
  have a := field_zero _ _ _ a
  show ofOp 0x094 w y = _; exact if_pos a
theorem vclzB64 (y) : Statement (.vclzB64 y) := by
  intro x w h k; cases h
  have k : (wfArgs 0x095 y && (Instr.selects (.vclzB64 y))) = true := k
  rw [Bool.and_eq_true] at k
  obtain ⟨d, a, b, j⟩ := wfArgs_cases k.1 rfl
  have a := field_zero _ _ _ a
  show ofOp 0x095 w y = _; exact if_pos a
theorem vpopcB32 (y) : Statement (.vpopcB32 y) := by
  intro x w h k; cases h
  have k : (wfArgs 0x096 y && (Instr.selects (.vpopcB32 y))) = true := k
  rw [Bool.and_eq_true] at k
  obtain ⟨d, a, b, j⟩ := wfArgs_cases k.1 rfl
  have a := field_zero _ _ _ a
  show ofOp 0x096 w y = _; exact if_pos a
theorem vpopcB64 (y) : Statement (.vpopcB64 y) := by
  intro x w h k; cases h
  have k : (wfArgs 0x097 y && (Instr.selects (.vpopcB64 y))) = true := k
  rw [Bool.and_eq_true] at k
  obtain ⟨d, a, b, j⟩ := wfArgs_cases k.1 rfl
  have a := field_zero _ _ _ a
  show ofOp 0x097 w y = _; exact if_pos a
theorem vbrevB32 (y) : Statement (.vbrevB32 y) := by
  intro x w h k; cases h
  have k : (wfArgs 0x098 y && (Instr.selects (.vbrevB32 y))) = true := k
  rw [Bool.and_eq_true] at k
  obtain ⟨d, a, b, j⟩ := wfArgs_cases k.1 rfl
  have a := field_zero _ _ _ a
  show ofOp 0x098 w y = _; exact if_pos a
theorem vbrevB64 (y) : Statement (.vbrevB64 y) := by
  intro x w h k; cases h
  have k : (wfArgs 0x099 y && (Instr.selects (.vbrevB64 y))) = true := k
  rw [Bool.and_eq_true] at k
  obtain ⟨d, a, b, j⟩ := wfArgs_cases k.1 rfl
  have a := field_zero _ _ _ a
  show ofOp 0x099 w y = _; exact if_pos a
theorem vbfeS32 (y) : Statement (.vbfeS32 y) := by
  intro x w h _; cases h; exact (rfl : ofOp 0x09A w y = _)
theorem vbfeN32 (y) : Statement (.vbfeN32 y) := by
  intro x w h _; cases h; exact (rfl : ofOp 0x09B w y = _)
theorem vbfiB32 (y) : Statement (.vbfiB32 y) := by
  intro x w h _; cases h; exact (rfl : ofOp 0x09C w y = _)
theorem vleaB64 (y) : Statement (.vleaB64 y) := by
  intro x w h _; cases h; exact (rfl : ofOp 0x09D w y = _)
theorem vmovB32 (y) : Statement (.vmovB32 y) := by
  intro x w h k; cases h
  have k : (wfArgs 0x09E y && (Instr.selects (.vmovB32 y))) = true := k
  rw [Bool.and_eq_true] at k
  obtain ⟨d, a, b, j⟩ := wfArgs_cases k.1 rfl
  have a := field_zero _ _ _ a
  show ofOp 0x09E w y = _; exact if_pos a
theorem vmovB64 (y) : Statement (.vmovB64 y) := by
  intro x w h k; cases h
  have k : (wfArgs 0x09F y && (Instr.selects (.vmovB64 y))) = true := k
  rw [Bool.and_eq_true] at k
  obtain ⟨d, a, b, j⟩ := wfArgs_cases k.1 rfl
  have a := field_zero _ _ _ a
  show ofOp 0x09F w y = _; exact if_pos a
theorem vaddS32I (y) : Statement (.vaddS32I y) := by
  intro x w h _; cases h; exact (rfl : ofOp 0x0A0 w y = _)
theorem vandB32I (y) : Statement (.vandB32I y) := by
  intro x w h _; cases h; exact (rfl : ofOp 0x0A1 w y = _)
theorem vorB32I (y) : Statement (.vorB32I y) := by
  intro x w h _; cases h; exact (rfl : ofOp 0x0A2 w y = _)
theorem vxorB32I (y) : Statement (.vxorB32I y) := by
  intro x w h _; cases h; exact (rfl : ofOp 0x0A3 w y = _)
theorem vshlB32I (y) : Statement (.vshlB32I y) := by
  intro x w h _; cases h; exact (rfl : ofOp 0x0A4 w y = _)
theorem vshrB32I (y) : Statement (.vshrB32I y) := by
  intro x w h _; cases h; exact (rfl : ofOp 0x0A5 w y = _)
theorem vsraB32I (y) : Statement (.vsraB32I y) := by
  intro x w h _; cases h; exact (rfl : ofOp 0x0A6 w y = _)
theorem vrotB32I (y) : Statement (.vrotB32I y) := by
  intro x w h _; cases h; exact (rfl : ofOp 0x0A7 w y = _)
theorem vliB32 (y) : Statement (.vliB32 y) := by
  intro x w h k; cases h
  have k : (wfArgs 0x0A8 y && (Instr.selects (.vliB32 y))) = true := k
  rw [Bool.and_eq_true] at k
  obtain ⟨d, a, b, j⟩ := wfArgs_cases k.1 rfl
  have a := field_zero _ _ _ a
  show ofOp 0x0A8 w y = _; exact if_pos a
theorem vselB32 (y) : Statement (.vselB32 y) := by
  intro x w h _; cases h; exact (rfl : ofOp 0x0A9 w y = _)
theorem vselB64 (y) : Statement (.vselB64 y) := by
  intro x w h _; cases h; exact (rfl : ofOp 0x0AA w y = _)
theorem vcvtS32S8 (y) : Statement (.vcvtS32S8 y) := by
  intro x w h k; cases h
  have k : (wfArgs 0x0AB y && (Instr.selects (.vcvtS32S8 y))) = true := k
  rw [Bool.and_eq_true] at k
  obtain ⟨d, a, b, j⟩ := wfArgs_cases k.1 rfl
  have a := field_zero _ _ _ a
  show ofOp 0x0AB w y = _; exact if_pos a
theorem vcvtS32S16 (y) : Statement (.vcvtS32S16 y) := by
  intro x w h k; cases h
  have k : (wfArgs 0x0AC y && (Instr.selects (.vcvtS32S16 y))) = true := k
  rw [Bool.and_eq_true] at k
  obtain ⟨d, a, b, j⟩ := wfArgs_cases k.1 rfl
  have a := field_zero _ _ _ a
  show ofOp 0x0AC w y = _; exact if_pos a
theorem vcvtN32N8 (y) : Statement (.vcvtN32N8 y) := by
  intro x w h k; cases h
  have k : (wfArgs 0x0AD y && (Instr.selects (.vcvtN32N8 y))) = true := k
  rw [Bool.and_eq_true] at k
  obtain ⟨d, a, b, j⟩ := wfArgs_cases k.1 rfl
  have a := field_zero _ _ _ a
  show ofOp 0x0AD w y = _; exact if_pos a
theorem vcvtN32N16 (y) : Statement (.vcvtN32N16 y) := by
  intro x w h k; cases h
  have k : (wfArgs 0x0AE y && (Instr.selects (.vcvtN32N16 y))) = true := k
  rw [Bool.and_eq_true] at k
  obtain ⟨d, a, b, j⟩ := wfArgs_cases k.1 rfl
  have a := field_zero _ _ _ a
  show ofOp 0x0AE w y = _; exact if_pos a
theorem vcvtS64S32 (y) : Statement (.vcvtS64S32 y) := by
  intro x w h k; cases h
  have k : (wfArgs 0x0AF y && (Instr.selects (.vcvtS64S32 y))) = true := k
  rw [Bool.and_eq_true] at k
  obtain ⟨d, a, b, j⟩ := wfArgs_cases k.1 rfl
  have a := field_zero _ _ _ a
  show ofOp 0x0AF w y = _; exact if_pos a
theorem vcvtN64N32 (y) : Statement (.vcvtN64N32 y) := by
  intro x w h k; cases h
  have k : (wfArgs 0x0B0 y && (Instr.selects (.vcvtN64N32 y))) = true := k
  rw [Bool.and_eq_true] at k
  obtain ⟨d, a, b, j⟩ := wfArgs_cases k.1 rfl
  have a := field_zero _ _ _ a
  show ofOp 0x0B0 w y = _; exact if_pos a
theorem vcvtS8S32 (y) : Statement (.vcvtS8S32 y) := by
  intro x w h k; cases h
  have k : (wfArgs 0x0B1 y && (Instr.selects (.vcvtS8S32 y))) = true := k
  rw [Bool.and_eq_true] at k
  obtain ⟨d, a, b, j⟩ := wfArgs_cases k.1 rfl
  have a := field_zero _ _ _ a
  show ofOp 0x0B1 w y = _; exact if_pos a
theorem vcvtS16S32 (y) : Statement (.vcvtS16S32 y) := by
  intro x w h k; cases h
  have k : (wfArgs 0x0B2 y && (Instr.selects (.vcvtS16S32 y))) = true := k
  rw [Bool.and_eq_true] at k
  obtain ⟨d, a, b, j⟩ := wfArgs_cases k.1 rfl
  have a := field_zero _ _ _ a
  show ofOp 0x0B2 w y = _; exact if_pos a
theorem vcvtN8N32 (y) : Statement (.vcvtN8N32 y) := by
  intro x w h k; cases h
  have k : (wfArgs 0x0B3 y && (Instr.selects (.vcvtN8N32 y))) = true := k
  rw [Bool.and_eq_true] at k
  obtain ⟨d, a, b, j⟩ := wfArgs_cases k.1 rfl
  have a := field_zero _ _ _ a
  show ofOp 0x0B3 w y = _; exact if_pos a
theorem vcvtN16N32 (y) : Statement (.vcvtN16N32 y) := by
  intro x w h k; cases h
  have k : (wfArgs 0x0B4 y && (Instr.selects (.vcvtN16N32 y))) = true := k
  rw [Bool.and_eq_true] at k
  obtain ⟨d, a, b, j⟩ := wfArgs_cases k.1 rfl
  have a := field_zero _ _ _ a
  show ofOp 0x0B4 w y = _; exact if_pos a
theorem vcvtS32S64 (y) : Statement (.vcvtS32S64 y) := by
  intro x w h k; cases h
  have k : (wfArgs 0x0B5 y && (Instr.selects (.vcvtS32S64 y))) = true := k
  rw [Bool.and_eq_true] at k
  obtain ⟨d, a, b, j⟩ := wfArgs_cases k.1 rfl
  have a := field_zero _ _ _ a
  show ofOp 0x0B5 w y = _; exact if_pos a
theorem vcvtN32N64 (y) : Statement (.vcvtN32N64 y) := by
  intro x w h k; cases h
  have k : (wfArgs 0x0B6 y && (Instr.selects (.vcvtN32N64 y))) = true := k
  rw [Bool.and_eq_true] at k
  obtain ⟨d, a, b, j⟩ := wfArgs_cases k.1 rfl
  have a := field_zero _ _ _ a
  show ofOp 0x0B6 w y = _; exact if_pos a
theorem vcvtS32N32 (y) : Statement (.vcvtS32N32 y) := by
  intro x w h k; cases h
  have k : (wfArgs 0x0B7 y && (Instr.selects (.vcvtS32N32 y))) = true := k
  rw [Bool.and_eq_true] at k
  obtain ⟨d, a, b, j⟩ := wfArgs_cases k.1 rfl
  have a := field_zero _ _ _ a
  show ofOp 0x0B7 w y = _; exact if_pos a
theorem vcvtN32S32 (y) : Statement (.vcvtN32S32 y) := by
  intro x w h k; cases h
  have k : (wfArgs 0x0B8 y && (Instr.selects (.vcvtN32S32 y))) = true := k
  rw [Bool.and_eq_true] at k
  obtain ⟨d, a, b, j⟩ := wfArgs_cases k.1 rfl
  have a := field_zero _ _ _ a
  show ofOp 0x0B8 w y = _; exact if_pos a
theorem vcmpEqB32 (y) : Statement (.vcmpEqB32 y) := by
  intro x w h _; cases h; exact (rfl : ofOp 0x0C0 w y = _)
theorem vcmpNeB32 (y) : Statement (.vcmpNeB32 y) := by
  intro x w h _; cases h; exact (rfl : ofOp 0x0C1 w y = _)
theorem vcmpLtS32 (y) : Statement (.vcmpLtS32 y) := by
  intro x w h _; cases h; exact (rfl : ofOp 0x0C2 w y = _)
theorem vcmpLeS32 (y) : Statement (.vcmpLeS32 y) := by
  intro x w h _; cases h; exact (rfl : ofOp 0x0C3 w y = _)
theorem vcmpLtN32 (y) : Statement (.vcmpLtN32 y) := by
  intro x w h _; cases h; exact (rfl : ofOp 0x0C4 w y = _)
theorem vcmpLeN32 (y) : Statement (.vcmpLeN32 y) := by
  intro x w h _; cases h; exact (rfl : ofOp 0x0C5 w y = _)
theorem vcmpEqB64 (y) : Statement (.vcmpEqB64 y) := by
  intro x w h _; cases h; exact (rfl : ofOp 0x0C6 w y = _)
theorem vcmpNeB64 (y) : Statement (.vcmpNeB64 y) := by
  intro x w h _; cases h; exact (rfl : ofOp 0x0C7 w y = _)
theorem vcmpLtS64 (y) : Statement (.vcmpLtS64 y) := by
  intro x w h _; cases h; exact (rfl : ofOp 0x0C8 w y = _)
theorem vcmpLeS64 (y) : Statement (.vcmpLeS64 y) := by
  intro x w h _; cases h; exact (rfl : ofOp 0x0C9 w y = _)
theorem vcmpLtN64 (y) : Statement (.vcmpLtN64 y) := by
  intro x w h _; cases h; exact (rfl : ofOp 0x0CA w y = _)
theorem vcmpLeN64 (y) : Statement (.vcmpLeN64 y) := by
  intro x w h _; cases h; exact (rfl : ofOp 0x0CB w y = _)
theorem vcmpEqB32I (y) : Statement (.vcmpEqB32I y) := by
  intro x w h _; cases h; exact (rfl : ofOp 0x0CD w y = _)
theorem vcmpLtS32I (y) : Statement (.vcmpLtS32I y) := by
  intro x w h _; cases h; exact (rfl : ofOp 0x0CE w y = _)
theorem vcmpLtN32I (y) : Statement (.vcmpLtN32I y) := by
  intro x w h _; cases h; exact (rfl : ofOp 0x0CF w y = _)
theorem plop (t y) : Statement (.plop t y) := by
  intro x w h _; cases h
  show ofOp (0xD0 + t.toNat) w y = _
  have e : (0xD0 + t.toNat) / 16 = 13 := by omega
  have f : BitVec.ofNat 4 ((0xD0 + t.toNat) % 16) = t := by rw [show (0xD0 + t.toNat) % 16 = t.toNat by omega]; simp
  rw [ofOp, e]; show some _ = _; rw [f]
theorem xshfB32 (y) : Statement (.xshfB32 y) := by
  intro x w h _; cases h; exact (rfl : ofOp 0x0E0 w y = _)
theorem xshuB32 (y) : Statement (.xshuB32 y) := by
  intro x w h _; cases h; exact (rfl : ofOp 0x0E1 w y = _)
theorem xshdB32 (y) : Statement (.xshdB32 y) := by
  intro x w h _; cases h; exact (rfl : ofOp 0x0E2 w y = _)
theorem xbflB32 (y) : Statement (.xbflB32 y) := by
  intro x w h _; cases h; exact (rfl : ofOp 0x0E3 w y = _)
theorem xvoteAny (y) : Statement (.xvoteAny y) := by
  intro x w h k; cases h
  have k : (wfArgs 0x0E4 y && (Instr.selects (.xvoteAny y))) = true := k
  rw [Bool.and_eq_true] at k
  obtain ⟨d, a, b, j⟩ := wfArgs_cases k.1 rfl
  have b := field_zero _ _ _ b
  show ofOp 0x0E4 w y = _; exact if_pos b
theorem xvoteAll (y) : Statement (.xvoteAll y) := by
  intro x w h k; cases h
  have k : (wfArgs 0x0E5 y && (Instr.selects (.xvoteAll y))) = true := k
  rw [Bool.and_eq_true] at k
  obtain ⟨d, a, b, j⟩ := wfArgs_cases k.1 rfl
  have b := field_zero _ _ _ b
  show ofOp 0x0E5 w y = _; exact if_pos b
theorem xvoteBal (y) : Statement (.xvoteBal y) := by
  intro x w h k; cases h
  have k : (wfArgs 0x0E6 y && (Instr.selects (.xvoteBal y))) = true := k
  rw [Bool.and_eq_true] at k
  obtain ⟨d, a, b, j⟩ := wfArgs_cases k.1 rfl
  have b := field_zero _ _ _ b
  show ofOp 0x0E6 w y = _; exact if_pos b
theorem xmatchB32 (y) : Statement (.xmatchB32 y) := by
  intro x w h k; cases h
  have k : (wfArgs 0x0E7 y && (Instr.selects (.xmatchB32 y))) = true := k
  rw [Bool.and_eq_true] at k
  obtain ⟨d, a, b, j⟩ := wfArgs_cases k.1 rfl
  have b := field_zero _ _ _ b
  show ofOp 0x0E7 w y = _; exact if_pos b
theorem xbcastB32 (y) : Statement (.xbcastB32 y) := by
  intro x w h _; cases h; exact (rfl : ofOp 0x0E8 w y = _)
theorem xshfB64 (y) : Statement (.xshfB64 y) := by
  intro x w h _; cases h; exact (rfl : ofOp 0x0E9 w y = _)
theorem xbcastB64 (y) : Statement (.xbcastB64 y) := by
  intro x w h _; cases h; exact (rfl : ofOp 0x0EA w y = _)
theorem xmatchB64 (y) : Statement (.xmatchB64 y) := by
  intro x w h k; cases h
  have k : (wfArgs 0x0EB y && (Instr.selects (.xmatchB64 y))) = true := k
  rw [Bool.and_eq_true] at k
  obtain ⟨d, a, b, j⟩ := wfArgs_cases k.1 rfl
  have b := field_zero _ _ _ b
  show ofOp 0x0EB w y = _; exact if_pos b
theorem xredAddS32 (y) : Statement (.xredAddS32 y) := by
  intro x w h k; cases h
  have k : (wfArgs 0x0F0 y && (Instr.selects (.xredAddS32 y))) = true := k
  rw [Bool.and_eq_true] at k
  obtain ⟨d, a, b, j⟩ := wfArgs_cases k.1 rfl
  have b := field_zero _ _ _ b
  show ofOp 0x0F0 w y = _; exact if_pos b
theorem xredMinS32 (y) : Statement (.xredMinS32 y) := by
  intro x w h k; cases h
  have k : (wfArgs 0x0F1 y && (Instr.selects (.xredMinS32 y))) = true := k
  rw [Bool.and_eq_true] at k
  obtain ⟨d, a, b, j⟩ := wfArgs_cases k.1 rfl
  have b := field_zero _ _ _ b
  show ofOp 0x0F1 w y = _; exact if_pos b
theorem xredMaxS32 (y) : Statement (.xredMaxS32 y) := by
  intro x w h k; cases h
  have k : (wfArgs 0x0F2 y && (Instr.selects (.xredMaxS32 y))) = true := k
  rw [Bool.and_eq_true] at k
  obtain ⟨d, a, b, j⟩ := wfArgs_cases k.1 rfl
  have b := field_zero _ _ _ b
  show ofOp 0x0F2 w y = _; exact if_pos b
theorem xredMinN32 (y) : Statement (.xredMinN32 y) := by
  intro x w h k; cases h
  have k : (wfArgs 0x0F3 y && (Instr.selects (.xredMinN32 y))) = true := k
  rw [Bool.and_eq_true] at k
  obtain ⟨d, a, b, j⟩ := wfArgs_cases k.1 rfl
  have b := field_zero _ _ _ b
  show ofOp 0x0F3 w y = _; exact if_pos b
theorem xredMaxN32 (y) : Statement (.xredMaxN32 y) := by
  intro x w h k; cases h
  have k : (wfArgs 0x0F4 y && (Instr.selects (.xredMaxN32 y))) = true := k
  rw [Bool.and_eq_true] at k
  obtain ⟨d, a, b, j⟩ := wfArgs_cases k.1 rfl
  have b := field_zero _ _ _ b
  show ofOp 0x0F4 w y = _; exact if_pos b
theorem xredAndB32 (y) : Statement (.xredAndB32 y) := by
  intro x w h k; cases h
  have k : (wfArgs 0x0F5 y && (Instr.selects (.xredAndB32 y))) = true := k
  rw [Bool.and_eq_true] at k
  obtain ⟨d, a, b, j⟩ := wfArgs_cases k.1 rfl
  have b := field_zero _ _ _ b
  show ofOp 0x0F5 w y = _; exact if_pos b
theorem xredOrB32 (y) : Statement (.xredOrB32 y) := by
  intro x w h k; cases h
  have k : (wfArgs 0x0F6 y && (Instr.selects (.xredOrB32 y))) = true := k
  rw [Bool.and_eq_true] at k
  obtain ⟨d, a, b, j⟩ := wfArgs_cases k.1 rfl
  have b := field_zero _ _ _ b
  show ofOp 0x0F6 w y = _; exact if_pos b
theorem xredXorB32 (y) : Statement (.xredXorB32 y) := by
  intro x w h k; cases h
  have k : (wfArgs 0x0F7 y && (Instr.selects (.xredXorB32 y))) = true := k
  rw [Bool.and_eq_true] at k
  obtain ⟨d, a, b, j⟩ := wfArgs_cases k.1 rfl
  have b := field_zero _ _ _ b
  show ofOp 0x0F7 w y = _; exact if_pos b
theorem xredAddS64 (y) : Statement (.xredAddS64 y) := by
  intro x w h k; cases h
  have k : (wfArgs 0x0F8 y && (Instr.selects (.xredAddS64 y))) = true := k
  rw [Bool.and_eq_true] at k
  obtain ⟨d, a, b, j⟩ := wfArgs_cases k.1 rfl
  have b := field_zero _ _ _ b
  show ofOp 0x0F8 w y = _; exact if_pos b
theorem xscanAddS32 (y) : Statement (.xscanAddS32 y) := by
  intro x w h k; cases h
  have k : (wfArgs 0x0F9 y && (Instr.selects (.xscanAddS32 y))) = true := k
  rw [Bool.and_eq_true] at k
  obtain ⟨d, a, b, j⟩ := wfArgs_cases k.1 rfl
  have b := field_zero _ _ _ b
  show ofOp 0x0F9 w y = _; exact if_pos b
theorem xscanAddxS32 (y) : Statement (.xscanAddxS32 y) := by
  intro x w h k; cases h
  have k : (wfArgs 0x0FA y && (Instr.selects (.xscanAddxS32 y))) = true := k
  rw [Bool.and_eq_true] at k
  obtain ⟨d, a, b, j⟩ := wfArgs_cases k.1 rfl
  have b := field_zero _ _ _ b
  show ofOp 0x0FA w y = _; exact if_pos b
theorem xscanMinS32 (y) : Statement (.xscanMinS32 y) := by
  intro x w h k; cases h
  have k : (wfArgs 0x0FB y && (Instr.selects (.xscanMinS32 y))) = true := k
  rw [Bool.and_eq_true] at k
  obtain ⟨d, a, b, j⟩ := wfArgs_cases k.1 rfl
  have b := field_zero _ _ _ b
  show ofOp 0x0FB w y = _; exact if_pos b
theorem xscanMaxS32 (y) : Statement (.xscanMaxS32 y) := by
  intro x w h k; cases h
  have k : (wfArgs 0x0FC y && (Instr.selects (.xscanMaxS32 y))) = true := k
  rw [Bool.and_eq_true] at k
  obtain ⟨d, a, b, j⟩ := wfArgs_cases k.1 rfl
  have b := field_zero _ _ _ b
  show ofOp 0x0FC w y = _; exact if_pos b
theorem xscanOrB32 (y) : Statement (.xscanOrB32 y) := by
  intro x w h k; cases h
  have k : (wfArgs 0x0FD y && (Instr.selects (.xscanOrB32 y))) = true := k
  rw [Bool.and_eq_true] at k
  obtain ⟨d, a, b, j⟩ := wfArgs_cases k.1 rfl
  have b := field_zero _ _ _ b
  show ofOp 0x0FD w y = _; exact if_pos b
theorem xscanAddxS64 (y) : Statement (.xscanAddxS64 y) := by
  intro x w h k; cases h
  have k : (wfArgs 0x0FE y && (Instr.selects (.xscanAddxS64 y))) = true := k
  rw [Bool.and_eq_true] at k
  obtain ⟨d, a, b, j⟩ := wfArgs_cases k.1 rfl
  have b := field_zero _ _ _ b
  show ofOp 0x0FE w y = _; exact if_pos b
theorem ffmaF32 (y) : Statement (.ffmaF32 y) := by
  intro x w h _; cases h; exact (rfl : ofOp 0x100 w y = _)
theorem faddF32 (y) : Statement (.faddF32 y) := by
  intro x w h _; cases h; exact (rfl : ofOp 0x101 w y = _)
theorem fsubF32 (y) : Statement (.fsubF32 y) := by
  intro x w h _; cases h; exact (rfl : ofOp 0x102 w y = _)
theorem fmulF32 (y) : Statement (.fmulF32 y) := by
  intro x w h _; cases h; exact (rfl : ofOp 0x103 w y = _)
theorem fminF32 (y) : Statement (.fminF32 y) := by
  intro x w h _; cases h; exact (rfl : ofOp 0x104 w y = _)
theorem fmaxF32 (y) : Statement (.fmaxF32 y) := by
  intro x w h _; cases h; exact (rfl : ofOp 0x105 w y = _)
theorem fminnF32 (y) : Statement (.fminnF32 y) := by
  intro x w h _; cases h; exact (rfl : ofOp 0x106 w y = _)
theorem fmaxnF32 (y) : Statement (.fmaxnF32 y) := by
  intro x w h _; cases h; exact (rfl : ofOp 0x107 w y = _)
theorem fabsF32 (y) : Statement (.fabsF32 y) := by
  intro x w h k; cases h
  have k : (wfArgs 0x108 y && (Instr.selects (.fabsF32 y))) = true := k
  rw [Bool.and_eq_true] at k
  obtain ⟨d, a, b, j⟩ := wfArgs_cases k.1 rfl
  have a := field_zero _ _ _ a
  show ofOp 0x108 w y = _; exact if_pos a
theorem fnegF32 (y) : Statement (.fnegF32 y) := by
  intro x w h k; cases h
  have k : (wfArgs 0x109 y && (Instr.selects (.fnegF32 y))) = true := k
  rw [Bool.and_eq_true] at k
  obtain ⟨d, a, b, j⟩ := wfArgs_cases k.1 rfl
  have a := field_zero _ _ _ a
  show ofOp 0x109 w y = _; exact if_pos a
theorem fcpsF32 (y) : Statement (.fcpsF32 y) := by
  intro x w h _; cases h; exact (rfl : ofOp 0x10A w y = _)
theorem fclassF32 (y) : Statement (.fclassF32 y) := by
  intro x w h k; cases h
  have k : (wfArgs 0x10B y && (Instr.selects (.fclassF32 y))) = true := k
  rw [Bool.and_eq_true] at k
  obtain ⟨d, a, b, j⟩ := wfArgs_cases k.1 rfl
  have a := field_zero _ _ _ a
  show ofOp 0x10B w y = _; exact if_pos a
theorem frndF32 (y) : Statement (.frndF32 y) := by
  intro x w h k; cases h
  have k : (wfArgs 0x10C y && (Instr.selects (.frndF32 y))) = true := k
  rw [Bool.and_eq_true] at k
  obtain ⟨d, a, b, j⟩ := wfArgs_cases k.1 rfl
  have a := field_zero _ _ _ a
  show ofOp 0x10C w y = _; exact if_pos a
theorem fsclF32 (y) : Statement (.fsclF32 y) := by
  intro x w h _; cases h; exact (rfl : ofOp 0x10D w y = _)
theorem fgetxF32 (y) : Statement (.fgetxF32 y) := by
  intro x w h k; cases h
  have k : (wfArgs 0x10E y && (Instr.selects (.fgetxF32 y))) = true := k
  rw [Bool.and_eq_true] at k
  obtain ⟨d, a, b, j⟩ := wfArgs_cases k.1 rfl
  have a := field_zero _ _ _ a
  show ofOp 0x10E w y = _; exact if_pos a
theorem fdot2F32H2 (y) : Statement (.fdot2F32H2 y) := by
  intro x w h _; cases h; exact (rfl : ofOp 0x10F w y = _)
theorem ffmaH2 (y) : Statement (.ffmaH2 y) := by
  intro x w h _; cases h; exact (rfl : ofOp 0x110 w y = _)
theorem faddH2 (y) : Statement (.faddH2 y) := by
  intro x w h _; cases h; exact (rfl : ofOp 0x111 w y = _)
theorem fsubH2 (y) : Statement (.fsubH2 y) := by
  intro x w h _; cases h; exact (rfl : ofOp 0x112 w y = _)
theorem fmulH2 (y) : Statement (.fmulH2 y) := by
  intro x w h _; cases h; exact (rfl : ofOp 0x113 w y = _)
theorem fminH2 (y) : Statement (.fminH2 y) := by
  intro x w h _; cases h; exact (rfl : ofOp 0x114 w y = _)
theorem fmaxH2 (y) : Statement (.fmaxH2 y) := by
  intro x w h _; cases h; exact (rfl : ofOp 0x115 w y = _)
theorem fminnH2 (y) : Statement (.fminnH2 y) := by
  intro x w h _; cases h; exact (rfl : ofOp 0x116 w y = _)
theorem fmaxnH2 (y) : Statement (.fmaxnH2 y) := by
  intro x w h _; cases h; exact (rfl : ofOp 0x117 w y = _)
theorem fabsH2 (y) : Statement (.fabsH2 y) := by
  intro x w h k; cases h
  have k : (wfArgs 0x118 y && (Instr.selects (.fabsH2 y))) = true := k
  rw [Bool.and_eq_true] at k
  obtain ⟨d, a, b, j⟩ := wfArgs_cases k.1 rfl
  have a := field_zero _ _ _ a
  show ofOp 0x118 w y = _; exact if_pos a
theorem fnegH2 (y) : Statement (.fnegH2 y) := by
  intro x w h k; cases h
  have k : (wfArgs 0x119 y && (Instr.selects (.fnegH2 y))) = true := k
  rw [Bool.and_eq_true] at k
  obtain ⟨d, a, b, j⟩ := wfArgs_cases k.1 rfl
  have a := field_zero _ _ _ a
  show ofOp 0x119 w y = _; exact if_pos a
theorem fcpsH2 (y) : Statement (.fcpsH2 y) := by
  intro x w h _; cases h; exact (rfl : ofOp 0x11A w y = _)
theorem fclassH2 (y) : Statement (.fclassH2 y) := by
  intro x w h k; cases h
  have k : (wfArgs 0x11B y && (Instr.selects (.fclassH2 y))) = true := k
  rw [Bool.and_eq_true] at k
  obtain ⟨d, a, b, j⟩ := wfArgs_cases k.1 rfl
  have a := field_zero _ _ _ a
  show ofOp 0x11B w y = _; exact if_pos a
theorem frndH2 (y) : Statement (.frndH2 y) := by
  intro x w h k; cases h
  have k : (wfArgs 0x11C y && (Instr.selects (.frndH2 y))) = true := k
  rw [Bool.and_eq_true] at k
  obtain ⟨d, a, b, j⟩ := wfArgs_cases k.1 rfl
  have a := field_zero _ _ _ a
  show ofOp 0x11C w y = _; exact if_pos a
theorem fsclH2 (y) : Statement (.fsclH2 y) := by
  intro x w h _; cases h; exact (rfl : ofOp 0x11D w y = _)
theorem fgetxH2 (y) : Statement (.fgetxH2 y) := by
  intro x w h k; cases h
  have k : (wfArgs 0x11E y && (Instr.selects (.fgetxH2 y))) = true := k
  rw [Bool.and_eq_true] at k
  obtain ⟨d, a, b, j⟩ := wfArgs_cases k.1 rfl
  have a := field_zero _ _ _ a
  show ofOp 0x11E w y = _; exact if_pos a
theorem fdot2F32Bh2 (y) : Statement (.fdot2F32Bh2 y) := by
  intro x w h _; cases h; exact (rfl : ofOp 0x11F w y = _)
theorem ffmaBh2 (y) : Statement (.ffmaBh2 y) := by
  intro x w h _; cases h; exact (rfl : ofOp 0x120 w y = _)
theorem faddBh2 (y) : Statement (.faddBh2 y) := by
  intro x w h _; cases h; exact (rfl : ofOp 0x121 w y = _)
theorem fsubBh2 (y) : Statement (.fsubBh2 y) := by
  intro x w h _; cases h; exact (rfl : ofOp 0x122 w y = _)
theorem fmulBh2 (y) : Statement (.fmulBh2 y) := by
  intro x w h _; cases h; exact (rfl : ofOp 0x123 w y = _)
theorem fminBh2 (y) : Statement (.fminBh2 y) := by
  intro x w h _; cases h; exact (rfl : ofOp 0x124 w y = _)
theorem fmaxBh2 (y) : Statement (.fmaxBh2 y) := by
  intro x w h _; cases h; exact (rfl : ofOp 0x125 w y = _)
theorem fminnBh2 (y) : Statement (.fminnBh2 y) := by
  intro x w h _; cases h; exact (rfl : ofOp 0x126 w y = _)
theorem fmaxnBh2 (y) : Statement (.fmaxnBh2 y) := by
  intro x w h _; cases h; exact (rfl : ofOp 0x127 w y = _)
theorem fabsBh2 (y) : Statement (.fabsBh2 y) := by
  intro x w h k; cases h
  have k : (wfArgs 0x128 y && (Instr.selects (.fabsBh2 y))) = true := k
  rw [Bool.and_eq_true] at k
  obtain ⟨d, a, b, j⟩ := wfArgs_cases k.1 rfl
  have a := field_zero _ _ _ a
  show ofOp 0x128 w y = _; exact if_pos a
theorem fnegBh2 (y) : Statement (.fnegBh2 y) := by
  intro x w h k; cases h
  have k : (wfArgs 0x129 y && (Instr.selects (.fnegBh2 y))) = true := k
  rw [Bool.and_eq_true] at k
  obtain ⟨d, a, b, j⟩ := wfArgs_cases k.1 rfl
  have a := field_zero _ _ _ a
  show ofOp 0x129 w y = _; exact if_pos a
theorem fcpsBh2 (y) : Statement (.fcpsBh2 y) := by
  intro x w h _; cases h; exact (rfl : ofOp 0x12A w y = _)
theorem fclassBh2 (y) : Statement (.fclassBh2 y) := by
  intro x w h k; cases h
  have k : (wfArgs 0x12B y && (Instr.selects (.fclassBh2 y))) = true := k
  rw [Bool.and_eq_true] at k
  obtain ⟨d, a, b, j⟩ := wfArgs_cases k.1 rfl
  have a := field_zero _ _ _ a
  show ofOp 0x12B w y = _; exact if_pos a
theorem frndBh2 (y) : Statement (.frndBh2 y) := by
  intro x w h k; cases h
  have k : (wfArgs 0x12C y && (Instr.selects (.frndBh2 y))) = true := k
  rw [Bool.and_eq_true] at k
  obtain ⟨d, a, b, j⟩ := wfArgs_cases k.1 rfl
  have a := field_zero _ _ _ a
  show ofOp 0x12C w y = _; exact if_pos a
theorem fsclBh2 (y) : Statement (.fsclBh2 y) := by
  intro x w h _; cases h; exact (rfl : ofOp 0x12D w y = _)
theorem fgetxBh2 (y) : Statement (.fgetxBh2 y) := by
  intro x w h k; cases h
  have k : (wfArgs 0x12E y && (Instr.selects (.fgetxBh2 y))) = true := k
  rw [Bool.and_eq_true] at k
  obtain ⟨d, a, b, j⟩ := wfArgs_cases k.1 rfl
  have a := field_zero _ _ _ a
  show ofOp 0x12E w y = _; exact if_pos a
theorem fdot4F32Q8 (y) : Statement (.fdot4F32Q8 y) := by
  intro x w h _; cases h; exact (rfl : ofOp 0x12F w y = _)
theorem fcmpEqF32 (y) : Statement (.fcmpEqF32 y) := by
  intro x w h _; cases h; exact (rfl : ofOp 0x130 w y = _)
theorem fcmpNeF32 (y) : Statement (.fcmpNeF32 y) := by
  intro x w h _; cases h; exact (rfl : ofOp 0x131 w y = _)
theorem fcmpLtF32 (y) : Statement (.fcmpLtF32 y) := by
  intro x w h _; cases h; exact (rfl : ofOp 0x132 w y = _)
theorem fcmpLeF32 (y) : Statement (.fcmpLeF32 y) := by
  intro x w h _; cases h; exact (rfl : ofOp 0x133 w y = _)
theorem fcmpUnF32 (y) : Statement (.fcmpUnF32 y) := by
  intro x w h _; cases h; exact (rfl : ofOp 0x134 w y = _)
theorem fcmpOrdF32 (y) : Statement (.fcmpOrdF32 y) := by
  intro x w h _; cases h; exact (rfl : ofOp 0x135 w y = _)
theorem fcvtF32F16 (y) : Statement (.fcvtF32F16 y) := by
  intro x w h k; cases h
  have k : (wfArgs 0x136 y && (Instr.selects (.fcvtF32F16 y))) = true := k
  rw [Bool.and_eq_true] at k
  obtain ⟨d, a, b, j⟩ := wfArgs_cases k.1 rfl
  have a := field_zero _ _ _ a
  show ofOp 0x136 w y = _; exact if_pos a
theorem fcvtF32Bf16 (y) : Statement (.fcvtF32Bf16 y) := by
  intro x w h k; cases h
  have k : (wfArgs 0x137 y && (Instr.selects (.fcvtF32Bf16 y))) = true := k
  rw [Bool.and_eq_true] at k
  obtain ⟨d, a, b, j⟩ := wfArgs_cases k.1 rfl
  have a := field_zero _ _ _ a
  show ofOp 0x137 w y = _; exact if_pos a
theorem fcvtH2F32 (y) : Statement (.fcvtH2F32 y) := by
  intro x w h _; cases h; exact (rfl : ofOp 0x138 w y = _)
theorem fcvtBh2F32 (y) : Statement (.fcvtBh2F32 y) := by
  intro x w h _; cases h; exact (rfl : ofOp 0x139 w y = _)
theorem fcvtF32Q8 (y) : Statement (.fcvtF32Q8 y) := by
  intro x w h _; cases h; exact (rfl : ofOp 0x13A w y = _)
theorem fcvtQ8F32 (y) : Statement (.fcvtQ8F32 y) := by
  intro x w h _; cases h; exact (rfl : ofOp 0x13B w y = _)
theorem fcvtiS32F32 (y) : Statement (.fcvtiS32F32 y) := by
  intro x w h k; cases h
  have k : (wfArgs 0x13C y && (Instr.selects (.fcvtiS32F32 y))) = true := k
  rw [Bool.and_eq_true] at k
  obtain ⟨d, a, b, j⟩ := wfArgs_cases k.1 rfl
  have a := field_zero _ _ _ a
  show ofOp 0x13C w y = _; exact if_pos a
theorem fcvtiN32F32 (y) : Statement (.fcvtiN32F32 y) := by
  intro x w h k; cases h
  have k : (wfArgs 0x13D y && (Instr.selects (.fcvtiN32F32 y))) = true := k
  rw [Bool.and_eq_true] at k
  obtain ⟨d, a, b, j⟩ := wfArgs_cases k.1 rfl
  have a := field_zero _ _ _ a
  show ofOp 0x13D w y = _; exact if_pos a
theorem fcvtfF32S32 (y) : Statement (.fcvtfF32S32 y) := by
  intro x w h k; cases h
  have k : (wfArgs 0x13E y && (Instr.selects (.fcvtfF32S32 y))) = true := k
  rw [Bool.and_eq_true] at k
  obtain ⟨d, a, b, j⟩ := wfArgs_cases k.1 rfl
  have a := field_zero _ _ _ a
  show ofOp 0x13E w y = _; exact if_pos a
theorem fcvtfF32N32 (y) : Statement (.fcvtfF32N32 y) := by
  intro x w h k; cases h
  have k : (wfArgs 0x13F y && (Instr.selects (.fcvtfF32N32 y))) = true := k
  rw [Bool.and_eq_true] at k
  obtain ⟨d, a, b, j⟩ := wfArgs_cases k.1 rfl
  have a := field_zero _ _ _ a
  show ofOp 0x13F w y = _; exact if_pos a
theorem fcvtiS64F32 (y) : Statement (.fcvtiS64F32 y) := by
  intro x w h k; cases h
  have k : (wfArgs 0x140 y && (Instr.selects (.fcvtiS64F32 y))) = true := k
  rw [Bool.and_eq_true] at k
  obtain ⟨d, a, b, j⟩ := wfArgs_cases k.1 rfl
  have a := field_zero _ _ _ a
  show ofOp 0x140 w y = _; exact if_pos a
theorem fcvtiN64F32 (y) : Statement (.fcvtiN64F32 y) := by
  intro x w h k; cases h
  have k : (wfArgs 0x141 y && (Instr.selects (.fcvtiN64F32 y))) = true := k
  rw [Bool.and_eq_true] at k
  obtain ⟨d, a, b, j⟩ := wfArgs_cases k.1 rfl
  have a := field_zero _ _ _ a
  show ofOp 0x141 w y = _; exact if_pos a
theorem fcvtfF32S64 (y) : Statement (.fcvtfF32S64 y) := by
  intro x w h k; cases h
  have k : (wfArgs 0x142 y && (Instr.selects (.fcvtfF32S64 y))) = true := k
  rw [Bool.and_eq_true] at k
  obtain ⟨d, a, b, j⟩ := wfArgs_cases k.1 rfl
  have a := field_zero _ _ _ a
  show ofOp 0x142 w y = _; exact if_pos a
theorem fcvtfF32N64 (y) : Statement (.fcvtfF32N64 y) := by
  intro x w h k; cases h
  have k : (wfArgs 0x143 y && (Instr.selects (.fcvtfF32N64 y))) = true := k
  rw [Bool.and_eq_true] at k
  obtain ⟨d, a, b, j⟩ := wfArgs_cases k.1 rfl
  have a := field_zero _ _ _ a
  show ofOp 0x143 w y = _; exact if_pos a
theorem fqntQ8F32 (y) : Statement (.fqntQ8F32 y) := by
  intro x w h _; cases h; exact (rfl : ofOp 0x144 w y = _)
theorem fdqntF32Q8 (y) : Statement (.fdqntF32Q8 y) := by
  intro x w h _; cases h; exact (rfl : ofOp 0x145 w y = _)
theorem fsqrtF32 (y) : Statement (.fsqrtF32 y) := by
  intro x w h k; cases h
  have k : (wfArgs 0x146 y && (Instr.selects (.fsqrtF32 y))) = true := k
  rw [Bool.and_eq_true] at k
  obtain ⟨d, a, b, j⟩ := wfArgs_cases k.1 rfl
  have a := field_zero _ _ _ a
  show ofOp 0x146 w y = _; exact if_pos a
theorem frcpF32 (y) : Statement (.frcpF32 y) := by
  intro x w h k; cases h
  have k : (wfArgs 0x147 y && (Instr.selects (.frcpF32 y))) = true := k
  rw [Bool.and_eq_true] at k
  obtain ⟨d, a, b, j⟩ := wfArgs_cases k.1 rfl
  have a := field_zero _ _ _ a
  show ofOp 0x147 w y = _; exact if_pos a
theorem frsqF32 (y) : Statement (.frsqF32 y) := by
  intro x w h k; cases h
  have k : (wfArgs 0x148 y && (Instr.selects (.frsqF32 y))) = true := k
  rw [Bool.and_eq_true] at k
  obtain ⟨d, a, b, j⟩ := wfArgs_cases k.1 rfl
  have a := field_zero _ _ _ a
  show ofOp 0x148 w y = _; exact if_pos a
theorem fex2F32 (y) : Statement (.fex2F32 y) := by
  intro x w h k; cases h
  have k : (wfArgs 0x149 y && (Instr.selects (.fex2F32 y))) = true := k
  rw [Bool.and_eq_true] at k
  obtain ⟨d, a, b, j⟩ := wfArgs_cases k.1 rfl
  have a := field_zero _ _ _ a
  show ofOp 0x149 w y = _; exact if_pos a
theorem flg2F32 (y) : Statement (.flg2F32 y) := by
  intro x w h k; cases h
  have k : (wfArgs 0x14A y && (Instr.selects (.flg2F32 y))) = true := k
  rw [Bool.and_eq_true] at k
  obtain ⟨d, a, b, j⟩ := wfArgs_cases k.1 rfl
  have a := field_zero _ _ _ a
  show ofOp 0x14A w y = _; exact if_pos a
theorem fsinF32 (y) : Statement (.fsinF32 y) := by
  intro x w h k; cases h
  have k : (wfArgs 0x14B y && (Instr.selects (.fsinF32 y))) = true := k
  rw [Bool.and_eq_true] at k
  obtain ⟨d, a, b, j⟩ := wfArgs_cases k.1 rfl
  have a := field_zero _ _ _ a
  show ofOp 0x14B w y = _; exact if_pos a
theorem fcosF32 (y) : Statement (.fcosF32 y) := by
  intro x w h k; cases h
  have k : (wfArgs 0x14C y && (Instr.selects (.fcosF32 y))) = true := k
  rw [Bool.and_eq_true] at k
  obtain ⟨d, a, b, j⟩ := wfArgs_cases k.1 rfl
  have a := field_zero _ _ _ a
  show ofOp 0x14C w y = _; exact if_pos a
theorem ftnhF32 (y) : Statement (.ftnhF32 y) := by
  intro x w h k; cases h
  have k : (wfArgs 0x14D y && (Instr.selects (.ftnhF32 y))) = true := k
  rw [Bool.and_eq_true] at k
  obtain ⟨d, a, b, j⟩ := wfArgs_cases k.1 rfl
  have a := field_zero _ _ _ a
  show ofOp 0x14D w y = _; exact if_pos a
theorem ftabF32 (y) : Statement (.ftabF32 y) := by
  intro x w h k; cases h
  have k : (wfArgs 0x14E y && (Instr.selects (.ftabF32 y))) = true := k
  rw [Bool.and_eq_true] at k
  obtain ⟨d, a, b, j⟩ := wfArgs_cases k.1 rfl
  have a := field_zero _ _ _ a
  show ofOp 0x14E w y = _; exact if_pos a
theorem ldtab (y) : Statement (.ldtab y) := by
  intro x w h k; cases h
  have k : (wfArgs 0x14F y && (Instr.selects (.ldtab y))) = true := k
  rw [Bool.and_eq_true] at k
  obtain ⟨d, a, b, j⟩ := wfArgs_cases k.1 rfl
  have d := field_zero _ _ _ d
  have b := field_zero _ _ _ b
  show ofOp 0x14F w y = _; exact if_pos ⟨d, b⟩
theorem swtab (y) : Statement (.swtab y) := by
  intro x w h k; cases h
  have k : (wfArgs 0x150 y && (Instr.selects (.swtab y))) = true := k
  rw [Bool.and_eq_true] at k
  obtain ⟨d, a, b, j⟩ := wfArgs_cases k.1 rfl
  have d := field_zero _ _ _ d
  have a := field_zero _ _ _ a
  have b := field_zero _ _ _ b
  show ofOp 0x150 w y = _; exact if_pos ⟨d, a, b⟩
theorem ldN8 (y) : Statement (.ldN8 y) := by
  intro x w h _; cases h; exact (rfl : ofOp 0x180 w y = _)
theorem ldS8 (y) : Statement (.ldS8 y) := by
  intro x w h _; cases h; exact (rfl : ofOp 0x181 w y = _)
theorem ldN16 (y) : Statement (.ldN16 y) := by
  intro x w h _; cases h; exact (rfl : ofOp 0x182 w y = _)
theorem ldS16 (y) : Statement (.ldS16 y) := by
  intro x w h _; cases h; exact (rfl : ofOp 0x183 w y = _)
theorem ldB32 (y) : Statement (.ldB32 y) := by
  intro x w h _; cases h; exact (rfl : ofOp 0x184 w y = _)
theorem ldB64 (y) : Statement (.ldB64 y) := by
  intro x w h _; cases h; exact (rfl : ofOp 0x185 w y = _)
theorem ldB128 (y) : Statement (.ldB128 y) := by
  intro x w h _; cases h; exact (rfl : ofOp 0x186 w y = _)
theorem ldB32S (y) : Statement (.ldB32S y) := by
  intro x w h _; cases h; exact (rfl : ofOp 0x187 w y = _)
theorem ldB64S (y) : Statement (.ldB64S y) := by
  intro x w h _; cases h; exact (rfl : ofOp 0x188 w y = _)
theorem ldB128S (y) : Statement (.ldB128S y) := by
  intro x w h _; cases h; exact (rfl : ofOp 0x189 w y = _)
theorem ldB32Q (y) : Statement (.ldB32Q y) := by
  intro x w h k; cases h
  have k : (wfArgs 0x18A y && (Instr.selects (.ldB32Q y))) = true := k
  rw [Bool.and_eq_true] at k
  obtain ⟨d, a, b, j⟩ := wfArgs_cases k.1 rfl
  have b := (qual_bits _ _).1 b
  show ofOp 0x18A w y = _; exact if_pos b
theorem ldB64Q (y) : Statement (.ldB64Q y) := by
  intro x w h k; cases h
  have k : (wfArgs 0x18B y && (Instr.selects (.ldB64Q y))) = true := k
  rw [Bool.and_eq_true] at k
  obtain ⟨d, a, b, j⟩ := wfArgs_cases k.1 rfl
  have b := (qual_bits _ _).1 b
  show ofOp 0x18B w y = _; exact if_pos b
theorem stN8 (y) : Statement (.stN8 y) := by
  intro x w h _; cases h; exact (rfl : ofOp 0x18C w y = _)
theorem stN16 (y) : Statement (.stN16 y) := by
  intro x w h _; cases h; exact (rfl : ofOp 0x18D w y = _)
theorem stB32 (y) : Statement (.stB32 y) := by
  intro x w h _; cases h; exact (rfl : ofOp 0x18E w y = _)
theorem stB64 (y) : Statement (.stB64 y) := by
  intro x w h _; cases h; exact (rfl : ofOp 0x18F w y = _)
theorem stB128 (y) : Statement (.stB128 y) := by
  intro x w h _; cases h; exact (rfl : ofOp 0x190 w y = _)
theorem stB32S (y) : Statement (.stB32S y) := by
  intro x w h _; cases h; exact (rfl : ofOp 0x191 w y = _)
theorem stB64S (y) : Statement (.stB64S y) := by
  intro x w h _; cases h; exact (rfl : ofOp 0x192 w y = _)
theorem stB128S (y) : Statement (.stB128S y) := by
  intro x w h _; cases h; exact (rfl : ofOp 0x193 w y = _)
theorem stB32Q (y) : Statement (.stB32Q y) := by
  intro x w h k; cases h
  have k : (wfArgs 0x194 y && (Instr.selects (.stB32Q y))) = true := k
  rw [Bool.and_eq_true] at k
  obtain ⟨d, a, b, j⟩ := wfArgs_cases k.1 rfl
  have b := (qual_bits _ _).2.1 b
  show ofOp 0x194 w y = _; exact if_pos b
theorem stB64Q (y) : Statement (.stB64Q y) := by
  intro x w h k; cases h
  have k : (wfArgs 0x195 y && (Instr.selects (.stB64Q y))) = true := k
  rw [Bool.and_eq_true] at k
  obtain ⟨d, a, b, j⟩ := wfArgs_cases k.1 rfl
  have b := (qual_bits _ _).2.1 b
  show ofOp 0x195 w y = _; exact if_pos b
theorem ldsN8 (y) : Statement (.ldsN8 y) := by
  intro x w h _; cases h; exact (rfl : ofOp 0x196 w y = _)
theorem ldsS8 (y) : Statement (.ldsS8 y) := by
  intro x w h _; cases h; exact (rfl : ofOp 0x197 w y = _)
theorem ldsN16 (y) : Statement (.ldsN16 y) := by
  intro x w h _; cases h; exact (rfl : ofOp 0x198 w y = _)
theorem ldsS16 (y) : Statement (.ldsS16 y) := by
  intro x w h _; cases h; exact (rfl : ofOp 0x199 w y = _)
theorem ldsB32 (y) : Statement (.ldsB32 y) := by
  intro x w h _; cases h; exact (rfl : ofOp 0x19A w y = _)
theorem ldsB64 (y) : Statement (.ldsB64 y) := by
  intro x w h _; cases h; exact (rfl : ofOp 0x19B w y = _)
theorem ldsB128 (y) : Statement (.ldsB128 y) := by
  intro x w h _; cases h; exact (rfl : ofOp 0x19C w y = _)
theorem stsN8 (y) : Statement (.stsN8 y) := by
  intro x w h _; cases h; exact (rfl : ofOp 0x19D w y = _)
theorem stsN16 (y) : Statement (.stsN16 y) := by
  intro x w h _; cases h; exact (rfl : ofOp 0x19E w y = _)
theorem stsB32 (y) : Statement (.stsB32 y) := by
  intro x w h _; cases h; exact (rfl : ofOp 0x19F w y = _)
theorem stsB64 (y) : Statement (.stsB64 y) := by
  intro x w h _; cases h; exact (rfl : ofOp 0x1A0 w y = _)
theorem stsB128 (y) : Statement (.stsB128 y) := by
  intro x w h _; cases h; exact (rfl : ofOp 0x1A1 w y = _)
theorem ldncB32 (y) : Statement (.ldncB32 y) := by
  intro x w h _; cases h; exact (rfl : ofOp 0x1A2 w y = _)
theorem ldncB64 (y) : Statement (.ldncB64 y) := by
  intro x w h _; cases h; exact (rfl : ofOp 0x1A3 w y = _)
theorem ldncB128 (y) : Statement (.ldncB128 y) := by
  intro x w h _; cases h; exact (rfl : ofOp 0x1A4 w y = _)
theorem ldvB32 (y) : Statement (.ldvB32 y) := by
  intro x w h _; cases h; exact (rfl : ofOp 0x1A5 w y = _)
theorem ldvB64 (y) : Statement (.ldvB64 y) := by
  intro x w h _; cases h; exact (rfl : ofOp 0x1A6 w y = _)
theorem ldvB128 (y) : Statement (.ldvB128 y) := by
  intro x w h _; cases h; exact (rfl : ofOp 0x1A7 w y = _)
theorem pf (y) : Statement (.pf y) := by
  intro x w h k; cases h
  have k : (wfArgs 0x1A8 y && (Instr.selects (.pf y))) = true := k
  rw [Bool.and_eq_true] at k
  obtain ⟨d, a, b, j⟩ := wfArgs_cases k.1 rfl
  have d := field_zero _ _ _ d
  show ofOp 0x1A8 w y = _; exact if_pos d
theorem amoB32 (y) : Statement (.amoB32 y) := by
  intro x w h _; cases h; exact (rfl : ofOp 0x1A9 w y = _)
theorem amoB64 (y) : Statement (.amoB64 y) := by
  intro x w h _; cases h; exact (rfl : ofOp 0x1AA w y = _)
theorem amosB32 (y) : Statement (.amosB32 y) := by
  intro x w h _; cases h; exact (rfl : ofOp 0x1AB w y = _)
theorem amosB64 (y) : Statement (.amosB64 y) := by
  intro x w h _; cases h; exact (rfl : ofOp 0x1AC w y = _)
theorem redN8 (y) : Statement (.redN8 y) := by
  intro x w h _; cases h; exact (rfl : ofOp 0x1AD w y = _)
theorem redB32 (y) : Statement (.redB32 y) := by
  intro x w h _; cases h; exact (rfl : ofOp 0x1AE w y = _)
theorem redB64 (y) : Statement (.redB64 y) := by
  intro x w h _; cases h; exact (rfl : ofOp 0x1AF w y = _)
theorem redwF32 (y) : Statement (.redwF32 y) := by
  intro x w h _; cases h; exact (rfl : ofOp 0x1B0 w y = _)
theorem redwS32 (y) : Statement (.redwS32 y) := by
  intro x w h _; cases h; exact (rfl : ofOp 0x1B1 w y = _)
theorem wfinF32 (y) : Statement (.wfinF32 y) := by
  intro x w h _; cases h; exact (rfl : ofOp 0x1B2 w y = _)
theorem wfinS64 (y) : Statement (.wfinS64 y) := by
  intro x w h _; cases h; exact (rfl : ofOp 0x1B3 w y = _)
theorem fence (y) : Statement (.fence y) := by
  intro x w h k; cases h
  have k : (wfArgs 0x1B4 y && (Instr.selects (.fence y))) = true := k
  rw [Bool.and_eq_true] at k
  obtain ⟨d, a, b, j⟩ := wfArgs_cases k.1 rfl
  have a := field_zero _ _ _ a
  have b := (qual_bits _ _).2.2.1 b
  show ofOp 0x1B4 w y = _; exact if_pos ⟨a, b⟩
theorem fsc (y) : Statement (.fsc y) := by
  intro x w h k; cases h
  have k : (wfArgs 0x1B5 y && (Instr.selects (.fsc y))) = true := k
  rw [Bool.and_eq_true] at k
  obtain ⟨d, a, b, j⟩ := wfArgs_cases k.1 rfl
  have d := field_zero _ _ _ d
  have a := field_zero _ _ _ a
  have b := field_zero _ _ _ b
  show ofOp 0x1B5 w y = _; exact if_pos ⟨d, a, b⟩
theorem waddrB32 (y) : Statement (.waddrB32 y) := by
  intro x w h k; cases h
  have k : (wfArgs 0x1B6 y && (Instr.selects (.waddrB32 y))) = true := k
  rw [Bool.and_eq_true] at k
  obtain ⟨d, a, b, j⟩ := wfArgs_cases k.1 rfl
  have b := (qual_bits _ _).1 b
  show ofOp 0x1B6 w y = _; exact if_pos b
theorem waddrB64 (y) : Statement (.waddrB64 y) := by
  intro x w h k; cases h
  have k : (wfArgs 0x1B7 y && (Instr.selects (.waddrB64 y))) = true := k
  rw [Bool.and_eq_true] at k
  obtain ⟨d, a, b, j⟩ := wfArgs_cases k.1 rfl
  have b := (qual_bits _ _).1 b
  show ofOp 0x1B7 w y = _; exact if_pos b
end Decoded
theorem Decoded.seal (y) : Decoded.Statement (.seal y) := by
  intro x w h _; cases h; exact (rfl : ofOp 0x1B8 w y = _)
theorem Decoded.unseal (y) : Decoded.Statement (.unseal y) := by
  intro x w h _; cases h; exact (rfl : ofOp 0x1B9 w y = _)
namespace Decoded
theorem bar (y) : Statement (.bar y) := by
  intro x w h k; cases h
  have k : (wfArgs 0x1C0 y && (Instr.selects (.bar y))) = true := k
  rw [Bool.and_eq_true] at k
  obtain ⟨d, a, b, j⟩ := wfArgs_cases k.1 rfl
  have b := (qual_bits _ _).2.2.2.1 b
  show ofOp 0x1C0 w y = _; exact if_pos b
theorem gbar (y) : Statement (.gbar y) := by
  intro x w h k; cases h
  have k : (wfArgs 0x1C1 y && (Instr.selects (.gbar y))) = true := k
  rw [Bool.and_eq_true] at k
  obtain ⟨d, a, b, j⟩ := wfArgs_cases k.1 rfl
  have d := field_zero _ _ _ d
  have a := field_zero _ _ _ a
  have b := field_zero _ _ _ b
  show ofOp 0x1C1 w y = _; exact if_pos ⟨d, a, b⟩
theorem mbini (y) : Statement (.mbini y) := by
  intro x w h k; cases h
  have k : (wfArgs 0x1C2 y && (Instr.selects (.mbini y))) = true := k
  rw [Bool.and_eq_true] at k
  obtain ⟨d, a, b, j⟩ := wfArgs_cases k.1 rfl
  have d := field_zero _ _ _ d
  show ofOp 0x1C2 w y = _; exact if_pos d
theorem mbarv (y) : Statement (.mbarv y) := by
  intro x w h _; cases h; exact (rfl : ofOp 0x1C3 w y = _)
theorem mbwt (y) : Statement (.mbwt y) := by
  intro x w h k; cases h
  have k : (wfArgs 0x1C4 y && (Instr.selects (.mbwt y))) = true := k
  rw [Bool.and_eq_true] at k
  obtain ⟨d, a, b, j⟩ := wfArgs_cases k.1 rfl
  have d := field_zero _ _ _ d
  show ofOp 0x1C4 w y = _; exact if_pos d
theorem mbtry (y) : Statement (.mbtry y) := by
  intro x w h _; cases h; exact (rfl : ofOp 0x1C5 w y = _)
theorem chbind (y) : Statement (.chbind y) := by
  intro x w h _; cases h; exact (rfl : ofOp 0x1C6 w y = _)
theorem chfree (y) : Statement (.chfree y) := by
  intro x w h k; cases h
  have k : (wfArgs 0x1C7 y && (Instr.selects (.chfree y))) = true := k
  rw [Bool.and_eq_true] at k
  obtain ⟨d, a, b, j⟩ := wfArgs_cases k.1 rfl
  have b := field_zero _ _ _ b
  show ofOp 0x1C7 w y = _; exact if_pos b
theorem chstat (y) : Statement (.chstat y) := by
  intro x w h k; cases h
  have k : (wfArgs 0x1C8 y && (Instr.selects (.chstat y))) = true := k
  rw [Bool.and_eq_true] at k
  obtain ⟨d, a, b, j⟩ := wfArgs_cases k.1 rfl
  have b := field_zero _ _ _ b
  show ofOp 0x1C8 w y = _; exact if_pos b
theorem mst (y) : Statement (.mst y) := by
  intro x w h _; cases h; exact (rfl : ofOp 0x1D0 w y = _)
theorem mflip (y) : Statement (.mflip y) := by
  intro x w h k; cases h
  have k : (wfArgs 0x1D1 y && (Instr.selects (.mflip y))) = true := k
  rw [Bool.and_eq_true] at k
  obtain ⟨d, a, b, j⟩ := wfArgs_cases k.1 rfl
  have d := field_zero _ _ _ d
  have b := field_zero _ _ _ b
  show ofOp 0x1D1 w y = _; exact if_pos ⟨d, b⟩
theorem mma (y) : Statement (.mma y) := by
  intro x w h _; cases h; exact (rfl : ofOp 0x1D2 w y = _)
theorem mmas (y) : Statement (.mmas y) := by
  intro x w h _; cases h; exact (rfl : ofOp 0x1D3 w y = _)
theorem mzero (y) : Statement (.mzero y) := by
  intro x w h k; cases h
  have k : (wfArgs 0x1D4 y && (Instr.selects (.mzero y))) = true := k
  rw [Bool.and_eq_true] at k
  obtain ⟨d, a, b, j⟩ := wfArgs_cases k.1 rfl
  have a := field_zero _ _ _ a
  have b := field_zero _ _ _ b
  show ofOp 0x1D4 w y = _; exact if_pos ⟨a, b⟩
theorem mdr (y) : Statement (.mdr y) := by
  intro x w h k; cases h
  have k : (wfArgs 0x1D5 y && (Instr.selects (.mdr y))) = true := k
  rw [Bool.and_eq_true] at k
  obtain ⟨d, a, b, j⟩ := wfArgs_cases k.1 rfl
  have b := drain_bits _ _ b (by simpa [joinWf] using j)
  show ofOp 0x1D5 w y = _; exact if_pos b
theorem mdrv (y) : Statement (.mdrv y) := by
  intro x w h k; cases h
  have k : (wfArgs 0x1D6 y && (Instr.selects (.mdrv y))) = true := k
  rw [Bool.and_eq_true] at k
  obtain ⟨d, a, b, j⟩ := wfArgs_cases k.1 rfl
  have b := (qual_bits _ _).2.2.2.2 b
  show ofOp 0x1D6 w y = _; exact if_pos b
theorem mbyp (y) : Statement (.mbyp y) := by
  intro x w h k; cases h
  have k : (wfArgs 0x1D7 y && (Instr.selects (.mbyp y))) = true := k
  rw [Bool.and_eq_true] at k
  obtain ⟨d, a, b, j⟩ := wfArgs_cases k.1 rfl
  have a := field_zero _ _ _ a
  have b := field_zero _ _ _ b
  show ofOp 0x1D7 w y = _; exact if_pos ⟨a, b⟩
theorem mvote (y) : Statement (.mvote y) := by
  intro x w h k; cases h
  have k : (wfArgs 0x1D8 y && (Instr.selects (.mvote y))) = true := k
  rw [Bool.and_eq_true] at k
  obtain ⟨d, a, b, j⟩ := wfArgs_cases k.1 rfl
  have b := field_zero _ _ _ b
  show ofOp 0x1D8 w y = _; exact if_pos b
theorem mstat (y) : Statement (.mstat y) := by
  intro x w h k; cases h
  have k : (wfArgs 0x1D9 y && (Instr.selects (.mstat y))) = true := k
  rw [Bool.and_eq_true] at k
  obtain ⟨d, a, b, j⟩ := wfArgs_cases k.1 rfl
  have b := field_zero _ _ _ b
  show ofOp 0x1D9 w y = _; exact if_pos b
theorem cpy (y) : Statement (.cpy y) := by
  intro x w h _; cases h; exact (rfl : ofOp 0x1E0 w y = _)
theorem cpyg (y) : Statement (.cpyg y) := by
  intro x w h _; cases h; exact (rfl : ofOp 0x1E1 w y = _)
theorem cpys (y) : Statement (.cpys y) := by
  intro x w h _; cases h; exact (rfl : ofOp 0x1E2 w y = _)
theorem cpyf (y) : Statement (.cpyf y) := by
  intro x w h _; cases h; exact (rfl : ofOp 0x1E3 w y = _)
theorem ceIns (y) : Statement (.ceIns y) := by
  intro x w h _; cases h; exact (rfl : ofOp 0x1E4 w y = _)
theorem ceQry (y) : Statement (.ceQry y) := by
  intro x w h _; cases h; exact (rfl : ofOp 0x1E5 w y = _)
theorem ceAcc (y) : Statement (.ceAcc y) := by
  intro x w h _; cases h; exact (rfl : ofOp 0x1E6 w y = _)
theorem ceMap (y) : Statement (.ceMap y) := by
  intro x w h _; cases h; exact (rfl : ofOp 0x1E7 w y = _)
theorem ceClr (y) : Statement (.ceClr y) := by
  intro x w h _; cases h; exact (rfl : ofOp 0x1E8 w y = _)
theorem ceSeal (y) : Statement (.ceSeal y) := by
  intro x w h _; cases h; exact (rfl : ofOp 0x1E9 w y = _)
theorem tg (y) : Statement (.tg y) := by
  intro x w h _; cases h; exact (rfl : ofOp 0x1EA w y = _)
theorem scnz (y) : Statement (.scnz y) := by
  intro x w h _; cases h; exact (rfl : ofOp 0x1EB w y = _)
theorem sctk (y) : Statement (.sctk y) := by
  intro x w h _; cases h; exact (rfl : ofOp 0x1EC w y = _)
theorem erel (y) : Statement (.erel y) := by
  intro x w h k; cases h
  have k : (wfArgs 0x1ED y && (Instr.selects (.erel y))) = true := k
  rw [Bool.and_eq_true] at k
  obtain ⟨d, a, b, j⟩ := wfArgs_cases k.1 rfl
  have d := field_zero _ _ _ d
  have b := field_zero _ _ _ b
  show ofOp 0x1ED w y = _; exact if_pos ⟨d, b⟩
theorem ecan (y) : Statement (.ecan y) := by
  intro x w h k; cases h
  have k : (wfArgs 0x1EE y && (Instr.selects (.ecan y))) = true := k
  rw [Bool.and_eq_true] at k
  obtain ⟨d, a, b, j⟩ := wfArgs_cases k.1 rfl
  have d := field_zero _ _ _ d
  have b := field_zero _ _ _ b
  show ofOp 0x1EE w y = _; exact if_pos ⟨d, b⟩
theorem estat (y) : Statement (.estat y) := by
  intro x w h k; cases h
  have k : (wfArgs 0x1EF y && (Instr.selects (.estat y))) = true := k
  rw [Bool.and_eq_true] at k
  obtain ⟨d, a, b, j⟩ := wfArgs_cases k.1 rfl
  have b := field_zero _ _ _ b
  show ofOp 0x1EF w y = _; exact if_pos b
theorem trap (y) : Statement (.trap y) := by
  intro x w h k; cases h
  have k : (wfArgs 0x1F8 y && (Instr.selects (.trap y))) = true := k
  rw [Bool.and_eq_true] at k
  obtain ⟨d, a, b, j⟩ := wfArgs_cases k.1 rfl
  have d := field_zero _ _ _ d
  have a := field_zero _ _ _ a
  show ofOp 0x1F8 w y = _; exact if_pos ⟨d, a⟩
theorem brk (y) : Statement (.brk y) := by
  intro x w h k; cases h
  have k : (wfArgs 0x1F9 y && (Instr.selects (.brk y))) = true := k
  rw [Bool.and_eq_true] at k
  obtain ⟨d, a, b, j⟩ := wfArgs_cases k.1 rfl
  have d := field_zero _ _ _ d
  have a := field_zero _ _ _ a
  show ofOp 0x1F9 w y = _; exact if_pos ⟨d, a⟩
theorem sret (y) : Statement (.sret y) := by
  intro x w h k; cases h
  have k : (wfArgs 0x1FA y && (Instr.selects (.sret y))) = true := k
  rw [Bool.and_eq_true] at k
  obtain ⟨d, a, b, j⟩ := wfArgs_cases k.1 rfl
  have d := field_zero _ _ _ d
  have a := field_zero _ _ _ a
  have b : y.b = 0 := by simpa using (show (y.b == 0) = true from k.2)
  show ofOp 0x1FA w y = _; show row0x1F 10 y = _
  simp [row0x1F, need, d, a, b]
theorem rply (y) : Statement (.rply y) := by
  intro x w h k; cases h
  have k : (wfArgs 0x1FA y && (Instr.selects (.rply y))) = true := k
  rw [Bool.and_eq_true] at k
  obtain ⟨d, a, b, j⟩ := wfArgs_cases k.1 rfl
  have d := field_zero _ _ _ d
  have a := field_zero _ _ _ a
  have b : y.b = 1 := by simpa using (show (y.b == 1) = true from k.2)
  show ofOp 0x1FA w y = _; show row0x1F 10 y = _
  simp [row0x1F, need, d, a, b]
theorem park (y) : Statement (.park y) := by
  intro x w h k; cases h
  have k : (wfArgs 0x1FA y && (Instr.selects (.park y))) = true := k
  rw [Bool.and_eq_true] at k
  obtain ⟨d, a, b, j⟩ := wfArgs_cases k.1 rfl
  have d := field_zero _ _ _ d
  have a := field_zero _ _ _ a
  have b : y.b = 2 := by simpa using (show (y.b == 2) = true from k.2)
  show ofOp 0x1FA w y = _; show row0x1F 10 y = _
  simp [row0x1F, need, d, a, b]
theorem rst (y) : Statement (.rst y) := by
  intro x w h k; cases h
  have k : (wfArgs 0x1FA y && (Instr.selects (.rst y))) = true := k
  rw [Bool.and_eq_true] at k
  obtain ⟨d, a, b, j⟩ := wfArgs_cases k.1 rfl
  have d := field_zero _ _ _ d
  have a := field_zero _ _ _ a
  have b : y.b = 3 := by simpa using (show (y.b == 3) = true from k.2)
  show ofOp 0x1FA w y = _; show row0x1F 10 y = _
  simp [row0x1F, need, d, a, b]
theorem flane (y) : Statement (.flane y) := by
  intro x w h k; cases h
  have k : (wfArgs 0x1FB y && (Instr.selects (.flane y))) = true := k
  rw [Bool.and_eq_true] at k
  have b : y.b = 0 := by simpa using (show (y.b == 0) = true from k.2)
  have e : sigOf 0x1FB y = some { selSig .mask .zero with dRole := .dst } := by
    show sigRow0x1F 11 y = _; simp [sigRow0x1F, b]
  obtain ⟨d, a, b', j⟩ := wfArgs_cases k.1 e
  have a := field_zero _ _ _ a
  show ofOp 0x1FB w y = _; show row0x1F 11 y = _; simp [row0x1F, need, a, b]
theorem perf (y) : Statement (.perf y) := by
  intro x w h k; cases h
  have k : (wfArgs 0x1FB y && (Instr.selects (.perf y))) = true := k
  rw [Bool.and_eq_true] at k
  have b : y.b = 1 := by simpa using (show (y.b == 1) = true from k.2)
  show ofOp 0x1FB w y = _; show row0x1F 11 y = _; simp [row0x1F, need, b]
theorem rdpr (y) : Statement (.rdpr y) := by
  intro x w h k; cases h
  have k : (wfArgs 0x1FC y && (Instr.selects (.rdpr y))) = true := k
  rw [Bool.and_eq_true] at k
  have b : y.b = 0 := by simpa using (show (y.b == 0) = true from k.2)
  show ofOp 0x1FC w y = _; show row0x1F 12 y = _; simp [row0x1F, need, b]
theorem wrpr (y) : Statement (.wrpr y) := by
  intro x w h k; cases h
  have k : (wfArgs 0x1FC y && (Instr.selects (.wrpr y))) = true := k
  rw [Bool.and_eq_true] at k
  have b : y.b = 1 := by simpa using (show (y.b == 1) = true from k.2)
  show ofOp 0x1FC w y = _; show row0x1F 12 y = _; simp [row0x1F, need, b]
theorem tlbi (y) : Statement (.tlbi y) := by
  intro x w h k; cases h
  have k : (wfArgs 0x1FD y && (Instr.selects (.tlbi y))) = true := k
  rw [Bool.and_eq_true] at k
  obtain ⟨d, a, b, j⟩ := wfArgs_cases k.1 rfl
  have d := field_zero _ _ _ d
  show ofOp 0x1FD w y = _; exact if_pos d
theorem issueClock z0 : Statement (.issueClock z0) := none_args _ rfl
theorem fetchCodeLine z0 z1 z2 : Statement (.fetchCodeLine z0 z1 z2) := none_args _ rfl
theorem resultReturn z0 z1 z2 : Statement (.resultReturn z0 z1 z2) := none_args _ rfl
theorem meetingRelease z0 z1 z2 z3 : Statement (.meetingRelease z0 z1 z2 z3) := none_args _ rfl
theorem electRelease z0 z1 z2 z3 : Statement (.electRelease z0 z1 z2 z3) := none_args _ rfl
theorem crossLaneRelease z0 z1 z2 z3 : Statement (.crossLaneRelease z0 z1 z2 z3) := none_args _ rfl
theorem fqntRelease z0 z1 z2 z3 : Statement (.fqntRelease z0 z1 z2 z3) := none_args _ rfl
theorem barRelease z0 : Statement (.barRelease z0) := none_args _ rfl
theorem gbarRelease z0 : Statement (.gbarRelease z0) := none_args _ rfl
theorem mbwtRelease z0 z1 : Statement (.mbwtRelease z0 z1) := none_args _ rfl
theorem waddrPoll z0 z1 : Statement (.waddrPoll z0 z1) := none_args _ rfl
theorem yieldResume z0 z1 : Statement (.yieldResume z0 z1) := none_args _ rfl
theorem heartbeatTick : Statement .heartbeatTick := none_args _ rfl
theorem writeThroughTimeout z0 z1 : Statement (.writeThroughTimeout z0 z1) := none_args _ rfl
theorem homeWriteApply z0 : Statement (.homeWriteApply z0) := none_args _ rfl
theorem sharerUpdate z0 : Statement (.sharerUpdate z0) := none_args _ rfl
theorem writeAck z0 : Statement (.writeAck z0) := none_args _ rfl
theorem homeRead z0 : Statement (.homeRead z0) := none_args _ rfl
theorem multicastWindowEnd z0 : Statement (.multicastWindowEnd z0) := none_args _ rfl
theorem directoryDrop z0 z1 : Statement (.directoryDrop z0 z1) := none_args _ rfl
theorem promotionProbe z0 : Statement (.promotionProbe z0) := none_args _ rfl
theorem porchLineExpire z0 z1 : Statement (.porchLineExpire z0 z1) := none_args _ rfl
theorem reductionUnitApply z0 : Statement (.reductionUnitApply z0) := none_args _ rfl
theorem pageWalk z0 z1 z2 : Statement (.pageWalk z0 z1 z2) := none_args _ rfl
theorem placementEvaluate z0 : Statement (.placementEvaluate z0) := none_args _ rfl
theorem migrationCutOver : Statement .migrationCutOver := none_args _ rfl
theorem migrationDone : Statement .migrationDone := none_args _ rfl
theorem engineCommandStart z0 z1 : Statement (.engineCommandStart z0 z1) := none_args _ rfl
theorem engineCommandComplete z0 z1 : Statement (.engineCommandComplete z0 z1) := none_args _ rfl
theorem engineQueuePush z0 z1 : Statement (.engineQueuePush z0 z1) := none_args _ rfl
theorem engineFaultResume z0 z1 : Statement (.engineFaultResume z0 z1) := none_args _ rfl
theorem engineFaultTimeout z0 z1 : Statement (.engineFaultTimeout z0 z1) := none_args _ rfl
theorem coordKeyOp z0 z1 : Statement (.coordKeyOp z0 z1) := none_args _ rfl
theorem tgStep z0 z1 : Statement (.tgStep z0 z1) := none_args _ rfl
theorem planeLoadDone z0 : Statement (.planeLoadDone z0) := none_args _ rfl
theorem flipTakeEffect z0 : Statement (.flipTakeEffect z0) := none_args _ rfl
theorem matrixPass z0 z1 : Statement (.matrixPass z0 z1) := none_args _ rfl
theorem handlerEntry z0 z1 : Statement (.handlerEntry z0 z1) := none_args _ rfl
theorem bind z0 z1 : Statement (.bind z0 z1) := none_args _ rfl
theorem resume z0 z1 : Statement (.resume z0 z1) := none_args _ rfl
theorem preempt z0 z1 : Statement (.preempt z0 z1) := none_args _ rfl
theorem preemptEntry z0 z1 : Statement (.preemptEntry z0 z1) := none_args _ rfl
theorem preemptHandlerTimeout z0 z1 : Statement (.preemptHandlerTimeout z0 z1) := none_args _ rfl
theorem contextSave z0 : Statement (.contextSave z0) := none_args _ rfl
theorem workgroupEnd z0 : Statement (.workgroupEnd z0) := none_args _ rfl
theorem tailStart z0 : Statement (.tailStart z0) := none_args _ rfl
theorem stateWordWrite z0 : Statement (.stateWordWrite z0) := none_args _ rfl
theorem hearthReadBlock z0 : Statement (.hearthReadBlock z0) := none_args _ rfl
theorem regionEligible z0 : Statement (.regionEligible z0) := none_args _ rfl
theorem regionComplete z0 : Statement (.regionComplete z0) := none_args _ rfl
theorem hearthBind z0 : Statement (.hearthBind z0) := none_args _ rfl
theorem highClassPreemptWait z0 : Statement (.highClassPreemptWait z0) := none_args _ rfl
theorem powerStateSet z0 z1 : Statement (.powerStateSet z0 z1) := none_args _ rfl
theorem wakeComplete z0 : Statement (.wakeComplete z0) := none_args _ rfl
theorem hallGrant z0 z1 z2 : Statement (.hallGrant z0 z1 z2) := none_args _ rfl
theorem linkFlitSend z0 z1 : Statement (.linkFlitSend z0 z1) := none_args _ rfl
theorem flitReceive z0 z1 z2 : Statement (.flitReceive z0 z1 z2) := none_args _ rfl
theorem replayRequest z0 z1 : Statement (.replayRequest z0 z1) := none_args _ rfl
theorem linkRetrainStart z0 : Statement (.linkRetrainStart z0) := none_args _ rfl
theorem linkRetrainEnd z0 : Statement (.linkRetrainEnd z0) := none_args _ rfl
theorem linkDown z0 : Statement (.linkDown z0) := none_args _ rfl
theorem peerPacketReceive z0 z1 z2 z3 z4 z5 z6 : Statement (.peerPacketReceive z0 z1 z2 z3 z4 z5 z6) := none_args _ rfl
theorem hostMemRead z0 z1 z2 : Statement (.hostMemRead z0 z1 z2) := none_args _ rfl
theorem hostMemWrite z0 z1 : Statement (.hostMemWrite z0 z1) := none_args _ rfl
theorem backInvalidateResponse z0 : Statement (.backInvalidateResponse z0) := none_args _ rfl
theorem hostSnoop z0 : Statement (.hostSnoop z0) := none_args _ rfl
theorem reset : Statement .reset := none_args _ rfl
theorem thermalThrottle z0 : Statement (.thermalThrottle z0) := none_args _ rfl
theorem thermalShutdown : Statement .thermalShutdown := none_args _ rfl
theorem devstatWrite z0 : Statement (.devstatWrite z0) := none_args _ rfl
theorem registerTable z0 z1 z2 z3 z4 : Statement (.registerTable z0 z1 z2 z3 z4) := none_args _ rfl
theorem deregisterTable z0 : Statement (.deregisterTable z0) := none_args _ rfl
theorem deregistrationComplete : Statement .deregistrationComplete := none_args _ rfl
theorem writeRouteEntry z0 z1 : Statement (.writeRouteEntry z0 z1) := none_args _ rfl
theorem xelasPortReenable z0 : Statement (.xelasPortReenable z0) := none_args _ rfl
theorem portReenableComplete z0 : Statement (.portReenableComplete z0) := none_args _ rfl
theorem xelasPortDeclareDown z0 : Statement (.xelasPortDeclareDown z0) := none_args _ rfl
theorem deadlineDemandFloor z0 : Statement (.deadlineDemandFloor z0) := none_args _ rfl
theorem powerLimit z0 : Statement (.powerLimit z0) := none_args _ rfl
theorem attestation z0 : Statement (.attestation z0) := none_args _ rfl
theorem eventQueueEntry : Statement .eventQueueEntry := none_args _ rfl
theorem replayThreshold z0 : Statement (.replayThreshold z0) := none_args _ rfl
theorem nodeNumber z0 : Statement (.nodeNumber z0) := none_args _ rfl
theorem certificateChain z0 : Statement (.certificateChain z0) := none_args _ rfl
theorem transferFw z0 : Statement (.transferFw z0) := none_args _ rfl
theorem activateFw : Statement .activateFw := none_args _ rfl
theorem matrixOperationComplete z0 z1 : Statement (.matrixOperationComplete z0 z1) := none_args _ rfl

end Decoded

end Sys2Proof.Laws
end

