-- ==== Sys2Proof/Laws/Translate.lean ====
section
/-! SUPPORT. Laws of translation: an access whose page the TLB of its core holds reaches its physical address, and changes
nothing. -/

namespace Sys2Proof.Machine

/-- The physical address a TLB of the core gives an access, if it holds a translation that allows it. -/
def State.hit (s : State) (core asid : Nat) (w : Want) (va : W64) : Option Nat :=
  ((s.coreOf core).tlb.find? fun e => e.covers asid (va.toNat / 4096) && (e.d || !(w.write && e.allows w))).bind fun e =>
    if e.allows w && s.paOk (e.pa va.toNat) && decide (va.toNat < 2 ^ 48) then some (e.pa va.toNat) else none

theorem locate_of_hit {s : State} {core asid : Nat} {w : Want} {va : W64} {pa : Nat} (h : s.hit core asid w va = some pa)
    (root : Nat) : s.locate core asid root w va = (.ok pa, s) := by
  simp only [State.hit, Option.bind_eq_some_iff] at h
  obtain ⟨e, he, h⟩ := h
  split at h
  · rename_i hc
    simp only [Bool.and_eq_true, decide_eq_true_eq] at hc
    simp only [Option.some.injEq] at h
    have hv : ¬ 2 ^ 48 ≤ va.toNat := by omega
    subst h
    simp only [State.locate, State.translate, if_neg hv, he, hc.1.1, hc.1.2, Bool.not_true, Bool.false_eq_true, if_false, if_true]
  · simp at h

theorem reach_of_hit {s : State} {g : Workgroup} {t : Thread} {write : Bool} {va : W64} {pa : Nat}
    (h : s.hit g.core g.ctx.asid (g.want t write) va = some pa) : s.reach g t write va = (.ok pa, s) := by
  simp [State.reach, locate_of_hit h]

end Sys2Proof.Machine
end

