-- ==== Sys2Proof/Tests/Slice0.lean ====
section
/-! SUPPORT. Tests: words of the spec's encoding tables, ill-formed terms, states and operands that meet the hypotheses of
the statements, and small steps. -/

namespace Sys2Proof.Machine.Tests

set_option Elab.async false

/-! ### A small state -/

/-- Two threads of one home warp, in a group that issues, with registers, predicates and scalar registers given. -/
def thr (tid : Nat) (v : Tab W32) : Thread := { tid, pc := ⟨0, 1⟩, v, p := 2, rm := 1 }
def warp (s : Tab W64) : HWarp := { s }
def wg2 (v0 v1 : Tab W32) (s : Tab W64) : Workgroup := {
  ctx := { asid := 1, root := 0x1000 }, hdr := { width := 8, vregs := 64, depth := 4, tiles := 4, spad := 4096, len := 5, gbar := true }
  threads := [(0, thr 0 v0), (1, thr 1 v1)], hwarps := [(0, warp s)], argLen := 64, args := 0x2000, argWords := [(1, 7)]
  spad := [(16, 1), (17, 2)] }
def cur2 : Cur := {
  wg := 0, lanes := [0, 1], pc := ⟨0, 0⟩, next := ⟨0, 1⟩, slot := 0, word := 0, released := false, gathered := false, fw := 0
  snap := none, all := [0, 1], checked := true }
/-- The pages below 16 MiB are in the TLB of core 0, each at its own address, and memory holds some bytes at 0x4000. -/
def stateOf (g : Workgroup) : State := { State.reset with
  wgs := [(0, g)], cur := some cur2
  cores := [(0, { tlb := [{ asid := 1, vpn := 0, pages := 4096, pfn := 0, w := true, x := true, prv := false, d := true }] })]
  mem := [(0x4000, 5), (0x4008, 6)] }
/-- Threads whose v[2] is a base, s[2] and s[3] scalar operands. -/
def base (a0 a1 : Nat) (s2 s3 : Nat) : State :=
  stateOf (wg2 [(2, BitVec.ofNat 32 a0), (4, 9), (6, 1)] [(2, BitVec.ofNat 32 a1), (4, 8), (6, 1)]
    [(2, BitVec.ofNat 64 s2), (3, BitVec.ofNat 64 s3)])

def ctl0 : Ctl := { chain := false, settle := false, pfx := none, la := none, lb := none, lf := none }
def args (d a b : Nat) : Args := { ctl := ctl0, d := BitVec.ofNat 7 d, a := BitVec.ofNat 7 a, b := BitVec.ofNat 7 b }
/-- With a prefix that names F. -/
def argsF (d a b f : Nat) : Args := { args d a b with
  ctl := { ctl0 with pfx := some { bs := false, z := false, f := BitVec.ofNat 7 f, rnd := 0, neg := false, pred := 0 } } }
def noSig : Sig := { d := .zero, a := .zero, b := .zero, dRole := .none }
def sgOf (op : Nat) (x : Args) : Sig := (sigOf op x).getD noSig

/-- What is to be checked of an instruction for `Clean`. -/
def cleanB (op : Nat) (x : Args) (s : State) : Bool :=
  decide ((cur2.source s).sig op x = some (sgOf op x)) && (lanesOf s cur2 none).all (fun l => decide (l.hw < 128)) &&
  (lanesOf s cur2 x.ctl.pfx).all fun l => (formCause (cur2.source s) op (sgOf op x) x 0 cur2 l).isNone
def plainB (op : Nat) (x : Args) : Bool :=
  ([Fld.d, .a, .b, .f].all fun k => (fieldChan (sgOf op x) x k).isNone)
/-- With an active lane. -/
def issuesB (op : Nat) (x : Args) (s : State) : Bool := cleanB op x s && plainB op x && !(actives s cur2 x).isEmpty

theorem clean_of {s : State} {g : Workgroup} (hw : s.wgs = [(0, g)]) (hc : s.cur = some cur2) {op : Nat} {x : Args}
    (h : cleanB op x s = true) : Clean op x (sgOf op x) cur2 s := by
  have hg : s.wgOf cur2.wg = g := by simp [State.wgOf, hw, cur2, Tab.get, Tab.find]
  simp only [cleanB, Bool.and_eq_true, List.all_eq_true, decide_eq_true_eq, Option.isNone_iff_eq_none] at h
  obtain ⟨⟨h1, h2⟩, h3⟩ := h
  exact {
    cur := hc, clear := .inl rfl, form := h1, once := by decide
    here := by simp [hw, cur2, Tab.find], one := by simp [hw, hg], hdr := rfl, homes := h2, good := h3 }

theorem plain_of {op : Nat} {x : Args} (h : plainB op x = true) : noChannel (sgOf op x) x := by
  intro k
  simp only [plainB, List.all_eq_true, Option.isNone_iff_eq_none] at h
  cases k <;> exact h _ (by simp)

theorem base_clean {a b c d op : Nat} {x : Args} (h : cleanB op x (base a b c d) = true) :
    Clean op x (sgOf op x) cur2 (base a b c d) := clean_of rfl rfl h

/-! ### Witnesses: the instructions of the vector, scalar, branch and system families -/

/-- The operands with which a row issues: the first of some that have the form of its opcode. -/
def rowArgs (op : Nat) : Args :=
  ([args 8 2 4, argsF 8 2 4 6, args 8 0 4, argsF 8 2 0 6, argsF 8 2 4 12, args 8 2 0, args 8 4 12, args 8 0 1].find? fun x =>
    issuesB op x (base 16 32 1 2)).getD (args 0 0 0)

theorem rows_issue {α : Type} {opOf : α → Nat} {rows : List α}
    (h : rows.all (fun r => issuesB (opOf r) (rowArgs (opOf r)) (base 16 32 1 2)) = true) :
    ∀ r ∈ rows, ∃ x sg c s, Issuing (opOf r) x sg c s ∧ noChannel sg x ∧ actives s c x ≠ [] := by
  intro r hr
  have := List.all_eq_true.mp h r hr
  simp only [issuesB, Bool.and_eq_true] at this
  exact ⟨_, _, _, _, (base_clean this.1.1).toIssuing, plain_of this.1.2, by simpa using this.2⟩

theorem test_arithmetic_issues : ∀ r ∈ arithmeticRows, ∃ x sg c s, Issuing r.op x sg c s ∧ noChannel sg x ∧ actives s c x ≠ [] :=
  rows_issue (by decide +kernel)
theorem test_logic_issues : ∀ r ∈ logicRows ++ fieldRows, ∃ x sg c s, Issuing r.op x sg c s ∧ noChannel sg x ∧ actives s c x ≠ [] :=
  rows_issue (by decide +kernel)
theorem test_compares_issue : ∀ r ∈ compareRows ++ plopRows, ∃ x sg c s, Issuing r.op x sg c s ∧ noChannel sg x ∧ actives s c x ≠ [] :=
  rows_issue (by decide +kernel)
theorem test_cross_issues : ∀ r ∈ crossRows, ∃ x sg c s, Issuing r.op x sg c s ∧ noChannel sg x ∧ actives s c x ≠ [] :=
  rows_issue (by decide +kernel)
theorem test_floats_issue : ∀ r ∈ floatArithmeticRows ++ floatOtherRows ++ specialRows,
    ∃ x sg c s, Issuing r.op x sg c s ∧ noChannel sg x ∧ actives s c x ≠ [] :=
  rows_issue (by decide +kernel)
/-- The operands of a row with a format word, in v2 of both lanes. -/
def fmtArgs (k : Fld) : Args :=
  match k with
  | .f => argsF 8 4 4 2
  | _ => args 8 4 2

/-- Every active lane finds the word valid; some active lane finds it invalid. -/
def rightB (op : Nat) (k : Fld) (x : Args) (s : State) : Bool :=
  issuesB op x s && (actives s cur2 x).all fun l => (vecFmt? ((readField op (sgOf op x) x l k).setWidth 32)).isSome
def wrongB (op : Nat) (k : Fld) (x : Args) (s : State) : Bool :=
  issuesB op x s && (actives s cur2 x).any fun l => (vecFmt? ((readField op (sgOf op x) x l k).setWidth 32)).isNone &&
    (formCause (s.wgOf 0) op (sgOf op x) x 0 cur2 l).isNone && known (sgOf op x) x l k

theorem right_of {op : Nat} {k : Fld} {x : Args} (h : rightB op k x (base 0xC2 0xC2 1 2) = true) :
    ∃ x sg c s, Issuing op x sg c s ∧ noChannel sg x ∧ actives s c x ≠ [] ∧
      ∀ l ∈ actives s c x, FmtRight op k x sg c s l := by
  simp only [rightB, issuesB, Bool.and_eq_true, List.all_eq_true] at h
  exact ⟨x, _, cur2, _, (base_clean h.1.1.1).toIssuing, plain_of h.1.1.2, by simpa using h.1.2, fun l hl => .inl (h.2 l hl)⟩

theorem wrong_of {op : Nat} {k : Fld} {x : Args} (h : wrongB op k x (base 0xC2 1 1 2) = true) :
    ∃ x sg c s, Issuing op x sg c s ∧ noChannel sg x ∧ ∃ l ∈ actives s c x, ¬ FmtRight op k x sg c s l := by
  simp only [wrongB, issuesB, Bool.and_eq_true, List.any_eq_true, Option.isNone_iff_eq_none] at h
  obtain ⟨⟨⟨h1, h2⟩, h3⟩, l, hl, ⟨h4, h5⟩, h6⟩ := h
  have h5 : formCause ((base 0xC2 1 1 2).wgOf cur2.wg) op (sgOf op x) x 0 cur2 l = none := h5
  exact ⟨x, _, cur2, _, (base_clean h1).toIssuing, plain_of h2, l, hl, by simp [FmtRight, h4, h5, h6]⟩

theorem test_formats_issue : ∀ r ∈ fmtRows, ∃ x sg c s, Issuing r.op x sg c s ∧ noChannel sg x ∧ actives s c x ≠ [] ∧
    ∀ l ∈ actives s c x, FmtRight r.op r.field x sg c s l := by
  intro r hr
  have h : fmtRows.all (fun r => rightB r.op r.field (fmtArgs r.field) (base 0xC2 0xC2 1 2)) = true := by decide +kernel
  exact right_of (List.all_eq_true.mp h r hr)

theorem test_formats_refused : ∀ r ∈ fmtRows, ∃ x sg c s, Issuing r.op x sg c s ∧ noChannel sg x ∧
    ∃ l ∈ actives s c x, ¬ FmtRight r.op r.field x sg c s l := by
  intro r hr
  have h : fmtRows.all (fun r => wrongB r.op r.field (fmtArgs r.field) (base 0xC2 1 1 2)) = true := by decide +kernel
  exact wrong_of (List.all_eq_true.mp h r hr)

/-! ### Nothing owed, and addresses that translate -/

def owedB (s : State) : Bool :=
  (lanesOf s cur2 none).all fun l => decide (l.t.failed = [])

theorem owed_of {s : State} (h : owedB s = true) : NothingOwed s cur2 := by
  simp only [owedB, List.all_eq_true, decide_eq_true_eq] at h
  exact h

def reachB (s : State) (x : Args) (write : Bool) (align : Nat) (va : Lane → W64) : Bool :=
  (actives s cur2 x).all fun l => decide ((va l).toNat % align = 0 ∧ (va l).toNat < 2 ^ 48) &&
    (s.hit (cur2.source s).core (cur2.source s).ctx.asid ((cur2.source s).want l.t write) (va l)).isSome

theorem reach_of {s : State} {x : Args} {write : Bool} {align : Nat} {va : Lane → W64} (h : reachB s x write align va = true) :
    ∀ l ∈ actives s cur2 x, Reaches s cur2 write align (va l) l := by
  intro l hl
  have := List.all_eq_true.mp h l hl
  simp only [Bool.and_eq_true, decide_eq_true_eq] at this
  obtain ⟨pa, hp⟩ := Option.isSome_iff_exists.mp this.2
  exact ⟨this.1.1, this.1.2, pa, reach_of_hit hp⟩
def reachAllB (s : State) (x : Args) (write : Bool) (va : W64) (pa : Nat) : Bool :=
  (actives s cur2 x).all fun l =>
    s.hit (cur2.source s).core (cur2.source s).ctx.asid ((cur2.source s).want l.t write) va == some pa &&
    s.hit (s.wgOf 0).core (s.wgOf 0).ctx.asid ((s.wgOf 0).want l.t write) va == some pa
theorem reachAll_of {s : State} {x : Args} {write : Bool} {va : W64} {pa : Nat} (h : reachAllB s x write va pa = true) :
    AllReach s cur2 x write va pa := by
  intro l hl
  have := List.all_eq_true.mp h l hl
  simp only [Bool.and_eq_true, beq_iff_eq] at this
  exact ⟨reach_of_hit this.1, reach_of_hit this.2⟩

/-! ### Memory instructions -/

def accessB (r : MemRow) (s : State) : Bool :=
  [args 8 2 0, args 8 2 5].any fun x =>
  cleanB r.op x s && reachB s x r.write r.size (r.addr x r.size) && !(actives s cur2 x).isEmpty

/-- No copy of these states is bad. -/
theorem base_sound {a b c d : Nat} : ∀ r ∈ loadRows ++ storeRows ++ homeLoadRows, ∀ x l, r.sound x (base a b c d) cur2 l := by
  have good (core asid pa k : Nat) : (base a b c d).badCopy core asid pa k = false := by
    unfold State.badCopy
    split <;> rfl
  simp only [loadRows, storeRows, homeLoadRows, List.cons_append, List.nil_append, List.forall_mem_cons]
  refine ⟨?_, ?_, ?_, ?_, ?_, ?_, ?_, ?_, ?_, ?_, ?_, ?_, ?_, ?_, ?_, ?_, ?_, ?_, ?_, ?_, ?_, ?_, ?_, ?_, ?_, by simp⟩
  all_goals first | exact fun _ _ => .inr (good ..) | exact fun _ _ => trivial

theorem accesses_issue {a b c d : Nat} (ho : owedB (base a b c d) = true)
    (h : (loadRows ++ storeRows ++ homeLoadRows).all (fun r => accessB r (base a b c d)) = true) :
    ∀ r ∈ loadRows ++ storeRows ++ homeLoadRows, ∃ x sg c s, Clean r.op x sg c s ∧ NothingOwed s c ∧
      (∀ l ∈ actives s c x, Reaches s c r.write r.size (r.addr x r.size l) l ∧ r.sound x s c l) ∧ actives s c x ≠ [] := by
  intro r hr
  have := List.all_eq_true.mp h r hr
  simp only [accessB, List.any_eq_true, Bool.and_eq_true] at this
  obtain ⟨x, _, h1⟩ := this
  exact ⟨x, _, _, _, base_clean h1.1.1, owed_of ho, fun l hl => ⟨reach_of h1.1.2 l hl, base_sound r hr x l⟩, by simpa using h1.2⟩

theorem test_loads_issue : ∀ r ∈ loadRows ++ storeRows ++ homeLoadRows, ∃ x sg c s, Clean r.op x sg c s ∧ NothingOwed s c ∧
    (∀ l ∈ actives s c x, Reaches s c r.write r.size (r.addr x r.size l) l ∧ r.sound x s c l) ∧ actives s c x ≠ [] :=
  accesses_issue (a := 0x4000) (b := 0x4020) (c := 0x4000) (d := 1) (by decide +kernel) (by decide +kernel)

/-! ### The other instructions of the vector, scalar and system families -/

/-- Both threads with the same registers. -/
def sampleOf (v : Tab W32) (s : Tab W64) (f : Workgroup → Workgroup := id) : State := stateOf (f (wg2 v v s))
theorem sample_clean {v : Tab W32} {s : Tab W64} {f : Workgroup → Workgroup} {op : Nat} {x : Args}
    (h : cleanB op x (sampleOf v s f) = true) : Clean op x (sgOf op x) cur2 (sampleOf v s f) := clean_of rfl rfl h

def oneHomeB (s : State) (h : Nat) : Bool := (lanesOf s cur2 none).all fun l => l.hw == h
theorem oneHome_of {s : State} {h : Nat} (p : oneHomeB s h = true) : OneHome s cur2 h := by
  simpa [oneHomeB, OneHome] using p
/-- The lowest active lane, of which something holds. -/
theorem lowest_of {s : State} {x : Args} {h : Nat} {P : Lane → Bool} (p : (lowest s cur2 x h).any P = true) :
    ∃ l, lowest s cur2 x h = some l ∧ P l = true := by
  obtain ⟨l, h1, h2⟩ := Option.any_eq_true _ _ |>.mp p
  exact ⟨l, h1, h2⟩
/-- The privileged threads of a sample. -/
def privileged (g : Workgroup) : Workgroup := { g with threads := Tab.map (fun _ t => { t with priv := true }) g.threads }

theorem test_ballot_issues : ∃ x sg c s, Clean 0x0E6 x sg c s ∧ actives s c x ≠ [] :=
  ⟨argsF 8 2 0 6, _, _, _, base_clean (a := 1) (b := 1) (c := 1) (d := 1) (by decide +kernel), by decide +kernel⟩

theorem test_special_cases : (∃ i : LaneIn, i.nb = 0xFF800000) ∧ (∃ i : LaneIn, i.nb = 0x7F800000) ∧
    (∃ i : LaneIn, i.nb = 0x80000000) ∧ (∃ i : LaneIn, i.nb = 0) ∧ (∃ i : LaneIn, 0x80000000 < i.nb ∧ i.nb = 0x80000001) ∧
    (∃ i : LaneIn, i.nb = 0xFF7FFFFF ∧ i.nb < 0xFF800000) ∧ (∃ i : LaneIn, 0x7F800000 < i.nb % 2 ^ 31 ∧ i.nb = 0x7F800001) ∧
    ∃ i : LaneIn, 0x7F800000 < i.nb % 2 ^ 31 ∧ i.nb = 0xFFC00000 :=
  let i (n : Nat) : LaneIn := { a := 0, b := BitVec.ofNat 128 n, f := 0, d := 0, mode := .rne }
  ⟨⟨i 0xFF800000, by decide⟩, ⟨i 0x7F800000, by decide⟩, ⟨i 0x80000000, by decide⟩, ⟨i 0, by decide⟩, ⟨i 0x80000001, by decide⟩,
    ⟨i 0xFF7FFFFF, by decide⟩, ⟨i 0x7F800001, by decide⟩, ⟨i 0xFFC00000, by decide⟩⟩

theorem test_quantisation_issues : (∃ x sg c s, Issuing 0x144 x sg c s ∧ noChannel sg x ∧ actives s c x ≠ [] ∧
    (∀ l ∈ actives s c x, ∀ m ∈ actives s c x, octetOf l.tid = octetOf m.tid →
      (laneInput (s.wgOf c.wg) 0x144 sg x l).nb = (laneInput (s.wgOf c.wg) 0x144 sg x m).nb) ∧
    ∀ l ∈ actives s c x, FmtRight 0x144 .b x sg c s l) ∧
    ∃ x sg c s, Issuing 0x144 x sg c s ∧ noChannel sg x ∧ ∃ l ∈ actives s c x, ¬ FmtRight 0x144 .b x sg c s l :=
  ⟨⟨args 8 4 2, _, _, _, (base_clean (a := 0xC2) (b := 0xC2) (c := 1) (d := 2) (by decide +kernel)).toIssuing,
    plain_of (by decide +kernel), by decide +kernel, by decide +kernel, fun l hl => .inl (by revert l hl; decide +kernel)⟩,
    wrong_of (x := args 8 4 2) (by decide +kernel)⟩

/-- The words of an octet differ. -/
theorem test_quantisation_differs : ∃ x sg c s l m, Issuing 0x144 x sg c s ∧ noChannel sg x ∧
    (∀ l ∈ actives s c x, FmtRight 0x144 .b x sg c s l) ∧ l ∈ actives s c x ∧ m ∈ actives s c x ∧
    formCause (s.wgOf c.wg) 0x144 sg x 0 c l = none ∧ formCause (s.wgOf c.wg) 0x144 sg x 0 c m = none ∧ octetOf l.tid = octetOf m.tid ∧
    (laneInput (s.wgOf c.wg) 0x144 sg x l).nb ≠ (laneInput (s.wgOf c.wg) 0x144 sg x m).nb :=
  have h : ∃ l ∈ actives (base 0xC2 0x42 1 2) cur2 (args 8 4 2), ∃ m ∈ actives (base 0xC2 0x42 1 2) cur2 (args 8 4 2),
      formCause ((base 0xC2 0x42 1 2).wgOf 0) 0x144 (sgOf 0x144 (args 8 4 2)) (args 8 4 2) 0 cur2 l = none ∧
      formCause ((base 0xC2 0x42 1 2).wgOf 0) 0x144 (sgOf 0x144 (args 8 4 2)) (args 8 4 2) 0 cur2 m = none ∧
      octetOf l.tid = octetOf m.tid ∧ (laneInput ((base 0xC2 0x42 1 2).wgOf 0) 0x144 (sgOf 0x144 (args 8 4 2)) (args 8 4 2) l).nb ≠
        (laneInput ((base 0xC2 0x42 1 2).wgOf 0) 0x144 (sgOf 0x144 (args 8 4 2)) (args 8 4 2) m).nb := by decide +kernel
  let ⟨l, hl, m, hm, h1⟩ := h
  ⟨args 8 4 2, _, cur2, _, l, m, (base_clean (by decide +kernel)).toIssuing, plain_of (by decide +kernel),
    fun l hl => .inl (by revert l hl; decide +kernel), hl, hm, h1⟩

theorem test_activation_issues : ∃ x sg c s, Issuing 0x14E x sg c s ∧ noChannel sg x ∧ (c.source s).act.isSome ∧
    actives s c x ≠ [] :=
  ⟨args 8 0 2, _, _, _, (sample_clean (v := [(2, 5)]) (s := []) (f := fun g => { g with act := some {} }) (by decide +kernel)).toIssuing,
    plain_of (by decide +kernel), by decide +kernel, by decide +kernel⟩

theorem test_table_load_issues : ∃ x sg c s l rest, Clean 0x14F x sg c s ∧ actives s c x = l :: rest ∧
    NoCause s c sg x (ldtabCause x) :=
  ⟨args 0 2 0, _, _, sampleOf [] [(2, 0x4000)] fun g => { g with act := some {} }, _, _, sample_clean (by decide +kernel), rfl,
    by unfold NoCause; decide +kernel⟩
theorem test_table_switch_issues : ∃ x sg c s a, Clean 0x150 x sg c s ∧ actives s c x ≠ [] ∧ (c.source s).act.isSome ∧
    (s.wgOf c.wg).act = some a :=
  ⟨args 0 0 0, _, _, sampleOf [] [] fun g => { g with act := some { last := some 1 } }, _, sample_clean (by decide +kernel),
    by decide +kernel, by decide +kernel, rfl⟩

theorem test_scalars_issue : ∀ r ∈ scalarRows, ∃ x sg c s, Issuing r.op x sg c s ∧ noChannel sg x ∧ actives s c x ≠ [] :=
  rows_issue (by decide +kernel)
theorem test_select_issues : ∀ op ∈ [0x015, 0x019], ∃ x sg c s, Issuing op x sg c s ∧ noChannel sg x ∧ actives s c x ≠ [] :=
  rows_issue (opOf := id) (by decide +kernel)
theorem test_scalar_compares_issue : ∀ r ∈ scalarCompareRows, ∃ x sg c s, (Issuing r.op x sg c s ∧ noChannel sg x ∧ actives s c x ≠ []) ∧
    ∃ P : Lane → Bool, ∀ l, P l = true ↔ r.rel (operand r.op sg x l .a) (operand r.op sg x l .b) := by
  intro r hr
  obtain ⟨x, sg, c, s, h⟩ := rows_issue (opOf := SCmpRow.op) (rows := scalarCompareRows) (by decide +kernel) r hr
  classical exact ⟨x, sg, c, s, h, fun l => decide (r.rel (operand r.op sg x l .a) (operand r.op sg x l .b)), by simp⟩

theorem test_branch_issues : ∃ (s : State) (c : Cur), s.cur = some c ∧ c.lanes.Nodup ∧ c.lanes ≠ [] :=
  ⟨base 1 1 1 1, cur2, rfl, by decide, by decide⟩
theorem test_jumps_issue : ∀ r ∈ jumpRows, ∃ x sg c s, Issuing r.op x sg c s ∧ noChannel sg x ∧ actives s c x ≠ [] :=
  rows_issue (by decide +kernel)
theorem test_system_issues : ∀ r ∈ systemRows, ∃ x sg c s, Issuing r.op x sg c s ∧ actives s c x ≠ [] := by
  have h : ∀ r ∈ systemRows, cleanB r.op (if r.op = 0x1FB then args 8 2 1 else args 0 0 0) (base 1 1 1 1) = true := by decide +kernel
  exact fun r hr => ⟨_, _, _, _, (base_clean (h r hr)).toIssuing, by split <;> decide +kernel⟩
theorem test_flane_issues : ∃ x sg c s, Clean 0x1FB x sg c s ∧ actives s c x ≠ [] :=
  ⟨args 6 0 0, _, _, _, base_clean (a := 1) (b := 1) (c := 1) (d := 1) (by decide +kernel), by decide +kernel⟩
theorem test_park_issues : ∃ x sg c s, Clean 0x1FA x sg c s ∧ NothingOwed s c ∧ actives s c x ≠ [] :=
  ⟨args 0 0 3, _, _, _, base_clean (a := 1) (b := 1) (c := 1) (d := 1) (by decide +kernel), owed_of (by decide +kernel),
    by decide +kernel⟩

theorem test_rdpr_issues : ∃ x sg c s, (∀ l ∈ actives s c x, l.t.priv = true) ∧ Clean 0x1FC x sg c s ∧ x.a.toNat < 8 ∧
    x.a.toNat = 7 ∧ actives s c x ≠ [] :=
  ⟨args 8 7 0, _, _, sampleOf [] [] privileged, by decide +kernel, sample_clean (by decide +kernel), by decide, by decide,
    by decide +kernel⟩
theorem test_wrpr_tpos_issues : ∃ x sg c s, (∀ l ∈ actives s c x, l.t.priv = true) ∧ Clean 0x1FC x sg c s ∧ x.d = 0 ∧
    (∀ l ∈ actives s c x, (l.t.readV x.a.toNat).toNat = 2 ^ 30 - 1) ∧ actives s c x ≠ [] :=
  ⟨args 0 2 1, _, _, sampleOf [(2, 0x3FFFFFFF)] [] privileged, by decide +kernel, sample_clean (by decide +kernel), by decide,
    by decide +kernel, by decide +kernel⟩
theorem test_wrpr_elix_issues : ∃ x sg c s l, (∀ l ∈ actives s c x, l.t.priv = true) ∧ Clean 0x1FC x sg c s ∧ x.d ≠ 0 ∧
    (∀ l ∈ actives s c x, (l.t.readV x.a.toNat).toNat = 255) ∧ (actives s c x).getLast? = some l :=
  ⟨args 2 2 1, _, _, sampleOf [(2, 255)] [] privileged, _, by decide +kernel, sample_clean (by decide +kernel), by decide,
    by decide +kernel, rfl⟩
theorem test_tlbi_issues : ∃ x sg c s h l, Clean 0x1FD x sg c s ∧ NothingOwed s c ∧ OneHome s c h ∧ lowest s c x h = some l ∧
    (∀ m ∈ actives s c x, m.t.priv = true) ∧ (l.h.readS x.b.toNat).toNat = 2 ^ 18 - 1 := by
  have h : ∃ l, lowest (sampleOf [] [(3, 0x3FFFF)] privileged) cur2 (args 0 2 3) 0 = some l ∧
    ((l.h.readS 3).toNat == 2 ^ 18 - 1) = true := lowest_of (by decide +kernel)
  obtain ⟨l, h1, h2⟩ := h
  exact ⟨_, _, _, _, 0, l, sample_clean (by decide +kernel), owed_of (by decide +kernel), oneHome_of (by decide +kernel), h1,
    by decide +kernel, beq_iff_eq.mp h2⟩
theorem test_privileged_trap : ∀ r ∈ ([(0x1FA, args 0 0 1), (0x1FA, args 0 0 2), (0x1FC, args 2 2 0), (0x1FC, args 2 2 1),
    (0x1FD, args 0 2 3)] : List (Nat × Args)), ∃ x sg c s,
    Clean r.1 x sg c s ∧ (∀ l ∈ actives s c x, l.t.priv = false ∧ wrprValue x l ∧ tlbiValue x l) ∧ actives s c x ≠ [] := by
  unfold wrprValue tlbiValue
  have h : ∀ r ∈ ([(0x1FA, args 0 0 1), (0x1FA, args 0 0 2), (0x1FC, args 2 2 0), (0x1FC, args 2 2 1), (0x1FD, args 0 2 3)] :
      List (Nat × Args)), cleanB r.1 r.2 (base 1 1 1 1) = true ∧ (∀ l ∈ actives (base 1 1 1 1) cur2 r.2, l.t.priv = false ∧
        (l.t.readV r.2.a.toNat).toNat < (if r.2.d = 0 then 2 ^ 30 else 256) ∧ (l.h.readS r.2.b.toNat).toNat < 2 ^ 18) ∧
      actives (base 1 1 1 1) cur2 r.2 ≠ [] := by decide +kernel
  exact fun r hr => ⟨_, _, _, _, base_clean (h r hr).1, (h r hr).2⟩
theorem test_leaving_issues : ∀ b ∈ [1, 2], ∃ x sg c s, Clean 0x1FA x sg c s ∧ x.b = BitVec.ofNat 7 b ∧
    (∀ l ∈ actives s c x, l.t.priv = true) ∧ actives s c x ≠ [] := by
  have h : ∀ b ∈ [1, 2], cleanB 0x1FA (args 0 0 b) (sampleOf [] [] privileged) = true ∧
    (∀ l ∈ actives (sampleOf [] [] privileged) cur2 (args 0 0 b), l.t.priv = true) ∧
    actives (sampleOf [] [] privileged) cur2 (args 0 0 b) ≠ [] := by decide +kernel
  exact fun b hb => ⟨_, _, _, _, sample_clean (h b hb).1, rfl, (h b hb).2⟩

/-! ### Sealed loads, atomics, windows, the scratchpad, fences -/

theorem test_sealed_loads_issue : ∀ r ∈ sealedLoadRows, ∃ x sg c s, Clean r.op x sg c s ∧ NothingOwed s c ∧
    (∀ l ∈ actives s c x, (l.h.readS x.b.toNat).toNat ≤ 0xFFFF ∧ Reaches s c false r.size (plainVa x r.size l) l) ∧
    actives s c x ≠ [] := by
  have h : sealedLoadRows.all (fun r => cleanB r.op (args 8 2 3) (base 0x4000 0x4040 1 0xFFFF) &&
      reachB (base 0x4000 0x4040 1 0xFFFF) (args 8 2 3) false r.size (plainVa (args 8 2 3) r.size)) = true := by decide +kernel
  have hv : ∀ l ∈ actives (base 0x4000 0x4040 1 0xFFFF) cur2 (args 8 2 3), (l.h.readS (args 8 2 3).b.toNat).toNat ≤ 0xFFFF := by
    decide +kernel
  intro r hr
  have := List.all_eq_true.mp h r hr
  simp only [Bool.and_eq_true] at this
  exact ⟨_, _, _, _, base_clean this.1, owed_of (by decide +kernel), fun l hl => ⟨hv l hl, reach_of this.2 l hl⟩, by decide +kernel⟩
/-- The version has more than 16 bits. -/
theorem test_sealed_version : ∀ r ∈ sealedLoadRows, ∃ x sg c s, Clean r.op x sg c s ∧ NothingOwed s c ∧
    (∀ l ∈ actives s c x, 0xFFFF < (l.h.readS x.b.toNat).toNat ∧ IsThread s c.wg (fun u => u.trapSlot = none) l.tid) ∧
    actives s c x ≠ [] := by
  have h : sealedLoadRows.all (fun r => cleanB r.op (args 8 2 3) (base 0x4000 0x4040 1 0x10000)) = true := by decide +kernel
  have hv : ∀ l ∈ actives (base 0x4000 0x4040 1 0x10000) cur2 (args 8 2 3), 0xFFFF < (l.h.readS (args 8 2 3).b.toNat).toNat ∧
      (Tab.find ((base 0x4000 0x4040 1 0x10000).wgOf 0).threads l.tid).any (fun u => u.trapSlot == none) = true := by decide +kernel
  intro r hr
  refine ⟨_, _, cur2, _, base_clean (List.all_eq_true.mp h r hr), owed_of (by decide +kernel), fun l hl => ⟨(hv l hl).1, ?_⟩, by decide +kernel⟩
  obtain ⟨u, hu, ht⟩ := Option.any_eq_true _ _ |>.mp (hv l hl).2
  exact ⟨u, hu, beq_iff_eq.mp ht⟩
theorem test_finalises_issue : ∀ r ∈ finRows, ∃ x sg c s, Clean r.op x sg c s ∧ NothingOwed s c ∧
    (∀ l ∈ actives s c x, (windowExp (l.h.readS x.b.toNat)).isSome ∧ Reaches s c true 8 (plainVa x 8 l) l) ∧
    actives s c x ≠ [] := by
  have h : finRows.all (fun r => cleanB r.op (args 8 2 3) (base 0x4000 0x4040 1 1023)) = true := by decide +kernel
  have hr : reachB (base 0x4000 0x4040 1 1023) (args 8 2 3) true 8 (plainVa (args 8 2 3) 8) = true := by decide +kernel
  have hv : ∀ l ∈ actives (base 0x4000 0x4040 1 1023) cur2 (args 8 2 3), (windowExp (l.h.readS (args 8 2 3).b.toNat)).isSome := by
    decide +kernel
  exact fun r hm => ⟨_, _, _, _, base_clean (List.all_eq_true.mp h r hm), owed_of (by decide +kernel),
    fun l hl => ⟨hv l hl, reach_of hr l hl⟩, by decide +kernel⟩
theorem test_prefetch_issues : ∃ x sg c s, Clean 0x1A8 x sg c s ∧ actives s c x ≠ [] :=
  ⟨args 0 2 0, _, _, _, base_clean (a := 1) (b := 1) (c := 1) (d := 1) (by decide +kernel), by decide +kernel⟩

theorem test_shared_accesses_issue : ∀ r ∈ ([⟨0x1A9, 4, args 8 2 1⟩, ⟨0x1AA, 8, args 8 2 10⟩, ⟨0x1AD, 1, args 8 2 7⟩,
      ⟨0x1AE, 4, args 8 2 1⟩, ⟨0x1AF, 8, args 8 2 8⟩, ⟨0x1B0, 8, args 3 2 6⟩, ⟨0x1B1, 8, args 3 2 6⟩] : List (Nat × Nat × Args)),
    ∃ x sg c s, Clean r.1 x sg c s ∧ NothingOwed s c ∧
      (∀ l ∈ actives s c x, (windowExp (l.h.readS x.d.toNat)).isSome ∧ Reaches s c true r.2.1 (plainVa x 8 l) l) ∧
      actives s c x ≠ [] := by
  have h : ∀ r ∈ ([⟨0x1A9, 4, args 8 2 1⟩, ⟨0x1AA, 8, args 8 2 10⟩, ⟨0x1AD, 1, args 8 2 7⟩, ⟨0x1AE, 4, args 8 2 1⟩,
      ⟨0x1AF, 8, args 8 2 8⟩, ⟨0x1B0, 8, args 3 2 6⟩, ⟨0x1B1, 8, args 3 2 6⟩] : List (Nat × Nat × Args)),
      cleanB r.1 r.2.2 (base 0x4000 0x4000 1 (2 ^ 64 - 1024)) = true ∧
      reachB (base 0x4000 0x4000 1 (2 ^ 64 - 1024)) r.2.2 true r.2.1 (plainVa r.2.2 8) = true ∧
      (∀ l ∈ actives (base 0x4000 0x4000 1 (2 ^ 64 - 1024)) cur2 r.2.2, (windowExp (l.h.readS r.2.2.d.toNat)).isSome) ∧
      actives (base 0x4000 0x4000 1 (2 ^ 64 - 1024)) cur2 r.2.2 ≠ [] := by decide +kernel
  exact fun r hr => ⟨_, _, _, _, base_clean (h r hr).1, owed_of (by decide +kernel),
    fun l hl => ⟨(h r hr).2.2.1 l hl, reach_of (h r hr).2.1 l hl⟩, (h r hr).2.2.2⟩

theorem test_spad_accesses_issue : ∀ r ∈ spadLoadRows ++ spadStoreRows, ∃ x sg c s, Clean r.op x sg c s ∧
    (∀ l ∈ actives s c x, InSpad (c.source s) r.size (spadOff x r.size l) ∧
      ∀ write, (s.wgOf c.wg).spadBad (spadOff x r.size l).toNat r.size write = false) ∧ actives s c x ≠ [] := by
  have h : ∀ r ∈ spadLoadRows ++ spadStoreRows, cleanB r.op (args 8 2 0) (base 0 4080 1 1) = true ∧
      (∀ l ∈ actives (base 0 4080 1 1) cur2 (args 8 2 0), 0 ≤ spadOff (args 8 2 0) r.size l ∧
        spadOff (args 8 2 0) r.size l % r.size = 0 ∧
        spadOff (args 8 2 0) r.size l + r.size ≤ (cur2.source (base 0 4080 1 1)).hdr.spad) := by decide +kernel
  exact fun r hr => ⟨_, _, _, _, base_clean (h r hr).1, fun l hl => ⟨(h r hr).2 l hl, fun _ => rfl⟩, by decide +kernel⟩
theorem test_spad_atomics_issue : ∀ r ∈ spadAtomicRows, ∃ x sg c s, Clean r.op x sg c s ∧ NothingOwed s c ∧
    (∀ l ∈ actives s c x, InSpad (c.source s) r.size (l.t.readV x.a.toNat).toNat ∧
      (s.wgOf c.wg).spadBad (l.t.readV x.a.toNat).toNat r.size false = false) ∧ actives s c x ≠ [] := by
  have h : ∀ r ∈ spadAtomicRows, cleanB r.op (args 8 2 10) (base 0 4088 1 1) = true ∧
      (∀ l ∈ actives (base 0 4088 1 1) cur2 (args 8 2 10), (0 : Int) ≤ (l.t.readV (args 8 2 10).a.toNat).toNat ∧
        ((l.t.readV (args 8 2 10).a.toNat).toNat : Int) % r.size = 0 ∧
        ((l.t.readV (args 8 2 10).a.toNat).toNat : Int) + r.size ≤ (cur2.source (base 0 4088 1 1)).hdr.spad) := by decide +kernel
  exact fun r hr => ⟨_, _, _, _, base_clean (h r hr).1, owed_of (by decide +kernel), fun l hl => ⟨(h r hr).2 l hl, rfl⟩, by decide +kernel⟩
/-- One lane misaligned, one beyond the end. -/
theorem test_spad_fault : ∃ r ∈ spadStoreRows, ∃ x sg c s, Clean r.op x sg c s ∧
    (∀ l ∈ lanesOf s c none, l.t.trapSlot = none ∧ (s.wgOf c.wg).thread l.tid = l.t ∧ l.lane < 64) ∧
    (∀ l ∈ lanesOf s c none, (Tab.find (s.wgOf c.wg).threads l.tid).isSome) ∧
    (∃ l ∈ actives s c x, spadOff x r.size l % r.size ≠ 0) ∧
    ∃ l ∈ actives s c x, spadOff x r.size l % r.size = 0 ∧ ¬InSpad (c.source s) r.size (spadOff x r.size l) := by
  refine ⟨⟨0x19F, .stsB32, 4, false⟩, by simp [spadStoreRows], args 8 2 0, _, _, base 2 4096 1 1, base_clean (by decide +kernel),
    by decide +kernel, by decide +kernel, by decide +kernel, ?_⟩
  have h : ∃ l ∈ actives (base 2 4096 1 1) cur2 (args 8 2 0), spadOff (args 8 2 0) 4 l % (4 : Nat) = 0 ∧
      ¬(spadOff (args 8 2 0) 4 l + (4 : Nat) ≤ (cur2.source (base 2 4096 1 1)).hdr.spad) := by decide +kernel
  obtain ⟨l, hl, h1, h2⟩ := h
  exact ⟨l, hl, h1, fun h => h2 h.2.2⟩

/-- The data of the word that one lane stores a part of is uncorrectable. -/
theorem test_spad_uncorrectable : ∃ r ∈ spadStoreRows, ∃ x sg c s, Clean r.op x sg c s ∧
    (∀ l ∈ lanesOf s c none, l.t.trapSlot = none ∧ (s.wgOf c.wg).thread l.tid = l.t ∧ l.lane < 64) ∧
    (∀ l ∈ lanesOf s c none, (Tab.find (s.wgOf c.wg).threads l.tid).isSome) ∧
    ∃ l ∈ actives s c x, InSpad (c.source s) r.size (spadOff x r.size l) ∧
      (s.wgOf c.wg).spadBad (spadOff x r.size l).toNat r.size true = true := by
  let s : State := sampleOf [(2, 6)] [] fun g => { g with spoilt := [.word 1] }
  have h : ∃ l ∈ actives s cur2 (args 8 2 0), (0 : Int) ≤ spadOff (args 8 2 0) 2 l ∧ spadOff (args 8 2 0) 2 l % (2 : Nat) = 0 ∧
      spadOff (args 8 2 0) 2 l + (2 : Nat) ≤ (cur2.source s).hdr.spad ∧
      (s.wgOf 0).spadBad (spadOff (args 8 2 0) 2 l).toNat 2 true = true := by decide +kernel
  obtain ⟨l, hl, h1, h2, h3, h4⟩ := h
  exact ⟨⟨0x19E, .stsN16, 2, false⟩, by simp [spadStoreRows], args 8 2 0, _, _, s, sample_clean (by decide +kernel), by decide +kernel,
    by decide +kernel, l, hl, ⟨h1, h2, h3⟩, h4⟩

theorem test_fences_issue : ∃ x sg c s, Clean 0x1B4 x sg c s ∧ NothingOwed s c ∧ x.b = 7 ∧ actives s c x ≠ [] :=
  ⟨args 4 0 7, _, _, _, base_clean (a := 1) (b := 1) (c := 1) (d := 1) (by decide +kernel), owed_of (by decide +kernel),
    by decide, by decide +kernel⟩
theorem test_fsc_issues : ∃ x sg c s, Clean 0x1B5 x sg c s ∧ NothingOwed s c ∧ actives s c x ≠ [] :=
  ⟨args 0 0 0, _, _, _, base_clean (a := 1) (b := 1) (c := 1) (d := 1) (by decide +kernel), owed_of (by decide +kernel),
    by decide +kernel⟩
theorem test_waddr_issues : ∀ op ∈ [0x1B6, 0x1B7], ∃ x sg c s, Clean op x sg c s ∧ (∀ l ∈ actives s c x, l.t.passed c.slot ≠ 0) ∧
    actives s c x ≠ [] := by
  let f (g : Workgroup) : Workgroup := { g with threads := Tab.map (fun _ t => { t with stage := 1 }) g.threads }
  have h : ∀ op ∈ [0x1B6, 0x1B7], cleanB op (args 8 2 4) (sampleOf [] [] f) = true := by decide +kernel
  exact fun op ho => ⟨_, _, _, _, sample_clean (h op ho), by decide +kernel, by decide +kernel⟩

/-! ### Seals, scalar memory, special registers -/

/-- s[2] = a version, s[3] = a range's base, s[4] = its length. -/
def sealState (v b n : Nat) : State := sampleOf [] [(2, BitVec.ofNat 64 v), (3, BitVec.ofNat 64 b), (4, BitVec.ofNat 64 n)]

theorem test_seal_issues : ∃ x sg c s h l, Clean 0x1B8 x sg c s ∧ NothingOwed s c ∧ OneHome s c h ∧ lowest s c x h = some l ∧
    ((l.h.readS x.d.toNat).toNat = 0xFFFF ∧ (l.h.readS x.a.toNat).toNat % 256 = 0 ∧ (l.h.readS x.b.toNat).toNat % 256 = 0 ∧
      0 < (l.h.readS x.b.toNat).toNat ∧ (l.h.readS x.b.toNat).toNat ≤ 2 ^ 32) := by
  have h := lowest_of (s := sealState 0xFFFF 0x4000 256) (x := args 2 3 4) (h := 0) (P := fun l => decide
    ((l.h.readS (args 2 3 4).d.toNat).toNat = 0xFFFF ∧ (l.h.readS (args 2 3 4).a.toNat).toNat % 256 = 0 ∧
    (l.h.readS (args 2 3 4).b.toNat).toNat % 256 = 0 ∧ 0 < (l.h.readS (args 2 3 4).b.toNat).toNat ∧
    (l.h.readS (args 2 3 4).b.toNat).toNat ≤ 2 ^ 32)) (by decide +kernel)
  obtain ⟨l, h1, h2⟩ := h
  exact ⟨_, _, _, _, 0, l, sample_clean (by decide +kernel), owed_of (by decide +kernel), oneHome_of (by decide +kernel), h1,
    of_decide_eq_true h2⟩
/-- The range is sealed when every thread's access to it is allowed. -/
def homedState : State := { sealState 7 0x4000 256 with homes := [(0, .die 1 9)] }
def sealedRange : State :=
  match homedState.sealRange (homedState.wgOf 0) (thr 0 []) 7 0x4000 256 with
  | (.ok t, _) => t
  | (.error _, s) => s
theorem test_seal_seals : sealedRange.seals.map (·.die) = [1] ∧ ∀ m ∈ actives homedState cur2 (args 2 3 4),
    homedState.sealRange (cur2.source homedState) m.t 7 0x4000 256 = (.ok sealedRange, homedState) ∧
    homedState.sealRange (homedState.wgOf 0) m.t 7 0x4000 256 = (.ok sealedRange, homedState) := by decide +kernel
/-- A run that an `unseal` with the same operands removes. -/
def runState : State := { sealState 7 0x4000 (2 ^ 32) with
  seals := [{ id := 3, die := 0, pa := 0x4000, len := 256, va := 0x4000, asid := 1, version := 7, total := 2 ^ 32 }] }
theorem test_unseal_issues : ∃ x sg c s h l r, Clean 0x1B9 x sg c s ∧ OneHome s c h ∧ lowest s c x h = some l ∧
    ((l.h.readS x.d.toNat).toNat ≤ 0xFFFF ∧ (l.h.readS x.a.toNat).toNat % 256 = 0 ∧ (l.h.readS x.b.toNat).toNat % 256 = 0 ∧
      0 < (l.h.readS x.b.toNat).toNat ∧ (l.h.readS x.b.toNat).toNat ≤ 2 ^ 32) ∧ (c.source s).ctx = (s.wgOf c.wg).ctx ∧
    s.seals.find? (fun r => r.asid == (s.wgOf c.wg).ctx.asid && r.version == (l.h.readS x.d.toNat).toNat &&
      r.va == l.h.readS x.a.toNat && r.total == (l.h.readS x.b.toNat).toNat) = some r := by
  have h := lowest_of (s := runState) (x := args 2 3 4) (h := 0) (P := fun l => decide
    ((l.h.readS (args 2 3 4).d.toNat).toNat ≤ 0xFFFF ∧ (l.h.readS (args 2 3 4).a.toNat).toNat % 256 = 0 ∧
    (l.h.readS (args 2 3 4).b.toNat).toNat % 256 = 0 ∧ 0 < (l.h.readS (args 2 3 4).b.toNat).toNat ∧
    (l.h.readS (args 2 3 4).b.toNat).toNat ≤ 2 ^ 32) && (runState.seals.find? (fun r => r.asid == (runState.wgOf 0).ctx.asid &&
      r.version == (l.h.readS (args 2 3 4).d.toNat).toNat &&
      r.va == l.h.readS (args 2 3 4).a.toNat && r.total == (l.h.readS (args 2 3 4).b.toNat).toNat)).isSome) (by decide +kernel)
  obtain ⟨l, h1, h2⟩ := h
  simp only [Bool.and_eq_true, decide_eq_true_eq] at h2
  obtain ⟨r, hr⟩ := Option.isSome_iff_exists.mp h2.2
  exact ⟨_, _, cur2, runState, 0, l, r, clean_of rfl rfl (by decide +kernel), oneHome_of (by decide +kernel), h1, h2.1,
    by decide +kernel, hr⟩

/-! ### Scalar memory and special registers -/

/-- An address at the end of what an offset of 63 elements reaches, for every size. -/
theorem test_scalar_loads_issue : ∀ r ∈ sldRows ++ sstRows, ∃ x sg c s h l pa, Clean r.op x sg c s ∧ OneHome s c h ∧
    lowest s c x h = some l ∧ (scalarBase x r.size l).toNat % r.size = 0 ∧ (scalarBase x r.size l).toNat < 2 ^ 48 ∧
    AllReach s c x (decide (0x037 ≤ r.op)) (scalarBase x r.size l) pa ∧ s.isBad pa = false ∧
    ∀ g ∈ [s.wgOf c.wg, c.source s], s.loadStops g.core g.ctx.asid pa r.size = none := by
  have h : ∀ r ∈ sldRows ++ sstRows, cleanB r.op (args 8 2 63) (base 1 1 0x4000 1) = true ∧
      (lowest (base 1 1 0x4000 1) cur2 (args 8 2 63) 0).any (fun l =>
        decide ((scalarBase (args 8 2 63) r.size l).toNat % r.size = 0 ∧ (scalarBase (args 8 2 63) r.size l).toNat < 2 ^ 48) &&
        reachAllB (base 1 1 0x4000 1) (args 8 2 63) (decide (0x037 ≤ r.op)) (scalarBase (args 8 2 63) r.size l)
          (0x4000 + 63 * r.size)) = true ∧
      ∀ g ∈ [(base 1 1 0x4000 1).wgOf 0, cur2.source (base 1 1 0x4000 1)],
        (base 1 1 0x4000 1).loadStops g.core g.ctx.asid (0x4000 + 63 * r.size) r.size = none := by decide +kernel
  intro r hr
  obtain ⟨h1, h2, h3⟩ := h r hr
  obtain ⟨l, hl, hp⟩ := lowest_of h2
  simp only [Bool.and_eq_true, decide_eq_true_eq] at hp
  exact ⟨_, _, _, _, 0, l, _, base_clean h1, oneHome_of (by decide +kernel), hl, hp.1.1, hp.1.2, reachAll_of hp.2, rfl, h3⟩
theorem test_argument_word_issues : ∃ x sg c s h l, Clean 0x018 x sg c s ∧ OneHome s c h ∧ lowest s c x h = some l ∧
    (scalarBase x 8 l).toNat % 8 = 0 ∧ (scalarBase x 8 l).toNat = (c.source s).argLen - 8 ∧ 8 ≤ (c.source s).argLen := by
  have h := lowest_of (s := base 1 1 56 1) (x := args 8 2 0) (h := 0) (P := fun l =>
    decide ((scalarBase (args 8 2 0) 8 l).toNat % 8 = 0 ∧ (scalarBase (args 8 2 0) 8 l).toNat = 56)) (by decide +kernel)
  obtain ⟨l, hl, hp⟩ := h
  have hp := of_decide_eq_true hp
  exact ⟨_, _, _, _, 0, l, base_clean (by decide +kernel), oneHome_of (by decide +kernel), hl, hp.1, hp.2, by decide +kernel⟩

/-- Every special register, into v[8] or the pair from it. -/
theorem test_rdsr_issues : ∀ n ∈ List.range 20, ∃ x sg c s, Clean 0x016 x sg c s ∧ x.a.toNat = n ∧ actives s c x ≠ [] := by
  have h : ∀ n ∈ List.range 20, cleanB 0x016 (args 8 n 0) (base 1 1 1 1) = true ∧ (args 8 n 0).a.toNat = n ∧
      actives (base 1 1 1 1) cur2 (args 8 n 0) ≠ [] := by decide +kernel
  exact fun n hn => ⟨_, _, _, _, base_clean (h n hn).1, (h n hn).2.1, (h n hn).2.2⟩
theorem test_wrsr_issues : ∀ n ∈ [13, 14, 16, 19], ∃ x sg c s, Clean 0x017 x sg c s ∧ x.d.toNat = n ∧
    (∀ l ∈ actives s c x, 1 ≤ (l.t.readV x.a.toNat).toNat ∧ (l.t.readV x.a.toNat).toNat ≤ 6) ∧ actives s c x ≠ [] := by
  have h : ∀ n ∈ [13, 14, 16, 19], cleanB 0x017 (args n 2 0) (base 1 6 1 1) = true ∧ (args n 2 0).d.toNat = n ∧
      (∀ l ∈ actives (base 1 6 1 1) cur2 (args n 2 0), 1 ≤ (l.t.readV (args n 2 0).a.toNat).toNat ∧
        (l.t.readV (args n 2 0).a.toNat).toNat ≤ 6) ∧ actives (base 1 6 1 1) cur2 (args n 2 0) ≠ [] := by decide +kernel
  exact fun n hn => ⟨_, _, _, _, base_clean (h n hn).1, (h n hn).2.1, (h n hn).2.2.1, (h n hn).2.2.2⟩
/-- `%faultm` of a 64-lane home warp takes a pair: v[8] will do, v[9] will not. -/
def wideWarp : Workgroup := { wg2 [(2, 3)] [(2, 3)] [] with hdr := { width := 64, vregs := 64, depth := 4, tiles := 4, spad := 4096, len := 5 } }
theorem test_wide_faultm : (wideWarp.sig 0x016 (args 8 16 0)).any (fun sg => (lanesOf (stateOf wideWarp) cur2 none).all fun l =>
      (formCause wideWarp 0x016 sg (args 8 16 0) 0 cur2 l).isNone) = true ∧
    (wideWarp.sig 0x016 (args 9 16 0)).any (fun sg => (lanesOf (stateOf wideWarp) cur2 none).all fun l =>
      (formCause wideWarp 0x016 sg (args 9 16 0) 0 cur2 l) == some (0x01, 0)) = true := by decide +kernel

/-! ### Meetings, masks, ends -/

theorem test_meet_issues : ∃ x sg c s, Clean 0x045 x sg c s ∧ (∀ l ∈ actives s c x, (operand 0x045 sg x l .b).toNat < 2 ^ 27 ∧
      (operand 0x045 sg x l .b).toNat < (c.source s).codeLen l.t ∧ l.t.depth ≠ (c.source s).hdr.depth) ∧ actives s c x ≠ [] :=
  ⟨args 6 0 2, _, _, _, base_clean (a := 1) (b := 1) (c := 4) (d := 1) (by decide +kernel), by decide +kernel, by decide +kernel⟩
theorem test_mask_instructions_issue : ∀ p ∈ ([(0x046, args 6 0 0), (0x047, args 6 0 0), (0x04B, args 6 6 0), (0x04C, args 0 0 0),
    (0x048, args 0 0 0), (0x049, args 0 2 3)] : List (Nat × Args)), ∃ x sg c s, Clean p.1 x sg c s ∧ NothingOwed s c ∧ actives s c x ≠ [] := by
  have h : ∀ p ∈ ([(0x046, args 6 0 0), (0x047, args 6 0 0), (0x04B, args 6 6 0), (0x04C, args 0 0 0),
      (0x048, args 0 0 0), (0x049, args 0 2 3)] : List (Nat × Args)), cleanB p.1 p.2 (base 1 1 1 1) = true ∧
      actives (base 1 1 1 1) cur2 p.2 ≠ [] := by decide +kernel
  exact fun p hp => ⟨_, _, _, _, base_clean (h p hp).1, owed_of (by decide +kernel), (h p hp).2⟩

/-- An idle block at 0x4100 of a registered table of the same context. -/
def spawnState : State := { sampleOf [] [(2, 0x4100)] with
  tables := [(9, { base := 0x4000, len := 512, ctx := { asid := 1, root := 0x1000 } })] }
theorem test_spawn_issues : ∃ x sg c s h l pa t, Clean 0x04A x sg c s ∧ NothingOwed s c ∧ OneHome s c h ∧ lowest s c x h = some l ∧
    (c.source s).ctx = (s.wgOf c.wg).ctx ∧ (l.h.readS x.a.toNat).toNat % 256 = 0 ∧ (l.h.readS x.a.toNat).toNat < 2 ^ 48 ∧
    AllReach s c x true (l.h.readS x.a.toNat) pa ∧ s.tableFor (s.wgOf c.wg).ctx (l.h.readS x.a.toNat).toNat = some t ∧
    t.deregistering = false ∧ s.natAt pa 4 = 0 ∧ s.isBad pa = false := by
  have h := lowest_of (s := spawnState) (x := args 0 2 0) (h := 0) (P := fun l =>
    decide ((l.h.readS (args 0 2 0).a.toNat).toNat % 256 = 0 ∧ (l.h.readS (args 0 2 0).a.toNat).toNat < 2 ^ 48) &&
    reachAllB spawnState (args 0 2 0) true (l.h.readS (args 0 2 0).a.toNat) 0x4100 &&
    (spawnState.tableFor (spawnState.wgOf 0).ctx (l.h.readS (args 0 2 0).a.toNat).toNat).any fun t => !t.deregistering)
    (by decide +kernel)
  obtain ⟨l, hl, hp⟩ := h
  simp only [Bool.and_eq_true, decide_eq_true_eq] at hp
  obtain ⟨t, ht, hd⟩ := Option.any_eq_true _ _ |>.mp hp.2
  exact ⟨_, _, cur2, spawnState, 0, l, 0x4100, t, clean_of rfl rfl (by decide +kernel), owed_of (by decide +kernel),
    oneHome_of (by decide +kernel), hl, rfl, hp.1.1.1, hp.1.1.2, reachAll_of hp.1.2, ht, by simpa using hd, by decide +kernel, rfl⟩

/-! ### Barriers -/

/-- s[2] = an offset, s[3] = a count; the word at the offset expects `e` arrivals and has had `n`. -/
def phaseState (off b e n stage : Nat) (surplus : Bool) : State := sampleOf [] [(2, BitVec.ofNat 64 off), (3, BitVec.ofNat 64 b)]
  fun g => { g with
    hdr := { g.hdr with surplus }, threads := Tab.map (fun _ t => { t with stage }) g.threads
    spad := [(off, BitVec.ofNat 8 e), (off + 1, BitVec.ofNat 8 (e / 256)), (off + 2, BitVec.ofNat 8 n), (off + 3, BitVec.ofNat 8 (n / 256))] }

/-- The group has been gathered by its release. -/
def gatheredCur : Cur := { cur2 with gathered := true }
def gatheredState : State := { base 1 1 1 1 with cur := some gatheredCur }
theorem test_bar_issues : ∀ b ∈ [0, 16, 24], ∃ x sg c s, Clean 0x1C0 x sg c s ∧ NothingOwed s c ∧ x.b = BitVec.ofNat 7 b ∧
    actives s c x ≠ [] := by
  have h : ∀ b ∈ [0, 16, 24], cleanB 0x1C0 (if b = 0 then args 0 0 0 else args 8 2 b) (base 1 1 1 1) = true ∧
      (if b = 0 then args 0 0 0 else args 8 2 b).b = BitVec.ofNat 7 b ∧
      actives (base 1 1 1 1) cur2 (if b = 0 then args 0 0 0 else args 8 2 b) ≠ [] := by decide +kernel
  exact fun b hb => ⟨_, _, _, _, base_clean (h b hb).1, owed_of (by decide +kernel), (h b hb).2⟩
theorem test_gbar_issues : ∃ x sg c s, Clean 0x1C1 x sg c s ∧ NothingOwed s c ∧ (c.source s).hdr.gbar = true ∧
    (c.source s).byTail = false ∧ c.gathered = false ∧ actives s c x ≠ [] :=
  ⟨args 0 0 0, _, cur2, _, base_clean (a := 1) (b := 1) (c := 1) (d := 1) (by decide +kernel), owed_of (by decide +kernel),
    by decide +kernel, by decide +kernel, rfl, by decide +kernel⟩
theorem test_gbar_released : ∃ x sg c s, Clean 0x1C1 x sg c s ∧ NothingOwed s c ∧ (c.source s).hdr.gbar = true ∧
    (c.source s).byTail = false ∧ c.gathered = true ∧ actives s c x ≠ [] :=
  ⟨args 0 0 0, sgOf 0x1C1 (args 0 0 0), gatheredCur, gatheredState,
    { cur := rfl, clear := .inl rfl, form := rfl, once := by decide, here := by decide +kernel
      one := by simp [gatheredState, base, stateOf, State.wgOf, Tab.get, Tab.find, gatheredCur, cur2], hdr := rfl
      homes := by decide +kernel, good := by decide +kernel },
    by unfold NothingOwed; decide +kernel, by decide +kernel, by decide +kernel, rfl, by decide +kernel⟩

theorem test_phase_words_issue : ∀ q ∈ ([(0x1C2, args 0 2 3), (0x1C3, args 8 2 3), (0x1C5, args 8 2 3), (0x1C4, args 0 2 3)] :
    List (Nat × Args)), ∃ x sg c s h l, OneHome s c h ∧ lowest s c x h = some l ∧ Clean q.1 x sg c s ∧ NothingOwed s c ∧
    (l.h.readS x.a.toNat).toNat % 8 = 0 ∧ (l.h.readS x.a.toNat).toNat + 8 = (s.wgOf c.wg).hdr.spad ∧
    (l.h.readS x.b.toNat).toNat = 65535 ∧ pbOk (BitVec.ofNat 64 ((s.wgOf c.wg).spadRead (l.h.readS x.a.toNat).toNat 8)) = true ∧
    (s.wgOf c.wg).hdr.surplus = false ∧ (s.wgOf c.wg).spadBad (l.h.readS x.a.toNat).toNat 8 false = false ∧
    ∀ m ∈ actives s c x, m.t.passed c.slot ≠ 0 := by
  have h : ∀ q ∈ ([(0x1C2, args 0 2 3), (0x1C3, args 8 2 3), (0x1C5, args 8 2 3), (0x1C4, args 0 2 3)] : List (Nat × Args)),
      cleanB q.1 q.2 (phaseState 4088 65535 3 2 1 false) = true ∧
      (lowest (phaseState 4088 65535 3 2 1 false) cur2 q.2 0).any (fun l => decide ((l.h.readS q.2.a.toNat).toNat % 8 = 0 ∧
        (l.h.readS q.2.a.toNat).toNat + 8 = ((phaseState 4088 65535 3 2 1 false).wgOf 0).hdr.spad ∧
        (l.h.readS q.2.b.toNat).toNat = 65535 ∧
        pbOk (BitVec.ofNat 64 (((phaseState 4088 65535 3 2 1 false).wgOf 0).spadRead (l.h.readS q.2.a.toNat).toNat 8)) = true)) = true ∧
      ∀ m ∈ actives (phaseState 4088 65535 3 2 1 false) cur2 q.2, m.t.passed cur2.slot ≠ 0 := by decide +kernel
  intro q hq
  obtain ⟨h1, h2, h3⟩ := h q hq
  obtain ⟨l, hl, hp⟩ := lowest_of h2
  have hp := of_decide_eq_true hp
  exact ⟨_, _, _, _, 0, l, oneHome_of (by decide +kernel), hl, sample_clean h1, owed_of (by decide +kernel), hp.1, hp.2.1, hp.2.2.1,
    hp.2.2.2, rfl, rfl, h3⟩
theorem test_phase_arrival : ∀ n ∈ [1, 2, 3], ∃ exp arr ph sur : Nat, 0 < exp ∧ exp < 2 ^ 16 ∧ arr < exp ∧ ph < 2 ∧ sur < 2 ∧ 0 < n ∧
    n < 2 ^ 16 ∧ (arr + n < exp ↔ n = 1) ∧ (exp < arr + n ↔ n = 3) := by
  intro n hn
  exact ⟨5, 3, 1, 1, by simp at hn; omega⟩
theorem test_surplus_traps : ∃ x sg c s h l, OneHome s c h ∧ lowest s c x h = some l ∧ Clean 0x1C3 x sg c s ∧ NothingOwed s c ∧
    (l.h.readS x.a.toNat).toNat % 8 = 0 ∧ (l.h.readS x.a.toNat).toNat + 8 ≤ (s.wgOf c.wg).hdr.spad ∧
    (l.h.readS x.b.toNat).toNat = 2 ∧
    pbOk (BitVec.ofNat 64 ((s.wgOf c.wg).spadRead (l.h.readS x.a.toNat).toNat 8)) = true ∧
    (arriveWord (BitVec.ofNat 64 ((s.wgOf c.wg).spadRead (l.h.readS x.a.toNat).toNat 8)) (l.h.readS x.b.toNat).toNat).2 = true ∧
    (s.wgOf c.wg).hdr.surplus = true ∧ (s.wgOf c.wg).spadBad (l.h.readS x.a.toNat).toNat 8 false = false := by
  have h := lowest_of (s := phaseState 16 2 3 2 0 true) (x := args 8 2 3) (h := 0) (P := fun l => decide
    ((l.h.readS (args 8 2 3).a.toNat).toNat % 8 = 0 ∧
    (l.h.readS (args 8 2 3).a.toNat).toNat + 8 ≤ ((phaseState 16 2 3 2 0 true).wgOf 0).hdr.spad ∧
    (l.h.readS (args 8 2 3).b.toNat).toNat = 2 ∧
    pbOk (BitVec.ofNat 64 (((phaseState 16 2 3 2 0 true).wgOf 0).spadRead (l.h.readS (args 8 2 3).a.toNat).toNat 8)) = true ∧
    (arriveWord (BitVec.ofNat 64 (((phaseState 16 2 3 2 0 true).wgOf 0).spadRead (l.h.readS (args 8 2 3).a.toNat).toNat 8))
      (l.h.readS (args 8 2 3).b.toNat).toNat).2 = true)) (by decide +kernel)
  obtain ⟨l, hl, hp⟩ := h
  have hp := of_decide_eq_true hp
  exact ⟨_, _, _, _, 0, l, oneHome_of (by decide +kernel), hl, sample_clean (by decide +kernel),
    owed_of (by decide +kernel), hp.1, hp.2.1, hp.2.2.1, hp.2.2.2.1, hp.2.2.2.2, rfl, rfl⟩

/-! ### Channels -/

/-- A descriptor of 8 elements of 4 bytes at 256: kind 1, element size code 0, depth code 3 (R168). -/
def desc8 : W64 := 1 + 3 * 2 ^ 8 + 256 * 2 ^ 32
def chan8 : Chan := { chanOf desc8 with head := 2, tail := 4 }
/-- s[2] = a descriptor or a number of a channel, s[3] = a channel's number; channels as given. -/
def chanState (a b : W64) (chans : Tab Chan) : State := sampleOf [(6, 3)] [(2, a), (3, b)] fun g => { g with chans }

theorem test_chbind_issues : ∀ bound : Bool, ∃ x sg c s h l, OneHome s c h ∧ lowest s c x h = some l ∧ Clean 0x1C6 x sg c s ∧
    (l.h.readS x.b.toNat).toNat = 30 ∧ descOk (l.h.readS x.a.toNat) = true ∧ (chanOf (l.h.readS x.a.toNat)).base % 16 = 0 ∧
    (chanOf (l.h.readS x.a.toNat)).base + (chanOf (l.h.readS x.a.toNat)).depth * (chanOf (l.h.readS x.a.toNat)).bytes ≤
      (s.wgOf c.wg).hdr.spad ∧ (Tab.find (s.wgOf c.wg).chans 30).isSome = bound := by
  intro bound
  let s (b : Bool) : State := chanState desc8 30 (if b then [(30, chan8)] else [])
  have h : ∀ b : Bool, cleanB 0x1C6 (args 8 2 3) (s b) = true ∧ oneHomeB (s b) 0 = true ∧
      (lowest (s b) cur2 (args 8 2 3) 0).any (fun l => decide ((l.h.readS (args 8 2 3).b.toNat).toNat = 30 ∧
        descOk (l.h.readS (args 8 2 3).a.toNat) = true ∧ (chanOf (l.h.readS (args 8 2 3).a.toNat)).base % 16 = 0 ∧
        (chanOf (l.h.readS (args 8 2 3).a.toNat)).base + (chanOf (l.h.readS (args 8 2 3).a.toNat)).depth *
          (chanOf (l.h.readS (args 8 2 3).a.toNat)).bytes ≤ ((s b).wgOf 0).hdr.spad ∧
        (Tab.find ((s b).wgOf 0).chans 30).isSome = b)) = true := by decide +kernel
  obtain ⟨h1, h2, h3⟩ := h bound
  obtain ⟨l, hl, hp⟩ := lowest_of h3
  exact ⟨_, _, cur2, _, 0, l, oneHome_of h2, hl, sample_clean h1, of_decide_eq_true hp⟩
theorem test_chfree_issues : ∀ op ∈ [0x1C7, 0x1C8], ∀ bound : Bool, ∃ x sg c s h l, OneHome s c h ∧ lowest s c x h = some l ∧
    Clean op x sg c s ∧ (l.h.readS x.a.toNat).toNat = 30 ∧ (s.wgOf c.wg).chanAwaited 30 = false ∧
    (Tab.find (s.wgOf c.wg).chans 30).isSome = bound := by
  intro op ho bound
  let s (b : Bool) : State := chanState 30 0 (if b then [(30, chan8)] else [])
  have h : ∀ op ∈ [0x1C7, 0x1C8], ∀ b : Bool, cleanB op (args 8 2 0) (s b) = true ∧ oneHomeB (s b) 0 = true ∧
      (lowest (s b) cur2 (args 8 2 0) 0).any (fun l => decide ((l.h.readS (args 8 2 0).a.toNat).toNat = 30)) = true ∧
      ((s b).wgOf 0).chanAwaited 30 = false ∧ (Tab.find ((s b).wgOf 0).chans 30).isSome = b := by decide +kernel
  obtain ⟨h1, h2, h3, h4⟩ := h op ho bound
  obtain ⟨l, hl, hp⟩ := lowest_of h3
  exact ⟨_, _, cur2, _, 0, l, oneHome_of h2, hl, sample_clean h1, of_decide_eq_true hp, h4⟩

/-- `vmov` with channel 30 as its B (popped, or peeked) or its D; both elements are there, or one, or none. -/
theorem test_channel_moves : ∀ p ∈ ([(64 + 30, 8, 4), (64 + 32 + 30, 8, 4), (64 + 30, 8, 3), (64 + 30, 8, 2), (6, 64 + 30, 4), (6, 64 + 30, 8)] :
    List (Nat × Nat × Nat)), ∃ x sg c s ch, Moves x sg c s 30 ch ∧ actives s c x ≠ [] ∧
      fieldChan sg x .b = (if p.1 = 6 then none else some (30, decide (96 ≤ p.1))) ∧
      fieldChan sg x .d = (if p.1 = 6 then some (30, false) else none) ∧ ch.tail = p.2.2 ∧
      (p.1 = 6 → ch.tail - ch.head + (actives s c x).length ≤ ch.depth) ∧ (p.2.2 = 4 → ∀ r < 2, (elementFor s c 30 (ch.head + r)).isSome) ∧
      (p.2.2 < 4 → elementFor s c 30 (ch.head + 1) = none) := by
  let ch (p : Nat × Nat × Nat) : Chan := { chan8 with tail := p.2.2 }
  let s (p : Nat × Nat × Nat) : State := chanState 0 0 [(30, ch p)]
  let x (p : Nat × Nat × Nat) : Args := args p.2.1 0 p.1
  have h : ∀ p ∈ ([(64 + 30, 8, 4), (64 + 32 + 30, 8, 4), (64 + 30, 8, 3), (64 + 30, 8, 2), (6, 64 + 30, 4), (6, 64 + 30, 8)] :
      List (Nat × Nat × Nat)), cleanB 0x09E (x p) (s p) = true ∧
      (∀ l ∈ lanesOf (s p) cur2 (x p).ctl.pfx,
        formCause ((s p).wgOf cur2.wg) 0x09E (sgOf 0x09E (x p)) (x p) (actives (s p) cur2 (x p)).length cur2 l = none) ∧
      actives (s p) cur2 (x p) ≠ [] ∧ fieldChan (sgOf 0x09E (x p)) (x p) .b = (if p.1 = 6 then none else some (30, decide (96 ≤ p.1))) ∧
      fieldChan (sgOf 0x09E (x p)) (x p) .d = (if p.1 = 6 then some (30, false) else none) ∧
      (p.1 = 6 → (ch p).tail - (ch p).head + (actives (s p) cur2 (x p)).length ≤ (ch p).depth) ∧
      (p.2.2 = 4 → ∀ r < 2, (elementFor (s p) cur2 30 ((ch p).head + r)).isSome) ∧
      (p.2.2 < 4 → elementFor (s p) cur2 30 ((ch p).head + 1) = none) ∧
      (ch p).tail - (ch p).head ≤ (ch p).depth ∧ (ch p).head ≤ (ch p).tail := by decide +kernel
  intro p hp
  obtain ⟨h1, h2, h3, h4, h5, h6, h7, h8, h9, h10⟩ := h p hp
  have hm : Moves (x p) (sgOf 0x09E (x p)) cur2 (s p) 30 (ch p) :=
    { toIssuing := (sample_clean h1).toIssuing
      good := h2
      bound := rfl
      room := h9
      order := h10
      past := by intro i hi; cases hi }
  exact ⟨x p, _, cur2, s p, ch p, hm, h3, h4, h5, rfl, h6, h7, h8⟩

/-! ### The matrix array -/

/-- v[2] = an offset, v[6] = v[12] = a format word, v[13] = a scale record's offset; s[2] = s[3] = a generation; the array holds
generation 1 of the format, the scratchpad a scale record at 16. -/
def mxState (off fmt gen : Nat) (bound : Bool) : State :=
  sampleOf [(2, BitVec.ofNat 32 off), (6, BitVec.ofNat 32 fmt), (12, BitVec.ofNat 32 fmt), (13, 16), (14, 16)]
    [(2, BitVec.ofNat 64 gen), (3, BitVec.ofNat 64 gen)] fun g => { g with
      hdr := { g.hdr with spad := 8192 }, spad := [(16, 64), (20, 64)]
      matrix := if bound then some { g := 1, fmts := [(1, BitVec.ofNat 32 fmt)] } else none }

theorem test_mst_issues : ∀ p ∈ ([(0, args 8 2 6), (0x20603, argsF 8 2 6 13)] : List (Nat × Args)), ∃ x sg c s l rest,
    Clean 0x1D0 x sg c s ∧ actives s c x = l :: rest ∧ NoCause s c sg x (mstCause x) ∧
    (((fmtWord? (l.t.readV x.b.toNat)).any fun f => f.scale != 0 && f.b.is8) = decide (p.1 ≠ 0)) ∧
    (p.1 ≠ 0 → x.ctl.pfx.isSome ∧ (s.wgOf c.wg).scaleRecOk (fVal x l).toNat true = true) := by
  have h : ∀ p ∈ ([(0, args 8 2 6), (0x20603, argsF 8 2 6 13)] : List (Nat × Args)),
      cleanB 0x1D0 p.2 (mxState 4096 p.1 1 true) = true ∧
      (∀ l ∈ actives (mxState 4096 p.1 1 true) cur2 p.2,
        mstCause p.2 (mxState 4096 p.1 1 true) cur2 (sgOf 0x1D0 p.2) (actives (mxState 4096 p.1 1 true) cur2 p.2) l = none) ∧
      ∀ l ∈ actives (mxState 4096 p.1 1 true) cur2 p.2,
        ((fmtWord? (l.t.readV p.2.b.toNat)).any fun f => f.scale != 0 && f.b.is8) = decide (p.1 ≠ 0) ∧
        (p.1 ≠ 0 → p.2.ctl.pfx.isSome ∧ ((mxState 4096 p.1 1 true).wgOf 0).scaleRecOk (fVal p.2 l).toNat true = true) := by decide +kernel
  intro p hp
  obtain ⟨h1, h2, h3⟩ := h p hp
  have ha : ∃ l rest, actives (mxState 4096 p.1 1 true) cur2 p.2 = l :: rest := by
    rcases List.mem_cons.mp hp with rfl | hp
    · exact ⟨_, _, rfl⟩
    · rcases List.mem_cons.mp hp with rfl | hp
      · exact ⟨_, _, rfl⟩
      · cases hp
  obtain ⟨l, rest, ha⟩ := ha
  exact ⟨_, _, cur2, _, l, rest, sample_clean h1, ha, h2, h3 l (by rw [ha]; exact List.mem_cons_self)⟩
theorem test_mflip_issues : ∃ x sg c s l rest, Clean 0x1D1 x sg c s ∧ actives s c x = l :: rest ∧ s.arrayFree c.wg = true ∧
    (l.h.readS x.a.toNat).toNat = 1 ∧ 1 ≤ ((s.wgOf c.wg).matrix.getD {}).g :=
  ⟨args 0 2 0, _, cur2, mxState 0 0 1 true, _, _, sample_clean (by decide +kernel), rfl, by decide +kernel, by decide +kernel,
    by decide +kernel⟩
theorem test_mma_issues : ∀ scaled : Bool, ∃ x sg c s, Clean (if scaled then 0x1D3 else 0x1D2) x sg c s ∧ actives s c x ≠ [] ∧
    NoCause s c sg x (mmaCause x scaled) ∧ ∀ l ∈ actives s c x, (mmaIll x scaled).at_ s c sg x l = false := by
  have h : ∀ scaled : Bool, cleanB (if scaled then 0x1D3 else 0x1D2) (argsF 3 2 3 12) (mxState 4096 (if scaled then 0x20603 else 0) 1 true) = true ∧
      actives (mxState 4096 (if scaled then 0x20603 else 0) 1 true) cur2 (argsF 3 2 3 12) ≠ [] ∧
      (∀ l ∈ actives (mxState 4096 (if scaled then 0x20603 else 0) 1 true) cur2 (argsF 3 2 3 12),
        mmaCause (argsF 3 2 3 12) scaled (mxState 4096 (if scaled then 0x20603 else 0) 1 true) cur2
          (sgOf (if scaled then 0x1D3 else 0x1D2) (argsF 3 2 3 12))
          (actives (mxState 4096 (if scaled then 0x20603 else 0) 1 true) cur2 (argsF 3 2 3 12)) l = none) ∧
      ∀ l ∈ actives (mxState 4096 (if scaled then 0x20603 else 0) 1 true) cur2 (argsF 3 2 3 12),
        (mmaIll (argsF 3 2 3 12) scaled).at_ (mxState 4096 (if scaled then 0x20603 else 0) 1 true) cur2
          (sgOf (if scaled then 0x1D3 else 0x1D2) (argsF 3 2 3 12)) (argsF 3 2 3 12) l = false := by decide +kernel
  exact fun b => ⟨_, _, cur2, _, sample_clean (h b).1, (h b).2.1, (h b).2.2.1, (h b).2.2.2⟩
theorem test_mzero_issues : ∃ x sg c s, Clean 0x1D4 x sg c s ∧ actives s c x ≠ [] :=
  ⟨args 3 0 0, _, cur2, mxState 0 0 1 true, sample_clean (by decide +kernel), by decide +kernel⟩
theorem test_mdr_issues : ∃ x sg c s, Clean 0x1D5 x sg c s ∧ actives s c x ≠ [] ∧
    ∀ l ∈ actives s c x, (fmtWord? (fVal x l)).isSome ∧ (∀ m ∈ octetLanes (actives s c x) l, fVal x m = fVal x l) ∧
      (l.t.readV x.a.toNat).toNat % 16 = 0 ∧ ∀ f, fmtWord? (fVal x l) = some f →
        (l.t.readV x.a.toNat).toNat + 64 * drainBytes f (x.b.toNat % 4) ≤ (s.wgOf c.wg).hdr.spad := by
  have h : cleanB 0x1D5 (argsF 3 2 0 12) (mxState 4096 0 1 true) = true ∧
      ∀ l ∈ actives (mxState 4096 0 1 true) cur2 (argsF 3 2 0 12), (fmtWord? (fVal (argsF 3 2 0 12) l)).isSome ∧
        (∀ m ∈ octetLanes (actives (mxState 4096 0 1 true) cur2 (argsF 3 2 0 12)) l, fVal (argsF 3 2 0 12) m = fVal (argsF 3 2 0 12) l) ∧
        (l.t.readV (argsF 3 2 0 12).a.toNat).toNat % 16 = 0 ∧ (fmtWord? (fVal (argsF 3 2 0 12) l)).all fun f =>
          decide ((l.t.readV (argsF 3 2 0 12).a.toNat).toNat + 64 * drainBytes f ((argsF 3 2 0 12).b.toNat % 4) ≤
            ((mxState 4096 0 1 true).wgOf 0).hdr.spad) := by decide +kernel
  refine ⟨_, _, cur2, _, sample_clean h.1, by decide +kernel, fun l hl => ?_⟩
  obtain ⟨h1, h2, h3, h4⟩ := h.2 l hl
  refine ⟨h1, h2, h3, fun f hf => ?_⟩
  rw [hf] at h4
  exact of_decide_eq_true h4
theorem test_mbyp_issues : ∃ x sg c s, Clean 0x1D7 x sg c s ∧ actives s c x ≠ [] ∧
    ∀ l ∈ actives s c x, (fmtWord? (fVal x l)).isSome ∧ ∀ m ∈ octetLanes (actives s c x) l, fVal x m = fVal x l :=
  ⟨argsF 3 0 0 12, _, cur2, mxState 0 0 1 true, sample_clean (by decide +kernel), by decide +kernel, by decide +kernel⟩
theorem test_mdrv_issues : ∃ x sg c s, Clean 0x1D6 x sg c s ∧ x.z = false ∧
    (∀ l ∈ actives s c x, mdrvCause (c.source s) sg x c (actives s c x) l = none) ∧ actives s c x ≠ [] :=
  ⟨argsF 16 3 0 12, _, cur2, mxState 0 0 1 true, sample_clean (by decide +kernel), rfl, by decide +kernel, by decide +kernel⟩
theorem test_mvote_issues : ∃ x sg c s, Clean 0x1D8 x sg c s ∧ actives s c x ≠ [] :=
  ⟨args 3 2 0, _, cur2, mxState 0 0 1 true, sample_clean (by decide +kernel), by decide +kernel⟩
theorem test_mstat_issues : ∀ n ∈ List.range 5, ∃ x sg c s, Clean 0x1D9 x sg c s ∧
    (∀ l ∈ actives s c x, (l.h.readS x.a.toNat).toNat = n) ∧ actives s c x ≠ [] := by
  have h : ∀ n ∈ List.range 5, cleanB 0x1D9 (args 8 2 0) (mxState 0 0 n true) = true ∧
    (∀ l ∈ actives (mxState 0 0 n true) cur2 (args 8 2 0), (l.h.readS (args 8 2 0).a.toNat).toNat = n) ∧
    actives (mxState 0 0 n true) cur2 (args 8 2 0) ≠ [] := by decide +kernel
  exact fun n hn => ⟨_, _, cur2, _, sample_clean (h n hn).1, (h n hn).2⟩

/-! ### Engine commands -/

theorem freeSlots_some {s : State} {core : Nat} (h : (s.handlesUsed core) = []) : s.freeSlots core ≠ [] := by
  intro he
  have : 0 ∈ s.freeSlots core := by simp [State.freeSlots, h]
  rw [he] at this
  cases this
theorem test_commands_issue : ∀ op ∈ (commandRows.map (·.op)) ++ [0x1EA], ∃ x sg c s l rest, Clean op x sg c s ∧ actives s c x = l :: rest ∧
    (l.t.readV x.a.toNat).toNat % 64 = 0 ∧ (l.t.readV x.a.toNat).toNat + 64 = (s.wgOf c.wg).hdr.spad ∧
    (∀ m, Spoilt.word m ∉ (s.wgOf c.wg).spoilt) ∧ s.freeSlots (s.wgOf c.wg).core ≠ [] ∧ s.arrayFree c.wg = true := by
  have h : ∀ op ∈ (commandRows.map (·.op)) ++ [0x1EA], cleanB op (args 8 2 6) (mxState 8128 0 0 false) = true := by decide +kernel
  exact fun op ho => ⟨_, _, cur2, _, _, _, sample_clean (h op ho), rfl, by decide +kernel, by decide +kernel,
    fun _ => List.not_mem_nil, freeSlots_some (by decide +kernel), by decide +kernel⟩
theorem test_handles_issue : ∀ p ∈ ([(0x1ED, args 0 2 0), (0x1EE, args 0 2 0), (0x1EF, args 8 2 0)] : List (Nat × Args)),
    ∃ x sg c s, Clean p.1 x sg c s ∧ actives s c x ≠ [] := by
  have h : ∀ p ∈ ([(0x1ED, args 0 2 0), (0x1EE, args 0 2 0), (0x1EF, args 8 2 0)] : List (Nat × Args)),
      cleanB p.1 p.2 (base 5 5 5 5) = true ∧ actives (base 5 5 5 5) cur2 p.2 ≠ [] := by decide +kernel
  exact fun p hp => ⟨_, _, _, _, base_clean (h p hp).1, (h p hp).2⟩

/-! ### Address faults -/

/-- One lane misaligned, one beyond the address space. -/
theorem test_address_faults : ∀ r ∈ loadRows ++ storeRows ++ homeLoadRows, ∃ x sg c s, Clean r.op x sg c s ∧ NothingOwed s c ∧
    (∀ l ∈ actives s c x, (r.addr x r.size l).toNat % r.size ≠ 0 ∨ 2 ^ 48 ≤ (r.addr x r.size l).toNat) ∧
    (∀ l ∈ lanesOf s c none, (s.thread c.wg l.tid).trapSlot = none ∧ l.lane < 64) ∧ actives s c x ≠ [] := by
  let s : State := sampleOf [(2, 0x4003), (3, 0x10000)] [(2, 0x1000000000003)]
  have h : ∀ r ∈ loadRows ++ storeRows ++ homeLoadRows, cleanB r.op (args 8 2 0) s = true ∧
      ∀ l ∈ actives s cur2 (args 8 2 0), (r.addr (args 8 2 0) r.size l).toNat % r.size ≠ 0 ∨
        2 ^ 48 ≤ (r.addr (args 8 2 0) r.size l).toNat := by decide +kernel
  exact fun r hr => ⟨_, _, cur2, _, sample_clean (h r hr).1, owed_of (by decide +kernel), (h r hr).2, by decide +kernel,
    by decide +kernel⟩

/-! ### The ends of waits -/

/-- The two threads of a sample held, with mask 5 naming both and entries on their stacks. -/
def held (h0 h1 : Hold) (f : Workgroup → Workgroup := id) : State :=
  sampleOf [] [] fun g => f { g with
    threads := [(0, { thr 0 [] with hold := h0, depth := 1, meet := 7 }), (1, { thr 1 [] with hold := h1 })]
    hwarps := [(0, { k := [(5, 3)] })] }
theorem numbered_of {s : State} (h : Tab.sorted s.wgs = true ∧
    (∀ p ∈ s.wgs, Tab.sorted p.2.threads = true ∧ ∀ q ∈ p.2.threads, q.2.tid = q.1 ∧ p.2.home q.1 < 128) ∧
    ∀ p ∈ s.regions, p.2.ending = none → p.2.hdr.hwarps ≤ 128) : s.Numbered := h
theorem isThread_of {s : State} {w i : Nat} {f : Thread → Prop} {p : Thread → Bool} (hp : ∀ u, p u = true → f u)
    (h : (Tab.find (s.wgOf w).threads i).any p = true) : IsThread s w f i := by
  obtain ⟨u, h1, h2⟩ := Option.any_eq_true _ _ |>.mp h
  exact ⟨u, h1, hp u h2⟩
theorem maskWithin_of {s : State} {w h mask : Nat} {p : Nat → Prop} (hp : ∀ q ∈ (s.wgOf w).threads,
    ((s.wgOf w).hw h).bitK mask ((s.wgOf w).laneOf q.1) = true → p q.1) : MaskWithin s w h mask p :=
  fun i u hi _ _ hb => hp (i, u) (Tab.mem_of_find _ _ _ hi) hb

theorem test_meeting_held : ∃ (s : State) (w h addr mask : Nat) (pr : Bool), s.Numbered ∧
    let here := fun pr i => (s.wgOf w).home i = h ∧ IsThread s w (fun u => u.hold = .meeting addr mask ∧ u.priv = pr) i
    (∃ i, here pr i) ∧ MaskWithin s w h mask (here pr) := by
  refine ⟨held (.meeting 9 5) (.meeting 9 5), 0, 0, 9, 5, false, numbered_of (by decide +kernel),
    ⟨0, by decide +kernel, _, rfl, rfl, rfl⟩, maskWithin_of ?_⟩
  intro q hq _
  simp only [held, sampleOf, stateOf, State.wgOf, Tab.get, Tab.find, wg2] at hq
  rcases List.mem_cons.mp hq with rfl | hq
  · exact ⟨by decide +kernel, _, rfl, rfl, rfl⟩
  · rcases List.mem_cons.mp hq with rfl | hq
    · exact ⟨by decide +kernel, _, rfl, rfl, rfl⟩
    · cases hq

/-- No thread of these states owes a trap for a write that failed. -/
theorem held_failed (h0 h1 : Hold) (w i : Nat) : ((held h0 h1).thread w i).failed = [] := by
  have hg : ∀ g : Workgroup, (∀ p ∈ g.threads, p.2.failed = []) → (g.thread i).failed = [] := by
    intro g hg
    unfold Workgroup.thread Tab.get
    cases h : Tab.find g.threads i with
    | none => rfl
    | some u => exact hg (i, u) (Tab.mem_of_find _ _ _ h)
  refine hg _ ?_
  have hw : (held h0 h1).wgOf w = (held h0 h1).wgOf 0 ∨ (held h0 h1).wgOf w = {} := by
    by_cases h : 0 = w
    · exact .inl (h ▸ rfl)
    · exact .inr (by simp [State.wgOf, Tab.get, held, sampleOf, stateOf, Tab.find, h])
  rcases hw with hw | hw <;> rw [hw]
  · intro p hp
    simp only [held, sampleOf, stateOf, State.wgOf, Tab.get, Tab.find, wg2] at hp
    rcases List.mem_cons.mp hp with rfl | hp
    · rfl
    · rcases List.mem_cons.mp hp with rfl | hp
      · rfl
      · cases hp
  · exact fun p hp => by cases hp

/-- What holds of both threads of `held` holds of every thread there. -/
theorem held_threads {h0 h1 : Hold} {f : Workgroup → Workgroup} (hf : ∀ g, (f g).threads = g.threads) {p : Nat → Thread → Prop}
    (p0 : p 0 { thr 0 [] with hold := h0, depth := 1, meet := 7 }) (p1 : p 1 { thr 1 [] with hold := h1 }) :
    ∀ i u, Tab.find ((held h0 h1 f).wgOf 0).threads i = some u → p i u := by
  intro i u hu
  have hu := Tab.mem_of_find _ _ _ hu
  simp only [held, sampleOf, stateOf, State.wgOf, Tab.get, Tab.find, hf, if_true, Option.getD_some] at hu
  rcases List.mem_cons.mp hu with hu | hu
  · cases hu; exact p0
  · rcases List.mem_cons.mp hu with hu | hu
    · cases hu; exact p1
    · cases hu

theorem test_elect_held : ∃ (s : State) (w h pkt slot k : Nat), s.Numbered ∧ k = 11 ∧
    let here := fun k i => (s.wgOf w).home i = h ∧ IsThread s w (fun u => u.pc = ⟨pkt, slot⟩ ∧ u.hold = .elect k ∧ u.priv = false) i
    (∃ i, here k i) ∧ MaskWithin s w h k (here k) :=
  ⟨held (.elect 11) (.elect 11), 0, 0, 0, 1, 11, numbered_of (by decide +kernel), rfl, ⟨0, by decide +kernel, _, rfl, rfl, rfl, rfl⟩,
    fun i u hi _ _ _ => ⟨held_threads (f := id) (p := fun i _ => ((held (.elect 11) (.elect 11)).wgOf 0).home i = 0) (fun _ => rfl)
        (by decide +kernel) (by decide +kernel) i u hi,
      u, hi, held_threads (f := id) (p := fun _ u => u.pc = ⟨0, 1⟩ ∧ u.hold = .elect 11 ∧ u.priv = false)
        (fun _ => rfl) ⟨rfl, rfl, rfl⟩ ⟨rfl, rfl, rfl⟩ i u hi⟩⟩
theorem test_cross_held : ∃ (s : State) (w h pkt slot k : Nat), s.Numbered ∧ k = 0 ∧
    let here := fun k i => (s.wgOf w).home i = h ∧ IsThread s w (fun u => u.pc = ⟨pkt, slot⟩ ∧ u.hold = .cross k ∧ u.priv = false) i
    (∃ i, here k i) ∧ MaskWithin s w h k (here k) :=
  ⟨held (.cross 0) (.cross 0), 0, 0, 0, 1, 0, numbered_of (by decide +kernel), rfl, ⟨0, by decide +kernel, _, rfl, rfl, rfl, rfl⟩,
    fun i u hi _ _ _ => ⟨held_threads (f := id) (p := fun i _ => ((held (.cross 0) (.cross 0)).wgOf 0).home i = 0) (fun _ => rfl)
        (by decide +kernel) (by decide +kernel) i u hi,
      u, hi, held_threads (f := id) (p := fun _ u => u.pc = ⟨0, 1⟩ ∧ u.hold = .cross 0 ∧ u.priv = false)
        (fun _ => rfl) ⟨rfl, rfl, rfl⟩ ⟨rfl, rfl, rfl⟩ i u hi⟩⟩
theorem test_fqnt_held : ∃ (s : State) (w octet pkt slot : Nat), s.Numbered ∧
    let here := fun i => octetOf i = octet ∧ IsThread s w (fun u => u.pc = ⟨pkt, slot⟩ ∧ u.hold = .fqnt ∧ u.priv = false) i
    (∃ i, here i) ∧ ∀ i, octetOf i = octet → IsThread s w (fun u => u.ended = false) i → here i :=
  ⟨held .fqnt .fqnt, 0, 0, 0, 1, numbered_of (by decide +kernel), ⟨0, by decide, _, rfl, rfl, rfl, rfl⟩,
    fun i ho ⟨u, hi, _⟩ => ⟨ho, u, hi,
      held_threads (f := id) (p := fun _ u => u.pc = ⟨0, 1⟩ ∧ u.hold = .fqnt ∧ u.priv = false) (fun _ => rfl) ⟨rfl, rfl, rfl⟩
        ⟨rfl, rfl, rfl⟩ i u hi⟩⟩
theorem test_mbwt_held : ∃ (s : State) (w i off : Nat) (par : Bool), s.Numbered ∧ IsThread s w (fun u => u.hold = .mbwt off par) i ∧
    ((s.wgOf w).word off).getLsbD 32 ≠ par :=
  ⟨held (.mbwt 8 true) .ready, 0, 0, 8, true, numbered_of (by decide +kernel), ⟨_, rfl, rfl⟩, by decide +kernel⟩
def numberedB (s : State) : Bool :=
  Tab.sorted s.wgs && (s.wgs.all fun p => Tab.sorted p.2.threads && p.2.threads.all fun q => decide (q.2.tid = q.1 ∧ p.2.home q.1 < 128)) &&
  s.regions.all fun p => p.2.ending != none || decide (p.2.hdr.hwarps ≤ 128)
theorem numbered_ofB {s : State} (h : numberedB s = true) : s.Numbered := by
  simp only [numberedB, Bool.and_eq_true, List.all_eq_true, decide_eq_true_eq, Bool.or_eq_true, bne_iff_ne] at h
  exact ⟨h.1.1, h.1.2, fun p hp he => (h.2 p hp).resolve_left fun hn => hn he⟩

theorem test_yield_held : ∀ p ∈ ([([], 0), ([⟨3, 0⟩], 64), ([⟨3, 0⟩], 0)] : List (List PC × Nat)), ∃ (s : State) (w i : Nat), s.Numbered ∧
    let due := fun i => IsThread s w (fun u => ∃ gs n, u.hold = .yield gs n ∧
      (gs = [] ∨ 64 ≤ n ∨ ∀ j, j ≠ i → ¬IsThread s w (fun u => u.isReady = true) j)) i
    (∀ i, due i → (s.thread w i).failed = []) ∧ due i ∧ IsThread s w (fun u => u.hold = .yield p.1 p.2) i := by
  have hn : ∀ p ∈ ([([], 0), ([⟨3, 0⟩], 64), ([⟨3, 0⟩], 0)] : List (List PC × Nat)),
      numberedB (held (.yield p.1 p.2) .gbar) = true := by decide +kernel
  intro p hp
  refine ⟨held (.yield p.1 p.2) .gbar, 0, 0, numbered_ofB (hn p hp), fun i _ => held_failed _ _ 0 i,
    ⟨_, rfl, _, _, rfl, .inr (.inr ?_)⟩, ⟨_, rfl, rfl⟩⟩
  intro j hj ⟨u, hu, hr⟩
  have := held_threads (f := id) (p := fun i u => i ≠ 0 → u.isReady = false) (fun _ => rfl) (by simp) (by simp [Thread.isReady]) j u hu hj
  simp [this] at hr

theorem test_bar_held : ∃ (s : State) (w : Nat) (sel : Nat), s.Numbered ∧ (∃ i, IsThread s w (fun u => u.ended = false) i) ∧
    (∃ pr us, ∀ i, IsThread s w (fun u => u.ended = false) i → IsThread s w (fun u => ∃ a sel d x m, u.hold = .bar a sel d x m) i ∧
      (s.thread w i).priv = pr ∧ (s.thread w i).user = us) ∧
    sel % 8 ≠ 1 ∧ (∀ p ∈ (s.wgOf w).barParts, p.2.1.sel = sel) ∧ (s.wgOf w).barParts ≠ [] :=
  ⟨held (.bar true 24 8 2 .rne) (.bar false 24 8 2 .rne), 0, 24, numbered_of (by decide +kernel), ⟨0, _, rfl, rfl⟩,
    ⟨false, .program, fun i ⟨u, hi, _⟩ => by
      have h := held_threads (f := id) (p := fun _ u => (∃ a sel d x m, u.hold = .bar a sel d x m) ∧ u.priv = false ∧ u.user = .program)
        (fun _ => rfl) ⟨⟨_, _, _, _, _, rfl⟩, rfl, rfl⟩ ⟨⟨_, _, _, _, _, rfl⟩, rfl, rfl⟩ i u hi
      refine ⟨⟨u, hi, h.1⟩, ?_⟩
      rw [show State.thread _ 0 i = u from by simp [State.thread, Workgroup.thread, Tab.get, hi]]
      exact h.2⟩, by decide, by decide +kernel, by decide +kernel⟩
/-- The one workgroup of a launch. -/
def gbarState : State := { held .gbar .gbar (fun g => { g with block := 0x4100 }) with
  regions := [(0x4100, { table := 0, bound := 1, total := 1 })] }
theorem test_gbar_held : ∃ (s : State) (b : Nat) (r : Region), s.Numbered ∧ Tab.find s.regions b = some r ∧ r.bound = r.total ∧
    let at_ := fun w i => (s.wgOf w).block = b ∧ (s.wgOf w).byTail = false ∧ IsThread s w (fun u => u.hold = .gbar) i
    (∃ pr us, ∀ w g, Tab.find s.wgs w = some g → g.block = b → g.byTail = false → g.status ≠ .parked ∧
      ∀ i, IsThread s w (fun u => u.ended = false) i → at_ w i ∧ (s.thread w i).priv = pr ∧ (s.thread w i).user = us) ∧
    ∃ w i, at_ w i ∧ IsThread s w (fun u => u.ended = false) i := by
  refine ⟨gbarState, 0x4100, _, numbered_of (by decide +kernel), rfl, rfl, ⟨false, .program, fun w g hg _ _ => ?_⟩, 0, 0,
    ⟨rfl, rfl, _, rfl, rfl⟩, _, rfl, rfl⟩
  have hm := Tab.mem_of_find _ _ _ hg
  have hw : w = 0 ∧ g = gbarState.wgOf 0 := by
    rcases List.mem_cons.mp hm with h | h
    · cases h; exact ⟨rfl, rfl⟩
    · cases h
  obtain ⟨rfl, rfl⟩ := hw
  refine ⟨by decide +kernel, fun i ⟨u, hi, _⟩ => ?_⟩
  have h := held_threads (f := fun g => { g with block := 0x4100 }) (p := fun _ u => u.hold = .gbar ∧ u.priv = false ∧ u.user = .program)
    (fun _ => rfl) ⟨rfl, rfl, rfl⟩ ⟨rfl, rfl, rfl⟩ i u hi
  refine ⟨⟨rfl, rfl, u, hi, h.1⟩, ?_⟩
  rw [show State.thread _ 0 i = u from by simp only [State.thread, Workgroup.thread, Tab.get]; rw [show Tab.find (gbarState.wgOf 0).threads i = some u from hi]; rfl]
  exact h.2

/-! ### Threads go on -/

theorem test_result_pends : ∃ (s : State) (w i k : Nat) (p : Pend) (vals : List Write) (fl : Flags), s.Numbered ∧
    (Tab.find s.wgs w).isSome ∧ (Tab.find (s.wgOf w).threads i).isSome ∧ (s.thread w i).pend[k]? = some p ∧ p.src = .ready vals fl ∧
    (vals.map (·.dest)).Nodup ∧ vals.length = 3 ∧ fl = 3 :=
  let vals : List Write := [⟨.v 8, 1⟩, ⟨.p 2, 1⟩, ⟨.s 3, 5⟩]
  ⟨sampleOf [] [] fun g => { g with threads := [(0, { thr 0 [] with
      pend := [{ pkt := 0, slot := 0, dests := [.v 8, .p 2, .s 3], src := .ready vals 3 }] })] },
    0, 0, 0, _, vals, 3, numbered_of (by decide +kernel), rfl, rfl, rfl, rfl, by decide, rfl, rfl⟩
def aloneState : State := sampleOf [] [] fun g => { g with threads := [(0, { thr 0 [] with
  pend := [{ pkt := 0, slot := 0, dests := [.v 8], src := .ready [⟨.v 8, 1⟩] 0 }] })] }
/-- Its result is a vector register, and no settle is over. -/
theorem test_result_alone : ∃ (s : State) (w i k : Nat) (p : Pend) (vals : List Write) (fl : Flags), s.Numbered ∧
    (Tab.find s.wgs w).isSome ∧ (Tab.find (s.wgOf w).threads i).isSome ∧ (s.thread w i).pend[k]? = some p ∧ p.src = .ready vals fl ∧
    (vals.map (·.dest)).Nodup ∧ (∀ d ∈ p.dests, ∀ n, d ≠ .s n) ∧ (∀ x ∈ vals, ∀ n, x.dest ≠ .s n) ∧
    (∀ v j, ¬(v = w ∧ j = i) → s.restOver v (s.thread v j) = false) ∧ (s.thread w i).failed = [] := by
  refine ⟨aloneState, 0, 0, 0, _, [⟨.v 8, 1⟩], 0, numbered_of (by decide +kernel), rfl, rfl, rfl, rfl, by decide, by simp, by simp, fun v j hn => ?_, rfl⟩
  have hg (g : Workgroup) (h : ∀ p ∈ g.threads, p.1 = j → p.2.hold = .ready) : (g.thread j).hold = .ready := by
    unfold Workgroup.thread Tab.get
    cases hf : Tab.find g.threads j with
    | none => rfl
    | some u => exact h (j, u) (Tab.mem_of_find _ _ _ hf) rfl
  unfold State.restOver State.thread
  rw [hg]
  by_cases hv : 0 = v
  · subst hv
    exact fun p hp hj => by cases List.mem_singleton.mp hp; exact rfl
  · have : aloneState.wgOf v = {} := by simp [aloneState, State.wgOf, sampleOf, stateOf, Tab.get, Tab.find, hv]
    rw [this]
    exact fun p hp => by cases hp
/-- The value at 0x4000 is 5. -/
def pollState (want : W64) : State := held (.waddr 0x4000 4 want 2 true false 0) .ready
theorem poll_reads : ∀ n ∈ [5, 6], numberedB (pollState (BitVec.ofNat 64 n)) = true ∧
    (pollState (BitVec.ofNat 64 n)).readStops ((pollState (BitVec.ofNat 64 n)).wgOf 0) ((pollState (BitVec.ofNat 64 n)).thread 0 0)
      0x4000 4 = none ∧
    (pollState (BitVec.ofNat 64 n)).pollValue ((pollState (BitVec.ofNat 64 n)).wgOf 0) ((pollState (BitVec.ofNat 64 n)).thread 0 0)
      0x4000 4 = some (0x4000, 5) := by decide +kernel
theorem poll_waits (want : W64) : IsThread (pollState want) 0 (fun u => u.hold = .waddr 0x4000 4 want 2 true false 0) 0 :=
  ⟨_, rfl, rfl⟩
theorem test_waddr_held : ∀ n ∈ [5, 6], ∃ (s : State) (w i : Nat) (va : W64) (k scope : Nat) (acq : Bool) (last : W64)
    (pa : Nat) (v : W64), s.Numbered ∧ IsThread s w (fun u => u.hold = .waddr va k (BitVec.ofNat 64 n) scope acq false last) i ∧
    s.readStops (s.wgOf w) (s.thread w i) va k = none ∧ s.pollValue (s.wgOf w) (s.thread w i) va k = some (pa, v) ∧ v = 5 := by
  intro n hn
  obtain ⟨h1, h2, h3⟩ := poll_reads n hn
  exact ⟨_, 0, 0, 0x4000, 4, 2, true, 0, 0x4000, 5, numbered_ofB h1, poll_waits _, h2, h3, rfl⟩
theorem test_trap_set : ∃ (s : State) (w set : Nat) (ts : List Nat), s.Numbered ∧ Tab.find (s.wgOf w).trapSets set = some ts ∧ ts ≠ [] ∧
    (∀ i ∈ ts, IsThread s w (fun u => u.ended = false ∧ s.idle w u = true ∧ u.priv = false) i) ∧ (s.wgOf w).fhnd ≠ 0 :=
  ⟨held (.trapping 4) (.trapping 4) (fun g => { g with trapSets := [(4, [0, 1])], fhnd := 64 }), 0, 4, [0, 1], numbered_of (by decide +kernel),
    rfl, by decide, fun i hi => by
      rcases List.mem_cons.mp hi with rfl | hi
      · exact ⟨_, rfl, rfl, by decide +kernel, rfl⟩
      · cases List.mem_singleton.mp hi
        exact ⟨_, rfl, rfl, by decide +kernel, rfl⟩, by decide +kernel⟩

/-- A code line at 0x5040 whose trailer matches its bytes, or does not; the code's origin is there. -/
def lineState (good : Bool) : State :=
  let s := held .ready .ready fun g => { g with hdrVa := 0x5000, fhnd := 64 }
  { s with mem := placeBytes s.mem 0x5040 (if good then lineOfPacket [0, 0, 0] else [1]) }
theorem test_code_line : ∀ good : Bool, ∃ (s : State) (w : Nat) (origin : W64) (line pa i : Nat), s.Numbered ∧
    let here := IsThread s w fun u => u.ended = false ∧ u.parked = false ∧ u.hold = .ready ∧
      (s.wgOf w).origin u = origin ∧ u.pc.pkt / 5 = line
    here i ∧ (∀ j, here j → (s.thread w j).priv = false ∧ s.idle w (s.thread w j) = true) ∧ (s.wgOf w).fhnd ≠ 0 ∧
    s.locate (s.core w) (s.wgOf w).ctx.asid (s.wgOf w).ctx.root ⟨false, true, false⟩ (origin + BitVec.ofNat 64 (line * 64)) = (.ok pa, s) ∧
    s.isBad pa = false ∧ (s.pathFrom (s.core w / 64) 0 pa).isSome ∧
    ((s.natAt (pa + 60) 4 = crc32c (s.bytesAt pa 60)) ↔ good = true) := by
  have h : ∀ good : Bool, (Tab.sorted (lineState good).wgs = true ∧
      (∀ p ∈ (lineState good).wgs, Tab.sorted p.2.threads = true ∧ ∀ q ∈ p.2.threads, q.2.tid = q.1 ∧ p.2.home q.1 < 128) ∧
      ∀ p ∈ (lineState good).regions, p.2.ending = none → p.2.hdr.hwarps ≤ 128) ∧
      ((lineState good).wgOf 0).origin ((lineState good).thread 0 0) = 0x5040 ∧
      (∀ q ∈ ((lineState good).wgOf 0).threads, ((lineState good).thread 0 q.1).priv = false ∧
        (lineState good).idle 0 ((lineState good).thread 0 q.1) = true) ∧
      ((lineState good).wgOf 0).fhnd ≠ 0 ∧
      (lineState good).hit ((lineState good).core 0) ((lineState good).wgOf 0).ctx.asid ⟨false, true, false⟩ 0x5040 = some 0x5040 ∧
      (lineState good).isBad 0x5040 = false ∧ ((lineState good).pathFrom ((lineState good).core 0 / 64) 0 0x5040).isSome ∧
      (((lineState good).natAt (0x5040 + 60) 4 = crc32c ((lineState good).bytesAt 0x5040 60)) ↔ good = true) := by decide +kernel
  intro good
  obtain ⟨h1, h2, h3, h4, h5, h6, h7, h8⟩ := h good
  refine ⟨lineState good, 0, 0x5040, 0, 0x5040, 0, numbered_of h1, ?_, ?_, h4, locate_of_hit (by simpa using h5) _, h6, h7, h8⟩
  · exact ⟨_, rfl, rfl, rfl, rfl, h2, rfl⟩
  · exact fun j ⟨u, hu, _⟩ => h3 (j, u) (Tab.mem_of_find _ _ _ hu)

/-! ### Time, homes and placement -/

theorem test_clock_runs : ∃ (s : State) (core : Nat), s.Numbered ∧ s.awake (coreUnit core) = true ∧ s.awake (datapathUnit core) = true ∧
    core = 0 ∧ s.canIssue core = true :=
  ⟨base 1 1 1 1, 0, numbered_ofB (by decide +kernel), by decide +kernel, by decide +kernel, rfl, by decide +kernel⟩
def oldStore : WbEntry := { key := 2 ^ 46 + 0x100, pa := 0x4000, asid := 1, clk := 8, mask := 1, huge := false, owners := [{ wg := 0, tid := 0, va := 0x4000 }] }
/-- A store 512 clocks old, and one younger. -/
theorem test_store_is_old : ∃ (s : State) (core sector : Nat) (e : WbEntry),
    ((s.coreOf core).wb.filter fun e => decide (e.pa / 64 = sector ∧ e.clk + 512 ≤ (s.coreOf core).clk)) = [e] :=
  ⟨{ State.reset with cores := [(0, { clk := 520, wb := [oldStore, { oldStore with clk := 9 }] })] }, 0, 0x100, oldStore,
    by decide +kernel⟩
theorem test_directory_names : ∃ (s : State) (core sector : Nat), core = 127 ∧ core < 128 ∧ Tab.sorted s.dir = true ∧
    core / 64 = s.dieFor (sector * 64) (core / 64) ∧ (Tab.get {} s.dir sector).sharers.getLsbD (core % 64) = true :=
  ⟨{ State.reset with dir := [(3, { sharers := BitVec.allOnes 64 })], homes := [(0, .die 1 0)] }, 127, 3, rfl, by decide,
    by decide +kernel, by decide +kernel, by decide +kernel⟩

/-- Remote sectors of core 64: one 8,192 ticks old, and one younger. -/
theorem test_porch_lines : ∃ (s : State) (die line core : Nat) (x y : Sector), Tab.sorted s.cores = true ∧ Tab.find s.cores core ≠ none ∧
    core / 64 = die ∧ Tab.find (s.coreOf core).l1 (4 * line + 1) = some x ∧ Tab.find (s.coreOf core).l1 (4 * line + 2) = some y ∧
    (x.remote ∧ (4 * line + 1) % 2 ^ 46 / 4 = line ∧ x.tick.toNat + 8192 ≤ s.hb.toNat) ∧ ¬(y.tick.toNat + 8192 ≤ s.hb.toNat) :=
  let x (t : W64) : Sector := { remote := true, valid := BitVec.allOnes 64, data := 5, weak := 0, tick := t }
  ⟨{ State.reset with hb := 8193, cores := [(64, { l1 := [(29, x 1), (30, x 2)] })] }, 1, 7, 64, x 1, x 2, by decide +kernel⟩

/-- A request of thread 0 at its home. -/
def request (kind : ReqKind) (pa size : Nat) (data : List Byte) (mask : List Bool := []) (state : ReqState := .arrived) : Req :=
  { by_ := .thread 0 0, kind, core := 0, asid := 1, pa, va := BitVec.ofNat 64 pa, size, data, mask, state }
def withReq (r : Req) : State := { base 1 1 1 1 with
  reqs := [(5, r)], nextReq := 9, dir := [(0x100, { sharers := 6 })], homes := [(0, .die 1 0)] }
theorem writable_of {s : State} {r : Req} {n : Nat} (h : (s.turn r && decide (r.pa % 64 + n ≤ 64) && decide (0 < n) &&
    ((List.range n).all fun k => !s.sealedAt (r.pa + k) 1) && !s.isBad r.pa && !s.hostHolds r.pa &&
    !s.hitsState (sectorOf r.pa) (spanMask (r.pa % 64) n)) = true) : Writable s r n := by
  simp only [Bool.and_eq_true, decide_eq_true_eq, List.all_eq_true, List.mem_range, Bool.not_eq_true'] at h
  exact ⟨h.1.1.1.1.1.1, h.1.1.1.1.1.2, h.1.1.1.1.2, h.1.1.1.2, h.1.1.2, h.1.2, h.2⟩

/-- A whole sector, and two bytes of four, the last at the sector's end. -/
theorem test_writes_arrive : ∀ r ∈ [request .write 0x4000 64 (List.replicate 64 7), request .write 0x403C 4 [1, 2, 3, 4] [false, true, false, true]],
    ∃ (s : State) (id : Nat), Tab.find s.reqs id = some r ∧ r.kind = .write ∧ r.plainMask ∧ Writable s r r.data.length ∧
      ∃ d, s.homeDie r.pa = some d ∧ ∃ i < 64, d * 64 + i ≠ r.core ∧ (Tab.get {} s.dir (r.pa / 64)).sharers.getLsbD i = true := by
  intro r hr
  refine ⟨withReq r, 5, rfl, ?_⟩
  rcases List.mem_cons.mp hr with rfl | hr
  · exact ⟨rfl, .inl rfl, writable_of (by decide +kernel), 1, by decide +kernel, 2, by decide +kernel⟩
  · cases List.mem_singleton.mp hr
    exact ⟨rfl, .inr rfl, writable_of (by decide +kernel), 1, by decide +kernel, 2, by decide +kernel⟩
theorem test_writes_refused : ∃ (s u : State) (id : Nat) (r : Req), r.kind = .write ∧ r.plainMask ∧ r.pa % 64 + r.data.length ≤ 64 ∧
    (Tab.find s.reqs id = some r ∧ s.turn r = true ∧ s.hitsState (sectorOf r.pa) r.sectorBytes.2 = false ∧
      ∃ k, r.names k ∧ s.sealedAt (r.pa + k) 1 = true) ∧
    (Tab.find u.reqs id = some r ∧ u.turn r = true ∧ u.hitsState (sectorOf r.pa) r.sectorBytes.2 = false ∧
      (∀ k, r.names k → u.sealedAt (r.pa + k) 1 = false) ∧ u.isBad r.pa = true ∧ r.data.length < 64) := by
  let r := request .write 0x403F 1 [1]
  refine ⟨{ withReq r with seals := [{ id := 3, die := 0, pa := 0x4000, len := 64, va := 0x4000, asid := 1, version := 7, total := 64 }] },
    { withReq r with bad := [0x100] }, 5, r, rfl, .inl rfl, by decide, ⟨rfl, by decide +kernel, by decide +kernel, 0, ⟨by decide, .inl rfl⟩,
      by decide +kernel⟩, rfl, by decide +kernel, by decide +kernel, ?_, by decide +kernel, by decide⟩
  intro k hk
  simp [State.sealedAt, withReq, base, stateOf, State.reset]
theorem test_update_ready : ∃ (s : State) (u : Nat) (x : Upd), Tab.find s.upds u = some x ∧ s.updReady u x = true :=
  ⟨{ base 1 1 1 1 with upds := [(4, { req := 5, core := 0, sector := 0x100, data := 1, mask := 1 })] }, 4, _, rfl, by decide +kernel⟩
theorem test_write_updated : ∃ (s : State) (id : Nat) (r : Req), Tab.find s.reqs id = some r ∧ r.state = .applied ∧ ∀ p ∈ s.upds, p.2.req ≠ id :=
  ⟨withReq (request .write 0x4000 1 [1] [] .applied), 5, _, rfl, rfl, by decide +kernel⟩
/-- A write of a state word: of an idle block that is armed, of one done that is cleared, and one that is no transition. -/
theorem test_state_words : ∀ p ∈ ([(0, 1, true), (4, 0, true), (5, 0, true), (3, 0, false), (0, 2, false)] : List (Nat × Nat × Bool)),
    ∃ (s : State) (id : Nat) (r : Req), Tab.find s.reqs id = some r ∧ r.kind = .write ∧ r.mask = [] ∧ r.data.length = 4 ∧ r.pa % 256 = 0 ∧
      s.turn r = true ∧ (∀ k < 4, s.sealedAt (r.pa + k) 1 = false) ∧ s.isBad r.pa = false ∧ s.hostHolds r.pa = false ∧
      (s.blockAt r.pa).isSome ∧ s.natAt r.pa 4 = p.1 ∧ natOfBytes r.data = p.2.1 ∧
      (decide ((p.1 = 0 ∧ p.2.1 = 1 ∧ (s.blockAt r.pa).all fun q => !q.2.1.deregistering) ∨ ((p.1 = 4 ∨ p.1 = 5) ∧ p.2.1 = 0)) = p.2.2) := by
  let r (n : Nat) : Req := request .write 0x4100 4 (bytesOfNat n 4)
  let s (o n : Nat) : State := { withReq (r n) with
    mem := (State.withFetchWord .reset 32 0).mem ++ (if o = 0 then [] else [(0x5100, BitVec.ofNat 8 o)])
    tables := [(9, { base := 0, len := 512, ctx := { asid := 1, root := 0x1000 } })], reqs := [(5, { r n with pa := 0x5100 })] }
  have h : ∀ p ∈ ([(0, 1, true), (4, 0, true), (5, 0, true), (3, 0, false), (0, 2, false)] : List (Nat × Nat × Bool)),
      (s p.1 p.2.1).turn { r p.2.1 with pa := 0x5100 } = true ∧ (∀ k < 4, (s p.1 p.2.1).sealedAt (0x5100 + k) 1 = false) ∧
      (s p.1 p.2.1).isBad 0x5100 = false ∧ (s p.1 p.2.1).hostHolds 0x5100 = false ∧ ((s p.1 p.2.1).blockAt 0x5100).isSome ∧
      (s p.1 p.2.1).natAt 0x5100 4 = p.1 ∧ natOfBytes (r p.2.1).data = p.2.1 ∧ (r p.2.1).data.length = 4 ∧
      (decide ((p.1 = 0 ∧ p.2.1 = 1 ∧ ((s p.1 p.2.1).blockAt 0x5100).all fun q => !q.2.1.deregistering) ∨
        ((p.1 = 4 ∨ p.1 = 5) ∧ p.2.1 = 0)) = p.2.2) := by decide +kernel
  intro p hp
  obtain ⟨h1, h2, h3, h4, h5, h6, h7, h8, h9⟩ := h p hp
  exact ⟨s p.1 p.2.1, 5, { r p.2.1 with pa := 0x5100 }, rfl, rfl, rfl, h8, (by decide : 0x5100 % 256 = 0), h1, h2, h3, h4, h5, h6, h7, h9⟩

theorem test_operations_arrive : ∀ k ∈ [ReqKind.amo 10 [(0, .rne), (1, .rne)], .red 8 .rne, .redw, .wfin true (-1024) .rne],
    ∃ (s : State) (id : Nat) (r : Req) (bs : List Byte) (fl : List Flags) (new : Option Nat), Tab.find s.reqs id = some r ∧ r.kind = k ∧
      r.kind.atHome = true ∧ Writable s r r.size ∧ r.operate (s.natAt r.pa r.size) = (bs, fl, new) := by
  intro k hk
  refine ⟨withReq (request k 0x4000 8 (List.replicate 32 1)), 5, _, _, _, _, rfl, rfl, ?_, ?_, rfl⟩
  all_goals simp only [List.mem_cons, List.not_mem_nil, or_false] at hk
  · rcases hk with rfl | rfl | rfl | rfl <;> rfl
  · rcases hk with rfl | rfl | rfl | rfl <;> exact writable_of (by decide +kernel)
/-- A `cas` of two lanes on sealed bytes. -/
theorem test_cas_sealed : ∀ size ∈ [4, 8], let r := request (.amo 10 [(0, .rne), (1, .rne)]) 0x4000 size (List.replicate (4 * size) 1)
    let s := { withReq r with seals := [{ id := 3, die := 0, pa := 0x4000, len := 256, va := 0x4000, asid := 1, version := 7, total := 256 }] }
    Tab.find s.reqs 5 = some r ∧ s.turn r = true ∧ r.pa % 64 + r.size ≤ 64 ∧ s.isBad r.pa = false ∧ ∃ k < r.size, s.sealedAt (r.pa + k) 1 = true := by
  decide +kernel
theorem test_operands_fit : ∀ size ∈ [4, 8], ∃ (r u : Req) (old : Nat), r.kind = .amo 10 [(0, .rne), (1, .rne)] ∧ r.size = size ∧
    r.data.length = 2 * (2 * r.size) ∧ u.kind = .red 8 .rne ∧ u.size = size ∧ u.data.length = u.size ∧ old = 2 ^ (8 * size) - 1 ∧
    old < 2 ^ (8 * r.size) := by
  intro size hs
  refine ⟨request (.amo 10 [(0, .rne), (1, .rne)]) 0x4000 size (List.replicate (4 * size) 1),
    request (.red 8 .rne) 0x4000 size (List.replicate size 1), _, rfl, rfl, ?_, rfl, rfl, by simp [request], rfl, ?_⟩
  · simp [request]; omega
  · have : 0 < 2 ^ (8 * size) := Nat.two_pow_pos _
    show 2 ^ (8 * size) - 1 < 2 ^ (8 * size)
    omega

theorem test_reads_arrive : ∀ bad : Bool, ∃ (s : State) (id : Nat) (r : Req), Tab.find s.reqs id = some r ∧ r.state = .arrived ∧
    id < s.nextReq ∧ s.open_ r.pa = true ∧ r.prom = false ∧ r.acq = none ∧ r.kind = .readAlone ∧ s.isBad r.pa = bad := by
  have h : ∀ bad : Bool, ({ withReq (request .readAlone 0x4000 4 []) with bad := if bad then [0x100] else [] } : State).open_ 0x4000 = true ∧
      ({ withReq (request .readAlone 0x4000 4 []) with bad := if bad then [0x100] else [] } : State).isBad 0x4000 = bad := by decide +kernel
  exact fun bad => ⟨{ withReq (request .readAlone 0x4000 4 []) with bad := if bad then [0x100] else [] }, 5, _, rfl, rfl,
    (by decide : 5 < 9), (h bad).1, rfl, rfl, rfl, (h bad).2⟩
theorem test_reads_join : ∀ k ∈ [ReqKind.read, .readSealed 7], ∃ (s : State) (id : Nat) (r : Req), Tab.find s.reqs id = some r ∧
    r.state = .arrived ∧ id < s.nextReq ∧ s.open_ r.pa = true ∧ r.kind = k ∧ r.acq = none ∧ r.prom = false ∧ s.deadline r = false ∧ s.isOwn r.pa = true ∧
    Tab.sorted s.windows = true := by
  have h : ∀ k ∈ [ReqKind.read, .readSealed 7], (withReq (request k 0x4000 4 [])).open_ 0x4000 = true ∧
      (withReq (request k 0x4000 4 [])).isOwn 0x4000 = true := by decide +kernel
  exact fun k hk => ⟨withReq (request k 0x4000 4 []), 5, _, rfl, rfl, (by decide : 5 < 9), (h k hk).1, rfl, rfl, rfl, rfl, (h k hk).2, rfl⟩
theorem test_reads_of_deadline : ∃ (s : State) (id : Nat) (r : Req), Tab.find s.reqs id = some r ∧ r.state = .arrived ∧
    id < s.nextReq ∧ s.open_ r.pa = true ∧ r.prom = false ∧ r.kind = .read ∧ s.deadline r = true ∧ s.isBad r.pa = false :=
  ⟨{ withReq (request .read 0x4000 4 []) with wgs := [(0, { cls := 0 })] }, 5, _, rfl, rfl, (by decide : 5 < 9), by decide +kernel, rfl, rfl, by decide +kernel,
    by decide +kernel⟩
/-- A window with a read and two sealed reads, under the version of the seal and another. -/
theorem test_window_open : ∃ (s : State) (w : Nat) (x : Window) (r q u : Req), Tab.find s.windows w = some x ∧ x.reqs = [5, 6, 7] ∧
    s.open_ (x.sector * 64) = true ∧ (∀ id ∈ x.reqs, id < s.nextReq) ∧ Tab.find s.reqs 5 = some r ∧ Tab.find s.reqs 6 = some q ∧
    Tab.find s.reqs 7 = some u ∧ s.isBad r.pa = false ∧ r.kind = .read ∧ q.kind = .readSealed 7 ∧ s.isSealed q.pa 7 = false ∧
    s.isBad u.pa = false ∧ u.kind = .readSealed 8 ∧ s.isSealed u.pa 8 = true :=
  let r (k : ReqKind) : Req := request k 0x4000 4 [] [] (.windowed 2)
  ⟨{ withReq (r .read) with
      reqs := [(5, r .read), (6, r (.readSealed 7)), (7, r (.readSealed 8))], windows := [(2, { sector := 0x100, reqs := [5, 6, 7], opened := 0 })]
      seals := [{ id := 3, die := 1, pa := 0x4000, len := 64, va := 0x4000, asid := 1, version := 8, total := 64 }] }, 2, _, _, _, _, rfl, rfl,
    by decide +kernel, by decide, rfl, rfl, rfl, by decide +kernel, rfl, rfl, by decide +kernel, by decide +kernel, rfl, by decide +kernel⟩
theorem test_probe_over : ∀ k ∈ [none, some 3], ∃ (s : State) (id : Nat) (r : Req), Tab.find s.reqs id = some r ∧ r.state = .probing ∧
    id < s.nextReq ∧ (Tab.get {} s.dir (r.pa / 64)).writer = k ∧ s.isBad r.pa = false ∧ r.kind = .readAlone := by
  intro k _
  exact ⟨{ withReq (request .readAlone 0x4000 4 [] [] .probing) with dir := [(0x100, { writer := k })] }, 5, _, rfl, rfl,
    (by decide : 5 < 9), rfl, rfl, rfl⟩

/-- The walk of the page table that `withFetchWord` places. -/
theorem test_walk_finds : ∃ (s : State) (asid : Nat) (va : W64) (n : Nat) (tab : RTable) (e : Tlb) (used : List Nat),
    s.tables.find? (fun p => p.2.ctx.asid = asid) = some (n, tab) ∧ va.toNat < 2 ^ 48 ∧
    s.walkFrom asid va.toNat 4 tab.ctx.root [] = .ok (e, used) :=
  let s : State := { State.withFetchWord .reset 32 0 with tables := [(9, { base := 0, len := 256, ctx := { asid := 1, root := 0x1000 } })] }
  match h : s.walkFrom 1 0xFFF 4 0x1000 [] with
  | .ok (e, used) => ⟨s, 1, 0xFFF, 9, _, e, used, rfl, by decide, h⟩
  | .error _ => absurd (show (s.walkFrom 1 0xFFF 4 0x1000 []).isOk = true by decide +kernel) (by rw [h]; exact Bool.false_ne_true)
theorem test_migration_starts : ∃ (s : State) (die : Nat) (m : Migration) (t : State), (s.dieAt die).migration = none ∧
    exec (.placementEvaluate die) s = .next t ∧ (t.dieAt die).migration = some m :=
  ⟨{ State.reset with homes := [(2, .die 0 7)], dies := [(0, { evals := 4, counts := [(2, (0, 1024))] })] }, 0, _, _, by decide +kernel, rfl, rfl⟩
/-- Region 2 on its way from frame 5 of die 0 to frame 6 of die 1. -/
def movingState (cut : Bool) : State := { State.reset with
  dies := [(0, { migration := some { region := 2, src := 0, dst := 1, held := [], cut } })], homes := [(2, .migrating 0 1 cut 5 6)] }
theorem test_migration_cuts : ∃ (s : State) (m : Migration), s.migrating false = some m ∧ s.cutReady m = true ∧
    Tab.find s.homes m.region = some (.migrating 0 1 false 5 6) :=
  ⟨movingState false, _, rfl, by decide +kernel, rfl⟩
theorem test_migration_over : ∃ (s : State) (m : Migration), s.migrating true = some m ∧
    Tab.find s.homes m.region = some (.migrating 0 1 true 5 6) ∧ m.held = [] := ⟨movingState true, _, rfl, rfl, rfl⟩

/-! ### The array and the engines -/

/-- The sample of the array with operations in its queue. -/
def queueState (m : Matrix) (q : List MxOp) : State := sampleOf [] [] fun g => { g with
  hdr := { g.hdr with spad := 8192 }, matrix := some m, mxq := q.mapIdx fun i op => { id := i, tids := [0, 1], op } }
/-- What runs: a load, a flip, a pass, another operation. -/
def arrayEvent (n : Nat) : Workgroup → MxEntry → Bool :=
  if n = 0 then loadReady else if n = 1 then Workgroup.flipRuns else if n = 2 then fun g e => e.id = 0 && passReady g e
  else fun g e => e.id = 0 && otherReady g e
def arraySamples : List (Matrix × MxOp × Nat) := [
  ({ g := 1, shadowState := 1, shadowGen := 1 }, .load 1 0 0 (some { addr := 0, stride := 1, colMajor := true }), 0),
  ({ g := 1, ga := 1 }, .flip 1, 1), ({ g := 1, shadowState := 2, shadowGen := 1 }, .flip 1, 1),
  ({ g := 1, ga := 1 }, .pass 0 3 1 0 [{ lane := 0, tid := 0 }, { lane := 7, tid := 1, off := 4096 }], 2),
  ({}, .zero 0 3 [{ lane := 7, tid := 1 }], 3), ({}, .drain 0 3 0 0 [{ lane := 0, tid := 0 }, { lane := 1, tid := 1, off := 128 }], 3),
  ({}, .bypass 0 3 0 [{ lane := 0, tid := 0 }, { lane := 1, tid := 1 }], 3)]
theorem test_array_runs : ∀ p ∈ arraySamples, ∃ (s : State) (core w : Nat) (e : MxEntry), e.op = p.2.1 ∧
    (s.wgOf w).matrix = some p.1 ∧ Runs s core (arrayEvent p.2.2) w e := by
  have h : ∀ p ∈ arraySamples, numberedB (queueState p.1 [p.2.1]) = true ∧ (queueState p.1 [p.2.1]).findMx 0 (arrayEvent p.2.2) =
        some (0, { id := 0, tids := [0, 1], op := p.2.1 }) := by decide +kernel
  exact fun p hp => ⟨_, 0, 0, _, rfl, rfl, numbered_ofB (h p hp).1, (h p hp).2⟩
/-- A pass with a row whose accumulator is uncorrectable, and one that is sound. -/
theorem test_row_spoilt : let rows : List MxRow := [{ lane := 0, tid := 0 }, { lane := 7, tid := 1, off := 4096 }]
    let s := (queueState { g := 1, ga := 1 } [.pass 0 3 1 0 rows]).modWg 0 fun g => { g with spoilt := [.row 0 3 7] }
    numberedB s = true ∧ s.findMx 0 (arrayEvent 2) = some (0, { id := 0, tids := [0, 1], op := .pass 0 3 1 0 rows }) ∧
    rows.map (fun r => (s.wgOf 0).rowSpoilt (.pass 0 3 1 0 rows) r) = [false, true] := by decide +kernel
/-- The format of those operations; their rows lie apart. -/
theorem test_array_format : ∃ f, fmtWord? 0 = some f ∧ 2 * drainBytes f 0 * 64 ≤ 256 ∧ 64 * drainBytes f 0 ≤ 128 :=
  ⟨_, rfl, by decide, by decide⟩
/-- Sums at the bounds of the accumulator, and beyond them. -/
theorem test_sums : (∃ (c : BitVec 48) (ts : List Term), c.toInt + (ts.map fun x => x.a.toInt * x.w.toInt).sum = 2 ^ 47 - 1) ∧
    (∃ (c : BitVec 48) (ts : List Term), c.toInt + (ts.map fun x => x.a.toInt * x.w.toInt).sum = -2 ^ 47) ∧
    (∃ (c : BitVec 48) (ts : List Term), 2 ^ 47 - 1 < c.toInt + (ts.map fun x => x.a.toInt * x.w.toInt).sum) ∧
    ∃ (c : BitVec 48) (ts : List Term), c.toInt + (ts.map fun x => x.a.toInt * x.w.toInt).sum < -2 ^ 47 :=
  ⟨⟨0x7FFFFFFFFFFF, [], by decide⟩, ⟨0x800000000000, [], by decide⟩,
    ⟨0x7FFFFFFFFFFF, [{ a := .ofInt 1, w := .ofInt 1, e := none }], by decide +kernel⟩,
    ⟨0x800000000000, [{ a := .ofInt 1, w := .ofInt (-1), e := none }], by decide +kernel⟩⟩

/-- A record's bytes: numbers at their offsets. -/
def recordOf (fs : List (Nat × Nat × Nat)) : List Byte :=
  (List.range 64).map fun i => match fs.find? fun f => decide (f.1 ≤ i ∧ i < f.1 + f.2.1) with
    | some f => BitVec.ofNat 8 (f.2.2 / 256 ^ (i - f.1))
    | none => 0
def command (eng op : Nat) (fs : List (Nat × Nat × Nat)) (state : CmdState) : Cmd :=
  { eng, op, recOff := 1024, body := recordOf fs, succ := 0, mode := .rne, priv := false, state, born := 1, order := 1 }
/-- The workgroup has one command, in slot 3; its scratchpad holds numbers at their offsets. -/
def cmdState (c : Cmd) (spad : List (Nat × Nat × Nat)) : State := sampleOf [] [] fun g => { g with
  hdr := { g.hdr with spad := 8192 }, cmds := [(3, c)]
  spad := spad.flatMap fun f => (bytesOfNat f.2.2 f.2.1).zipIdx.map fun p => (f.1 + p.2, p.1) }

/-- A copy of four elements of 8 bytes from 256 to 512, one by an index list at 768, and a fill of them; the dimension table is
at 64. -/
def copyCmd (op : Nat) : Cmd := command 0 op
  [(0, 8, if op = 0x1E3 then 0 else 256), (8, 8, 512), (16, 4, 64), (20, 1, 1), (21, 1, 8), (24, 4, if op = 0x1E2 then 768 else 0), (28, 4, 7),
    (56, 2, if op = 0x1E3 then 2 ^ 12 else 2 ^ 11 + 2 ^ 12)] .queued
def copyState (c : Cmd) : State :=
  cmdState c [(64, 4, 4), (68, 4, 4), (72, 4, 8), (76, 4, 8), (256, 8, 5), (768, 4, 9)]
theorem test_copies_start : ∀ op ∈ [0x1E0, 0x1E2, 0x1E3], let c := copyCmd op
    let s := copyState c
    Serves s 0 3 s.startReady 0 3 c ∧ c.eng = 0 ∧ s.awake (engineUnit 0 0) = true ∧ c.begun = false ∧ copyBad (s.wgOf 0) c = none := by
  unfold Serves
  decide +kernel
/-- One that has started, and has done some elements. -/
def goingCopy (op pos : Nat) : Cmd := { copyCmd op with state := .running, begun := true, work := [4, 4, 8, 8], pos }
/-- An element moved, one past the bounds of an index list, the last one filled. -/
theorem test_copy_elements : ∀ q ∈ ([(0x1E0, 0, .move 256 512, 0), (0x1E2, 0, .skip, 1), (0x1E3, 3, .fill 536, 0)] : List (Nat × Nat × CopyAct × Nat)),
    let c := goingCopy q.1 q.2.1
    let s := copyState c
    let g := s.wgOf 0
    let p := copyPlan c.work c
    Serves s 0 3 workReady 0 3 c ∧ c.eng = 0 ∧ c.begun = true ∧ c.pos < p.total ∧ c.batch = none ∧ (p.indexed = true ↔ q.1 = 0x1E2) ∧
    c.pos / p.inner / 8 = 0 ∧ min 8 (p.entries - 8 * 0) = 4 ∧
    p.act (fun e => ((if p.indexed then some ((List.range 4).map fun j => g.spadRead (p.idx + 4 * (8 * 0 + j)) 4) else none).getD []).getD
      (e % 8) 0) c.pos = (q.2.2.1, q.2.2.2) ∧
    c.dsp = true ∧ (q.1 ≠ 0x1E3 → c.ssp = true) ∧ c.olds = [] ∧ g.spoilt = [] ∧ 512 % unitOf p.z = 0 ∧ 256 % unitOf p.esz = 0 ∧
    536 % unitOf p.z = 0 ∧ p.esz = 8 ∧ p.z = 8 ∧ g.hdr.spad = 8192 := by
  unfold Serves
  decide +kernel
/-- Its source is uncorrectable. -/
theorem test_copy_spoilt : let c := goingCopy 0x1E0 0
    let s := (copyState c).modWg 0 fun g => { g with spoilt := [.word 65] }
    let p := copyPlan c.work c
    Serves s 0 3 workReady 0 3 c ∧ c.pos < p.total ∧ p.indexed = false ∧ p.act (fun _ => 0) c.pos = (.move 256 512, 0) ∧ c.ssp = true ∧
    Spoilt.word 65 ∈ (s.wgOf 0).spoilt ∧ 256 < 4 * 65 + 4 ∧ 4 * 65 < 256 + p.esz ∧ 256 + p.esz ≤ (s.wgOf 0).hdr.spad := by
  unfold Serves
  decide +kernel
/-- All its elements are done. -/
theorem test_copy_ends : let c := goingCopy 0x1E3 4
    Serves (copyState c) 0 3 workReady 0 3 c ∧ (copyPlan c.work c).total ≤ c.pos ∧ (copyState c).copySpoilt 0 3 c.core = [] := by
  unfold Serves
  decide +kernel

/-! ### Keys, tiles and the ends of commands -/

/-- A coordinate command on one key at 3072, its result to 4000, the table of 16 slots at 2048 with `n` keys; the first slots of
the key's probe hold what is given. -/
def keyCmd (op : Nat) : Cmd := { command 1 op [(0, 8, 2048), (16, 4, 3072), (20, 4, 4000), (24, 4, 3200), (28, 4, 1), (56, 2, 2 ^ 11)] .running with begun := true }
def keyState (op n : Nat) (first : List Nat) : State := cmdState (keyCmd op)
  ([(2048, 4, n), (2052, 1, 4), (3072, 8, 77)] ++ (List.range 16).map fun i =>
    (2112 + 16 * i, 8, ((List.range 16).find? fun j => probeSlot 77 4 j == i).elim 0 fun j => first.getD j (2 ^ 64 - 1)))
/-- A key found; found at the second slot; not there; inserted; the table full; its value added. -/
theorem test_keys : ∀ p ∈ ([(0x1E4, 5, [77], 0, 0), (0x1E5, 5, [8, 77], 1, 0), (0x1E5, 5, [8], 1, 1), (0x1E4, 5, [8], 1, 2),
      (0x1E4, 15, [], 0, 3), (0x1E6, 5, [77], 0, 0)] : List (Nat × Nat × List Nat × Nat × Nat)),
    let s := keyState p.1 p.2.1 p.2.2.1
    let c := keyCmd p.1
    let g := s.wgOf 0
    let j := p.2.2.2.1
    let base := (c.adr 0).toNat
    let put := c.fld 20 4 + 4 * c.pos
    Serves s 0 3 keyReady 0 3 c ∧ c.ssp = true ∧ g.hdr.spad ≤ 2 ^ 20 ∧ g.spadRead (base + 4) 1 = 4 ∧ base + 64 + 16 * 2 ^ 4 ≤ g.hdr.spad ∧
    base % 64 = 0 ∧ g.spoilt = [] ∧ (c.op = 0x1E6 → c.fld 24 4 + 4 * c.pos + 4 ≤ g.hdr.spad) ∧
    c.fld 16 4 + 8 * c.pos + 8 ≤ g.hdr.spad ∧ put + 4 ≤ g.hdr.spad ∧ g.spadRead (c.fld 16 4 + 8 * c.pos) 8 = 77 ∧
    ProbeEnds g base 77 4 j ∧ (put + 4 ≤ base ∨ base + 64 + 16 * 2 ^ 4 ≤ put) ∧ c.op = p.1 ∧
    (p.2.2.2.2 = 0 ↔ tableKey g base (probeSlot 77 4 j) = 77) ∧ (p.2.2.2.2 = 3 ↔ g.spadRead base 4 + 1 = 2 ^ 4) := by
  unfold Serves ProbeEnds
  decide +kernel

/-- The last pass of a `tg` in mode 1, over a list of one index, of FP16 numbers. -/
def tgCmd : Cmd := { command 2 0x1E9 [(8, 8, 4096), (16, 8, 512), (26, 2, 1), (28, 4, 0), (34, 1, 1), (35, 1, 1), (56, 2, 2 ^ 11 + 2 ^ 12)] .running with
  begun := true, work := [1, 5], gen := 1 }
/-- The workgroup runs; or it is pre-empted, and its threads have parked. -/
def tgState (preempting : Bool) : State :=
  let s := cmdState tgCmd [(4416, 4, 3)]
  s.modWg 0 fun g => { g with
    status := if preempting then .preempting else .running, matrix := some {}
    threads := Tab.map (fun _ t => { t with parked := preempting }) g.threads }
def tgFormat : FmtWord := { a := .h16, b := .h16, scale := 0, s48 := false, ovf := 0 }
theorem test_tg_steps : tgFmt tgCmd = some tgFormat ∧
    (∀ b : Bool, Serves (tgState b) 0 3 tgReady 0 3 tgCmd ∧ ((tgState b).wgOf 0).saving = b) ∧
    tgCmd.got = 0 ∧ tgCmd.plane = none ∧ tgPlaneReads tgCmd tgFormat (tgPos (tgMode tgCmd) tgCmd.pos) ≠ [] ∧
    ∃ s', (tgState false).tgGather 0 3 tgCmd tgFormat (tgPos (tgMode tgCmd) tgCmd.pos) = (.ok (), s') ∧ (s'.wgOf 0).matrix.isSome = true := by
  have h : ((tgState false).tgGather 0 3 tgCmd tgFormat (tgPos (tgMode tgCmd) tgCmd.pos)).1 = .ok () ∧
      (((tgState false).tgGather 0 3 tgCmd tgFormat (tgPos (tgMode tgCmd) tgCmd.pos)).2.wgOf 0).matrix.isSome = true := by decide +kernel
  exact ⟨by decide +kernel, by unfold Serves; decide +kernel, rfl, rfl, by decide +kernel, _, Prod.ext h.1 rfl, h.2⟩

/-- A command that has ended, with a completion word in the scratchpad or none, and a successor held. -/
def endCmd (cadr : Nat) (status : Nat) : Cmd :=
  { command 3 0x1EA [(40, 8, cadr), (48, 4, 9), (56, 2, 2 ^ 3)] .running with ended := true, status, succ := 1027, count := 6 }
def endCmdState (c : Cmd) (q : Tab Chan) : State := sampleOf [] [] fun g => { g with
  hdr := { g.hdr with spad := 8192 }, cmds := [(3, c), (1027, { c with state := .held })], chans := q }
theorem test_commands_complete : ∀ p ∈ ([(0, 0), (4096, 0), (8188, 0x42)] : List (Nat × Nat)), let c := endCmd p.1 p.2
    let s := endCmdState c []
    Serves s 0 3 s.completeReady 0 3 c ∧ c.chan = none ∧ c.mb = false ∧ (c.cadr = 0 ∨ (c.csp = true ∧ c.cadr.toNat % 4 = 0 ∧
      c.cadr.toNat + 4 ≤ (s.wgOf 0).hdr.spad ∧ (c.cadr.toNat + 4 ≤ c.recOff + 58 ∨ c.recOff + 64 ≤ c.cadr.toNat))) ∧
    c.succ.toNat ≠ 3 ∧ (Tab.find (s.wgOf 0).cmds c.succ.toNat).map (·.state) = some .held := by
  unfold Serves
  decide +kernel
/-- One that waits to push, and the queue has room. -/
def pushCmd : Cmd := { command 3 0x1EA [(56, 2, 2 ^ 5 + 2 ^ 6)] .pushing with ended := true, count := 6 }
def queue : Chan := { kind := 2, esz := 2, ldep := 2, src := 3, base := 512 }
theorem test_command_pushes : Serves (endCmdState pushCmd [(1, queue)]) 0 3 (endCmdState pushCmd [(1, queue)]).pushReady 0 3 pushCmd ∧
    pushCmd.chan = some 1 ∧ ((endCmdState pushCmd [(1, queue)]).wgOf 0).resultQueue pushCmd = some (1, queue) := by
  unfold Serves
  decide +kernel
/-- One halted at tick 0 on a page: which is there now; or is not, and 36,000 ticks have passed. -/
def haltedCmd : Cmd := { command 0 0x1E0 [] (.halted 0 0x100) with begun := true }
def haltedState (mem : Tab Byte) : State := { cmdState haltedCmd [] with mem, hb := 36000 }
theorem test_halted_commands :
    Serves (haltedState (State.withFetchWord .reset 32 0).mem) 0 3 (haltedState (State.withFetchWord .reset 32 0).mem).resumeReady 0 3 haltedCmd ∧
    Serves (haltedState []) 0 3 (haltedState []).haltOver 0 3 haltedCmd ∧ haltedCmd.eng ≠ 2 := by
  unfold Serves
  decide +kernel

/-! ### Regions -/

/-- Memory with the page table of `withFetchWord` and numbers at their addresses. -/
def tableMem (fs : List (Nat × Nat × Nat)) : Tab Byte :=
  ((State.withFetchWord .reset 32 0).mem.filter fun p => p.1 < 0x5000) ++
  fs.flatMap fun f => ((bytesOfNat f.2.2 f.2.1).zipIdx.map fun p => (f.1 + p.2, p.1)).filter fun p => p.2 ≠ 0
def tab1 : RTable := { base := 0, len := 512, ctx := { asid := 1, root := 0x1000 } }
/-- A table at address 0, which is 0x5000 in memory, and its block at 0x5100. -/
def regionState (fs : List (Nat × Nat × Nat)) (r : Tab Region) : State := { State.reset with
  mem := tableMem fs, tables := [(9, tab1)], regions := r, signals := [0x5100] }

/-- An armed block that may run; one whose parent is no block; one that waits for another; one released a period ago. -/
theorem test_blocks_read : ∀ p ∈ ([([], true, true), ([(0x5108, 8, 512)], false, true), ([(0x5124, 4, 1)], true, false),
      ([(0x51C0, 8, 1)], true, false)] : List (List (Nat × Nat × Nat) × Bool × Bool)),
    let s := regionState ((0x5100, 4, 1) :: p.1) []
    0x5100 ∈ s.signals ∧ s.blockAt 0x5100 = some (9, tab1, 0x100) ∧ s.natAt 0x5100 4 = 1 ∧ s.hostHolds 0x5100 = false ∧
      s.badBlock 0x5100 = [] ∧ s.linksOk tab1 0x5100 = p.2.1 ∧ s.mayRun tab1 0x5100 = p.2.2 := by decide +kernel
/-- An eligible leaf: of a wrong class, without a header, with a line that is none. -/
theorem test_leaves_eligible : ∀ p ∈ ([([(0x5120, 1, 1), (0x5121, 1, 4)], 0), ([(0x5120, 1, 1), (0x5121, 1, 3), (0x5138, 8, 0x1000)], 1),
      ([(0x5120, 1, 1), (0x5138, 8, 64)], 2)] : List (List (Nat × Nat × Nat) × Nat)),
    let s := regionState (p.1 ++ [(0x5148, 4, 1), (0x514C, 4, 1), (0x5150, 4, 0xFFFF)]) [(0x5100, { table := 9 })]
    s.eligible 0x5100 { table := 9 } = true ∧ Tab.find s.tables 9 = some tab1 ∧ s.natAt (0x5100 + 32) 1 = 1 ∧
    s.hostHolds 0x5100 = false ∧ s.hostHolds (0x5100 + 192) = false ∧ s.isBad 0x5100 = false ∧ s.isBad (0x5100 + 192) = false ∧
    let v := s.resolve tab1 0x5100
    s.blockOk 0x5100 v = decide (p.2 ≠ 0) ∧ (s.headerLine tab1.ctx v.kernel = none ↔ p.2 = 1) ∧
      ((s.headerLine tab1.ctx v.kernel).any headerOk) = false := by decide +kernel
/-- Regions that end with a workgroup that runs, that is saved. -/
theorem test_regions_kill : ∀ st ∈ [WgStatus.running, .parked], let r : Region := { table := 9, ending := some 7 }
    let s : State := { regionState [] [(0x5100, r)] with wgs := [(0, { wg2 [] [] [] with block := 0x5100, status := st })] }
    Tab.find s.regions 0x5100 = some r ∧ s.mustKill 0x5100 r = true ∧ numberedB s = true := by decide +kernel
/-- Runs that are over: well, and with a status. -/
theorem test_regions_over : ∀ e ∈ [none, some 7], let r : Region := { table := 9, state := 3, done := 1, bound := 1, runtk := 5, ending := e }
    let s := regionState [(0x5100, 4, 3)] [(0x5100, r)]
    Tab.find s.regions 0x5100 = some r ∧ s.mustKill 0x5100 r = false ∧ s.runOver 0x5100 r = true ∧ Tab.find s.tables 9 = some tab1 ∧
      s.natAt (0x5100 + 104) 8 = 0 ∧ s.natAt (0x5100 + 96) 2 = 0 ∧ s.hostHolds 0x5100 = false ∧ s.hostHolds (0x5100 + 216) = false ∧
      s.isBad 0x5100 = false ∧ s.isBad (0x5100 + 216) = false := by
  decide +kernel

/-! ### Workgroups on cores -/

/-- A region that runs a kernel of one home warp. -/
def running : Region := { table := 9, state := 3, res := { cls := 1 }, hdr := { oneHdr with spad := 0x40000 }, total := 2 }
def bindState (r : Region) (slots : Tab BindRec) (g : Option Workgroup) : State := { State.reset with
  tables := [(9, tab1)], regions := [(0x5100, r)], cores := [(0, { slots })], wgs := (g.map fun g => (4, g)).toList, binds := 5 }
def oneWg (f : Workgroup → Workgroup := id) : Workgroup :=
  f { wg2 [(2, 9)] [(2, 8)] [(3, 4)] with block := 0x5100, boundSeq := 4 }
/-- The first workgroup, with a workgroup of another region on the core it awaits. -/
theorem test_binding : let r := { running with target := [0] }
    let s := bindState r [(0, { block := 0x5200, op := 1, uid := some 4, obeyed := true })] (some (oneWg fun g => { g with block := 0x5200 }))
    s.queue.head? = some (0x5100, r, none, 0) ∧ r.hdr.gbar = false ∧
    s.placeFor 0x5100 r none = some ⟨0, 1, 4096, 512, 4⟩ := by decide +kernel

/-- One of class 1 has waited 64 ticks; every core is full, core 0 with a workgroup of class 3. -/
def waiting : Region := { running with waiting := some 6 }
def stuckState : State :=
  let full (i : Nat) : BindRec := { block := 0x5200, op := 1, uid := if i = 0 then some 4 else none, obeyed := true }
  let h : Hdr := { oneHdr with hwarps := 128 }
  { bindState waiting [] (some (oneWg fun g => { g with block := 0x5200, cls := 3, hdr := h })) with
    hb := 70, cores := (List.range 128).map fun i => (i, { slots := [(2, full i)] })
    regions := [(0x5100, waiting), (0x5200, { running with hdr := h, bound := 2 })] }
theorem placeFor_none {s : State} {pa : Nat} {r : Region} (ht : r.target = []) (h : ∀ c < 128, s.reserved pa c = true ∨
    withinBudget r.res (s.resident_ pa) c r.hdr = false ∨ s.placeOn c r.hdr r.res.cls none [] = none) : s.placeFor pa r none = none := by
  have hd : s.dieChoice r ≤ 1 := by simp only [State.dieChoice]; split <;> split <;> omega
  have core : ∀ d ≤ 1, ∀ c ∈ s.coresInOrder d, c < 128 := by
    intro d hd c hc
    simp only [State.coresInOrder, List.mem_flatMap, List.mem_mergeSort, List.mem_map, List.mem_range] at hc
    obtain ⟨_, ⟨k, hk, rfl⟩, i, hi, rfl⟩ := hc
    dsimp only
    omega
  simp only [State.placeFor, ht, if_true, List.findSome?_eq_none_iff, List.mem_append]
  intro c hc
  have hc : c < 128 := hc.elim (core _ hd c) (core _ (by omega) c)
  simp only [ite_eq_left_iff, not_or]
  intro hn
  exact ((h c hc).resolve_left hn.1).resolve_left (by simpa using hn.2)
theorem test_pre_emption_waits : stuckState.firstStuck = some (0x5100, waiting, none, 0) ∧ waiting.res.cls = 1 ∧
    waiting.waiting = some 6 ∧ (6 : W64).toNat + 64 ≤ stuckState.hb.toNat ∧ stuckState.roomFor 0x5100 waiting none = some (0, [4]) := by
  refine ⟨?_, by decide +kernel, rfl, by decide +kernel, by decide +kernel⟩
  have hp : stuckState.placeFor 0x5100 waiting none = none := placeFor_none rfl (by decide +kernel)
  have hq : stuckState.queue = [(0x5100, waiting, none, 0)] := by decide +kernel
  have hb : stuckState.budgetOpen 0x5100 waiting = true := by decide +kernel
  simp [State.firstStuck, hq, hb, State.tryBind, hp]
  decide
/-- A record to obey: a bind, and the resumption of a workgroup with a thread in its handler. -/
def bindRec (op : Nat) : BindRec := { block := 0x5100, op, wg := 1, spBase := 256, uid := if op = 1 then none else some 4 }
theorem test_record_binds : let s := bindState running [(31, bindRec 1)] none
    s.takes 0 = true ∧ s.record 0 31 1 = some (bindRec 1) ∧ Tab.find s.regions (bindRec 1).block = some running ∧ running.ending = none ∧
      Tab.find s.tables running.table = some tab1 := by decide +kernel
theorem test_record_resumes : ∀ h ∈ [none, some 3], let g := oneWg fun g => { g with
        status := .parked, hdr := { g.hdr with restore := h }, core := 5
        threads := Tab.map (fun i t => { t with parked := true, priv := i == 1 }) g.threads }
    let s := bindState running [(31, bindRec 2)] (some g)
    s.takes 0 = true ∧ s.record 0 31 2 = some (bindRec 2) ∧ (bindRec 2).uid = some 4 ∧ Tab.find s.wgs 4 = some g ∧
      (∃ p ∈ g.threads, p.2.ended = false ∧ p.2.priv = false) ∧ (∃ p ∈ g.threads, p.2.ended = false ∧ p.2.priv = true) ∧
      ∀ p ∈ g.threads, p.2.failed = [] := by decide +kernel

/-! ### Pre-emption -/

theorem test_record_preempts : let g := oneWg
    let s := bindState running [(0, { bindRec 3 with op := 3 })] (some g)
    s.record 0 0 3 = some { bindRec 3 with op := 3 } ∧ (bindRec 3).uid = some 4 ∧ Tab.find s.wgs 4 = some g ∧ g.status = .running ∧
      Tab.find s.regions g.block = some running := by decide +kernel
/-- Thread 0 of a workgroup that is pre-empted. -/
def goingState (t : Thread) (handler : Option Nat) : State := bindState running [(0, { bindRec 3 with obeyed := true })] (some (oneWg fun g =>
  { g with status := .preempting, hdr := { g.hdr with preempt := handler }, threads := [(0, t), (1, { thr 1 [] with ended := true })] }))
def owes : List Pend := [{ pkt := 0, slot := 0, dests := [.v 2], src := .ready [⟨.v 2, 1⟩] 0 }]
/-- In its trap handler; not settled; to enter a pre-empt handler, or without one; in the restore handler. -/
theorem test_threads_preempted : ∀ p ∈ ([(true, [], none, .program), (false, owes, none, .program), (false, [], some 4, .program),
      (false, [], none, .program), (false, [], some 4, .restoreHandler)] : List (Bool × List Pend × Option Nat × UserMode)),
    let t := { thr 0 [(2, 5)] with priv := p.1, pend := p.2.1, user := p.2.2.2, frames := [{ pc := ⟨7, 0⟩, user := .program, alone := [], cont := none, contSettle := false }] }
    let s := goingState t p.2.2.1
    numberedB s = true ∧ Tab.find (s.wgOf 4).threads 0 = some t ∧ s.entryReady 4 0 = true ∧ s.idle 4 (s.thread 4 0) = decide (p.2.1 = []) ∧
      t.frames.length = 1 := by decide +kernel
/-- A result is pending; a store is in the core's write buffer; nothing is out. -/
theorem test_handlers_over : ∀ q ∈ ([(owes, false), ([], true), ([], false)] : List (List Pend × Bool)),
    let t := { thr 0 [(2, 5)] with pend := q.1, user := .preemptHandler, entered := 3 }
    let s := (goingState t (some 4)).modCore 0 fun k => { k with clk := 65538, wb := if q.2 then [oldStore] else [] }
    numberedB s = true ∧ Tab.find (s.wgOf 4).threads 0 = some t ∧ s.handlerOver 4 0 = true ∧ s.idle 4 (s.thread 4 0) = decide (q.1 = []) ∧
      (q.1 = [] → ((s.drainDeps (s.wgOf 4) ⟨true, true, true, true⟩ (laneAt (s.wgOf 4) none 0)).1 = [] ↔ q.2 = false)) := by decide +kernel
theorem test_context_saved : let s := goingState { thr 0 [(2, 5)] with parked := true } none
    numberedB s = true ∧ s.saveReady 4 = true ∧ (s.wgOut (s.wgOf 4)).1 = [] := by decide +kernel

/-! ### The end of a workgroup -/

def overState (st : WgStatus) (tails : List TailRec) (fs : List (Nat × Nat × Nat)) : State :=
  { bindState running [(0, { bindRec 1 with obeyed := true })] (some (oneWg fun g => { g with
      status := st, tails, threads := Tab.map (fun _ t => { t with ended := true }) g.threads })) with mem := tableMem fs }
theorem test_workgroups_over : ∀ st ∈ [WgStatus.running, .ending], let s := overState st [] []
    numberedB s = true ∧ s.endReady 4 = true ∧ (s.wgOf 4).status = st ∧ Tab.find s.regions (s.wgOf 4).block = some running := by decide +kernel
/-- A header of one home warp of 16 threads, its fields and its check; it needs `tiles` tiles an octet. -/
def headerBytes (tiles : Nat) : List (Nat × Nat × Nat) :=
  let fs := [(0x5000, 4, 0x014B5852), (0x5005, 1, 8), (0x5007, 1, tiles), (0x500C, 1, 1), (0x5020, 8, 2 ^ 64 - 1), (0x5028, 4, 1)]
  fs ++ [(0x503C, 4, crc32c ({ State.reset with mem := tableMem fs }.bytesAt 0x5000 60))]
theorem test_tails : ∀ p ∈ ([([⟨0, 8⟩, ⟨0, 0⟩], headerBytes 0, 4), ([⟨0, 8⟩], [], 1), ([⟨32, 8⟩, ⟨32, 8⟩], [], 1), ([⟨0, 8⟩], headerBytes 4, 3),
      ([⟨0, 8⟩], headerBytes 0, 0)] : List (List TailRec × List (Nat × Nat × Nat) × Nat)),
    let s := (overState .ending p.1 p.2.1).modWg 4 fun g => { g with hdr := { g.hdr with width := 16, tiles := 2 } }
    let g := s.wgOf 4
    let line := s.headerLine g.ctx (p.1.getD 0 ⟨0, 0⟩).hdr
    let h := (line.map headerOf).getD {}
    numberedB s = true ∧ s.tailReady 4 = true ∧ g.tails = p.1 ∧ Tab.find s.regions g.block = some running ∧
      (p.2.2 = 4 ↔ (p.1.drop 1).any (· != p.1.getD 0 ⟨0, 0⟩) = true) ∧ (p.2.2 = 0 ∨ p.2.2 = 3 → line.any headerOk = true) ∧
      (p.2.2 = 1 → line.any headerOk = false) ∧
      (p.2.2 = 0 → h.spad ≤ g.hdr.spad ∧ h.regs ≤ g.hdr.regs ∧ h.threads ≤ g.hdr.threads ∧ h.tileCount ≤ g.hdr.tileCount) ∧
      (p.2.2 = 3 → ¬(h.tileCount ≤ g.hdr.tileCount)) := by decide +kernel

/-! ### Power, the Hall and links -/

/-- A unit set to P0 that sleeps. -/
theorem test_units_wake : ∀ p ∈ [(0, 4), (1043, 1), (1030, 2)], let s : State := { State.reset with power := [p] }
    isUnit p.1 = true ∧ s.powerOf p.1 ≠ 0 ∧ s.powerOf p.1 ≤ 4 ∧ s.isWaking p.1 = false ∧ (p.1 % 8 ≠ 6 ∨ 1024 ≤ p.1) := by decide +kernel
/-- A core that may enter P4, and one that may not since deadline work needs all. -/
theorem test_units_sleep : ∀ b : Bool, let s : State := { State.reset with
        floor := if b then 0 else 128, cores := [(0, { tlb := [{ asid := 1, vpn := 0, pages := 1, pfn := 0, w := true, x := true, prv := false, d := true }] })] }
    0 < 4 ∧ s.powerOk 0 4 = b ∧ (s.coreOf 0).tlb ≠ [] := by decide +kernel
theorem test_wakes_over : let s : State := { State.reset with hb := 1, power := [(0, 1)], waking := [(0, 64)] }
    Tab.find s.waking 0 = some 64 ∧ 64 ≤ s.hb.toNat * 64 := by decide +kernel
theorem test_module_stopped : ∃ s u : State, s.stopped = true ∧ s.agenda = .reset :: [] ∧ u.stopped = true ∧ ∀ rest, u.agenda ≠ .reset :: rest :=
  ⟨{ State.reset with stopped := true, agenda := [.reset] }, { State.reset with stopped := true }, rfl, rfl, rfl, fun _ => by simp [State.reset]⟩

def packet (hops : List Hop) (cls bytes sent : Nat) : Packet := { what := .req 5, hops, cls, plane := 0, bytes, sent }
def packetState (p : Packet) (links : Tab Link := []) : State := { State.reset with pkts := [(2, p)], links }
/-- A column with nothing; with a packet that has a beat more; with its last beat. -/
theorem test_hall_columns : (State.reset.atColumn 0 3 0 = []) ∧ ∀ p ∈ [packet [.hall 0 3 63] 2 65 0, packet [.hall 0 3 63, .link 0 0] 0 65 1],
    let s := packetState p
    (Tab.get {} (s.dieAt 0).hall (3 * 2 + 0)).opened = [] ∧
    (let h := Tab.get {} (s.dieAt 0).hall (3 * 2 + 0)
     let has (c : Nat) : Bool := (s.atColumn 0 3 0).any fun p => p.2.1.cls = c
     pickClass (has 0) (has 1) (has 2) h.n h.b) = some p.cls ∧
    (∀ q ∈ s.atColumn 0 3 0, q.2.2 < 64) ∧ Tab.sorted s.pkts = true ∧
    (p.sent + 1 < (p.bytes + 63) / 64 ∨ ((p.bytes + 63) / 64 ≤ p.sent + 1 ∧ 2 ≤ p.hops.length)) := by decide +kernel
/-- Flits to send: on a port and on UCIe. -/
theorem test_flits_sent : ∀ l ∈ [0, 12], ∀ d < 2, let s := packetState (packet [.link l d] 1 300 0) [(l, {})]
    let x := s.linkAt l
    let y := x.dir d
    let has (c : Nat) : Bool := (s.atLink l d).any fun p => p.2.cls = c
    x.status = .up ∧ y.unacked.length < 2048 ∧ pickClass (has 0) (has 1) (has 2) y.n y.b = some 1 ∧
      (1 ≤ l ∧ l ≤ 12 → s.awake (portUnit (l - 1)) = true) := by decide +kernel
def flit (seq : Nat) : Flit := { cls := 1, seq, parts := [(2, 240)] }
/-- A flit in sequence, and one that is not. -/
theorem test_flits_received : ∀ n ∈ [4095, 0], let d : LinkDir := { wire := [flit n], unacked := [flit n], expect := 4095 }
    let s := packetState (packet [.link 0 0] 1 300 0) [(0, { out := d })]
    (s.linkAt 0).status = .up ∧ ((s.linkAt 0).dir 0).wire = [flit n] ∧ (decide ((flit n).seq = ((s.linkAt 0).dir 0).expect) = (n == 4095)) := by
  decide +kernel
theorem test_flits_lost : let s := packetState (packet [.link 0 0] 1 300 0) [(0, { out := { unacked := [flit 3] } })]
    (s.linkAt 0).status = .up ∧ ((s.linkAt 0).dir 0).wire = [] ∧ ((s.linkAt 0).dir 0).unacked ≠ [] := by decide +kernel
/-- A link in its retrain: at the last tick of it and after; or with three that failed; with a request beyond it. -/
theorem test_links_retrain : ∀ p ∈ [(359712, 0), (0, 3)], let s : State := { State.reset with
        hb := BitVec.ofNat 64 p.1, links := [(0, { status := .retraining 0, fails := p.2 })], homes := [(0, .die 0 0)]
        reqs := [(5, { by_ := .thread 0 0, kind := .read, core := 64, asid := 1, pa := 0x4000, va := 0, size := 4, data := [], state := .sent })] }
    (s.linkAt 0).status = .retraining 0 ∧ s.hb.toNat ≤ (0 : W64).toNat + 359712 ∧
      ((0 : W64).toNat + 359712 ≤ s.hb.toNat ∨ 3 ≤ (s.linkAt 0).fails) ∧ ∃ p ∈ s.reqs, s.usesLink 0 p.2 = true := by decide +kernel
theorem test_links_up : (State.reset.linkAt 0).status = .up := by decide

/-! ### The host, peers, and the module -/

theorem test_host_accesses : ∀ size ∈ [1, 64], let s := State.reset
    (s.usz * 2 ^ 21 < s.usz * 2 ^ 21 + 1) ∧ s.usz * 2 ^ 21 - 64 + size ≤ s.usz * 2 ^ 21 ∧ s.usz ≤ 2 ^ 23 ∧ 0 < size ∧
      (s.usz * 2 ^ 21 - 64) % 64 + size ≤ 64 ∧ s.linkUp 0 = true ∧ (List.replicate size (7 : Byte)).length = size ∧
      List.replicate size (7 : Byte) ≠ [] := by decide +kernel
theorem test_snoops : (∃ (s : State) (line : Nat), line ∈ s.snoops) ∧ ∃ line : Nat, line * 64 / 2 ^ 44 = 255 :=
  ⟨⟨{ State.reset with snoops := [4] }, 4, by decide⟩, 255 * 2 ^ 38, by decide +kernel⟩
/-- Packets of peers: forwarded, with no hop left, for this node, and where it takes none. -/
theorem test_peer_packets : ∀ b : Bool, let s : State := { State.reset with routes := if b then [(0, 0x1000), (63, 0x2000)] else [] }
    63 ≠ s.node ∧ (Tab.get 0 s.routes 63).getLsbD 13 = b ∧ 0 < 1 ∧ 0 = s.node ∧ (Tab.get 0 s.routes s.node).getLsbD 12 = b ∧
      (2 ^ 40 - 64) % 2 ^ 44 + 64 > s.usz * 2 ^ 21 ∧ 4096 % 2 ^ 44 + 64 ≤ s.usz * 2 ^ 21 ∧ s.usz ≤ 2 ^ 23 ∧ 4096 % 64 + 64 ≤ 64 ∧
      (List.replicate 64 (0 : Byte)).length = 64 ∧ s.linkUp 0 = true := by decide +kernel
theorem test_devstat_bounds : State.reset.usz < 2 ^ 32 ∧ State.reset.phase < 4 ∧ State.reset.node < 64 := by decide
theorem test_staged_images : ∃ s : State, s.staged = some { bytes := [1], version := 1 } := ⟨{ State.reset with staged := some { bytes := [1], version := 1 } }, rfl⟩

/-- The mailbox busy; open. -/
theorem test_mailbox : (∃ s : State, s.phase ≠ 2) ∧ (∃ s : State, s.enabling ≠ []) ∧ State.reset.phase = 2 ∧ State.reset.enabling = [] ∧
    (∃ n, n < 64 ∧ n = 63) ∧ (∃ n, ¬n < 64) ∧ (∃ p, p < 12 ∧ p = 11) ∧ (∃ p, ¬p < 12) ∧ (∃ n, n ≤ 128 ∧ n = 128) ∧ (∃ n, ¬n ≤ 128) ∧
    (∃ n, 100 ≤ n ∧ n ≤ 65535 ∧ n = 65535) ∧ (∃ n, ¬(100 ≤ n ∧ n ≤ 65535)) ∧ 0 < State.reset.certs.length ∧ ¬1 < State.reset.certs.length :=
  ⟨⟨{ State.reset with phase := 1 }, by decide⟩, ⟨{ State.reset with enabling := [1] }, by decide⟩, rfl, rfl, ⟨63, by decide, rfl⟩,
    ⟨64, by decide⟩, ⟨11, by decide, rfl⟩, ⟨12, by decide⟩, ⟨128, by decide, rfl⟩, ⟨129, by decide⟩, ⟨65535, by decide, by decide, rfl⟩,
    ⟨99, by decide⟩, by decide, by decide⟩
theorem test_renumber : let s := State.reset
    63 ≠ s.node ∧ 63 < 64 ∧ 2 ^ 44 - 1 < 2 ^ 44 ∧ Memory.wf s.mem = true ∧ (∀ p < 12, s.linkUp (p + 1) = false) ∧
      ∀ q ∈ s.tables, s.tableIdle q.1 = true := by decide +kernel
theorem test_ports_enable : let s : State := { State.reset with enabling := [11] }
    11 ∈ s.enabling ∧ s.portQuiet 11 = true ∧ State.reset.linkUp 12 = false ∧ { State.reset with links := [(12, {})] }.linkUp 12 = true := by
  decide +kernel
/-- Tables to register: good, with and without a key of its context; and not. -/
theorem test_tables_register : let s : State := { regionState [(0x5100, 4, 1)] [] with tables := [(255, { tab1 with ctx := { asid := 7 } })] }
    s.phase = 2 ∧ s.enabling = [] ∧ (0 % 4096 = 0 ∧ 0 + 512 ≤ 2 ^ 48 ∧ 512 % 256 = 0 ∧ 512 ≤ 2 ^ 26 ∧ 1 < 2 ^ 16 ∧ 0x1000 % 4096 = 0 ∧
      0x1000 < 2 ^ 52 ∧ s.tables.length < 256) ∧ ¬(4 % 4096 = 0) ∧ (∀ p ∈ s.tables, p.2.ctx.asid = 1 → p.2.ctx.root = 0x1000 → p.2.ctx.key = 0) ∧
      s.lookup { asid := 1, root := 0x1000, key := 1 } (0 + 256 * 1) = some 0x5100 ∧ s.natAt 0x5100 4 = 1 := by decide +kernel
theorem test_tables_deregister : let s : State := { regionState [] [] with background := some 9 }
    s.phase = 2 ∧ s.enabling = [] ∧ s.background = some 9 ∧ s.tableIdle 9 = true ∧ State.reset.background = none ∧
      Tab.find State.reset.tables 9 = none ∧ (regionState [] []).background = none ∧ Tab.find (regionState [] []).tables 9 = some tab1 := by
  decide +kernel
theorem test_attestation : (List.replicate 32 (0 : Byte)).length = 32 ∧ ([] : List Byte).length ≠ 32 ∧ State.reset.transferred = [] ∧
    { State.reset with transferred := [1] }.transferred ≠ [] := by decide

/-! ### Words of the encoding tables

Each is written out from R8 to R11, R15 and the opcode of R39: C at bit 31, T at 30, OP at 29, D at 20, A at 13 and B at 6. -/

def plain (d a b : Nat) : Args := { ctl := ctl0, d := BitVec.ofNat 7 d, a := BitVec.ofNat 7 a, b := BitVec.ofNat 7 b }
/-- `sadd s1, s2, s3`: OP 0x001, D 1, A 2, B 3. -/
theorem test_word_sadd : decode [0x00204103] = some (.ok (.sadd (plain 1 2 3)), []) := rfl
/-- `sadd s4, s4, 1`: OP 0x01A, D 4, A 4, immediate 1. -/
theorem test_word_sadd_immediate : decode [0x03410201] = some (.ok (.saddI (plain 4 4 1)), []) := rfl
/-- `(!p3) br -1`: OP 0x040, PRED 3, NEG 1, OFF -1. -/
theorem test_word_br : decode [0x0801FFFF] = some (.ok (.br { chain := false, settle := false, pred := 3, neg := true, off := -1 }), []) := rfl
/-- R41: `vadd.s32 v1, v2, v3` is 0x0C004103, with the operand 5 0x14004105, with the operand 100 0x0C00415F and 0x00000064. -/
theorem test_word_vadd : decode [0x0C004103] = some (.ok (.vaddS32 (plain 1 2 3)), []) ∧
    decode [0x14004105] = some (.ok (.vaddS32I (plain 1 2 5)), []) ∧
    decode [0x0C00415F, 0x00000064, 7] = some (.ok (.vaddS32 { plain 1 2 95 with ctl := { ctl0 with lb := some 100 } }), [7]) :=
  ⟨rfl, rfl, rfl⟩
/-- R39: `plop p1, p2, p3, 0b1000` is OP 0x0D8. -/
theorem test_word_plop : decode [0x1B004103] = some (.ok (.plop 8 (plain 1 2 3)), []) := rfl
/-- A prefix with F = 1, then `xred.add.s32 v1, v2`: OP 0x0F0. -/
theorem test_word_xred : decode [0xBFC00010, 0x1E004100] = some (.ok (.xredAddS32 (argsF 1 2 0 1)), []) := rfl
/-- `fadd.f32 v1, v2, v3` with T and C: OP 0x101. -/
theorem test_word_fadd : decode [0xE0204103] = some (.ok (.faddF32 { plain 1 2 3 with ctl := { ctl0 with chain := true, settle := true } }), []) := rfl
/-- `ld.b32 v8, [v2 - 4]`: OP 0x184, offset -1. -/
theorem test_word_ld : decode [0x3082017F] = some (.ok (.ldB32 (plain 8 2 127)), []) := rfl
/-- `amo.add.b32 v8, [v2]`: OP 0x1A9, selector 0. -/
theorem test_word_amo : decode [0x35220100] = some (.ok (.amoB32 (plain 8 2 0)), []) := rfl
/-- `gbar`: OP 0x1C1. -/
theorem test_word_gbar : decode [0x38200000] = some (.ok (.gbar (plain 0 0 0)), []) := rfl
/-- `mzero ac3`: OP 0x1D4. -/
theorem test_word_mzero : decode [0x3A80C000] = some (.ok (.mzero (plain 3 0 0)), []) := rfl
/-- `cpy v8, v2`: OP 0x1E0, B 0x40. -/
theorem test_word_cpy : decode [0x3C020140] = some (.ok (.cpy (plain 8 2 64)), []) := rfl
/-- `trap 5` and `rst`: OP 0x1F8, and OP 0x1FA with selector 3. -/
theorem test_word_system : decode [0x3F000005] = some (.ok (.trap (plain 0 0 5)), []) ∧ decode [0x3F400003] = some (.ok (.rst (plain 0 0 3)), []) :=
  ⟨rfl, rfl⟩
/-- R17, R40: OP 0x1FF, a lone 0x1FE, OP 0x000 in a word that is not 0. R16: a prefix in the last slot, before a prefix, before J, before `nop`. -/
theorem test_words_illegal : decode [0x3FE00000] = some (.error (.unassigned 0x1FF), []) ∧ decode [0x3FC00000, 1] = some (.error .loneWord, [1]) ∧
    decode [1] = some (.error (.unassigned 0), []) ∧ decode [0xBFC00000] = some (.error .pfxLast, []) ∧
    decode [0xBFC00000, 0xBFC00000] = some (.error .pfxPfx, [0xBFC00000]) ∧ decode [0xBFC00000, 0x08000000] = some (.error .pfxJ, []) ∧
    decode [0xBFC00000, 0] = some (.error .pfxNop, []) := ⟨rfl, rfl, rfl, rfl, rfl, rfl, rfl⟩

/-! ### Ill-formed terms -/

def withPfx (x : Args) (p : Pfx) : Args := { x with ctl := { x.ctl with pfx := some p } }
def pfx0 : Pfx := { bs := false, z := false, f := 0, rnd := 0, neg := false, pred := 0 }
/-- Each is refused by one check: a field that must hold 0, an odd pair, a quad, a channel as a destination with bit 5 set, a
literal where none is read, a predicate, a mask, a tile, a special register, one that is read only, a privileged one, a
successor, a qualifier, an operation of `amo`, of `amos`, of `red`, of `red.n8`, a selector of `bar`, a drain control. -/
theorem test_ill_formed_fields : ∀ i ∈ ([.bra (plain 1 2 0), .vaddS64 (plain 3 2 4), .ldB128 (plain 2 2 0), .vaddS32 (plain 97 2 3),
    .vaddS32 { plain 1 95 3 with ctl := { ctl0 with la := some 1 } }, .scmpEq (plain 48 1 1), .jn (plain 12 0 0), .mzero (plain 4 0 0),
    .rdsr (plain 1 20 0), .wrsr (plain 0 2 0), .rdpr (plain 2 8 0), .cpy (plain 8 2 65), .fence (plain 0 0 0), .amoB32 (plain 8 2 11),
    .amosB32 (plain 8 2 16), .redB32 (plain 8 2 9), .redN8 (plain 8 2 0), .bar (plain 0 0 32), .mdr (withPfx (plain 0 2 3) pfx0)] : List Instr),
    i.wf = false := by decide +kernel
/-- And by the checks of the prefix: it is missing; stands before a command; RND 7; RND, Z, BS or F where they are not used; a
predicate beyond 47. -/
theorem test_ill_formed_prefixes : ∀ i ∈ ([.vmadS32 (plain 1 2 3), .cpy (withPfx (plain 8 2 64) pfx0),
    .faddF32 (withPfx (plain 1 2 3) { pfx0 with rnd := 7 }), .vaddS32 (withPfx (plain 1 2 3) { pfx0 with rnd := 1 }),
    .sadd (withPfx (plain 1 2 3) { pfx0 with z := true }), .sadd (withPfx (plain 1 2 3) { pfx0 with bs := true }),
    .vaddS32 (withPfx (plain 1 2 3) { pfx0 with f := 1 }), .vaddS32 (withPfx (plain 1 2 3) { pfx0 with pred := 48 })] : List Instr),
    i.wf = false := by decide +kernel
/-- By the checks of literals: none where the field claims one, one where none does, more than a packet holds. By the checks that
join fields: `bar` without a payload, D of `fence`, CG of `mdr`, `wrpr` of a read-only register, a selector; and PRED of `br`. -/
theorem test_ill_formed_joins : ∀ i ∈ ([.vaddS32 (plain 1 2 95), .vaddS32 { plain 1 2 3 with ctl := { ctl0 with lb := some 1 } },
    .vcmpEqB32 { plain 1 95 95 with ctl := { ctl0 with pfx := some pfx0, la := some 1, lb := some 2 } }, .bar (plain 1 0 0),
    .fence (plain 1 0 4), .mdr (withPfx (plain 0 2 4) pfx0), .wrpr (plain 1 2 1), .sret (plain 0 0 1),
    .br { chain := false, settle := false, pred := 48, neg := false, off := 0 }] : List Instr), i.wf = false := by decide +kernel
/-- The same terms with those fields mended are well formed. -/
theorem test_well_formed : ∀ i ∈ ([.bra (plain 0 2 0), .vaddS64 (plain 2 2 4), .ldB128 (plain 4 2 0), .vaddS32 (plain 65 2 3), .scmpEq (plain 47 1 1),
    .jn (plain 11 0 0), .mzero (plain 3 0 0), .rdsr (plain 1 18 0), .wrsr (plain 13 2 0), .rdpr (plain 2 7 0), .cpy (plain 8 2 64),
    .fence (plain 0 0 4), .amoB32 (plain 8 2 9), .amosB32 (plain 8 2 0), .redB32 (plain 8 2 8), .redN8 (plain 8 2 4), .bar (plain 0 0 0),
    .mdr (withPfx (plain 0 2 2) pfx0), .vmadS32 (withPfx (plain 1 2 3) pfx0), .faddF32 (withPfx (plain 1 2 3) { pfx0 with rnd := 6, bs := true, z := true }),
    .bar (plain 1 0 16), .fence (plain 1 0 7), .wrpr (plain 2 2 1), .sret (plain 0 0 0),
    .br { chain := false, settle := false, pred := 47, neg := false, off := 0 }] : List Instr), i.wf = true := by decide +kernel

/-! ### What a step runs -/

/-- `vadd.s32 v1, v2, v3` placed to be fetched, OP 0x1FF, and a lone OP 0x1FE: only this one makes its group illegal. -/
def placed (w : Nat) : State := State.withFetchWord .reset 32 w
def grant0 : Grant := { wg := 0, tids := List.range 16, fw := 0, released := false, gathered := false }
def layout0 (w : W32) : Layout := (layoutBody none w [0, 0]).1
/-- The state once its packet has been fetched. -/
def afterFetch (w : Nat) : State := ({ placed w with granted := [] }.fetchPacket ((placed w).wgOf 0) ((placed w).thread 0 0) 0).2
def words0 : List Nat := [0x0C004103, 0x3FE00000, 0x3FC00000]
theorem placed_fetches : ∀ w ∈ words0,
    ({ placed w with granted := [] }.fetchPacket ((placed w).wgOf 0) ((placed w).thread 0 0) 0).1 = .ok [BitVec.ofNat 32 w, 0, 0] := by
  decide +kernel
theorem fetched_of {p : Except Cause (List W32) × State} {ws : List W32} (h : p.1 = .ok ws) : p = (.ok ws, p.2) := Prod.ext h rfl
theorem test_at_group : ∀ w ∈ words0, ∃ (s s1 : State) (gr : Grant) (rest : List Grant) (at_ : PC) (ws : List W32) (l : Layout),
    AtGroup s s1 gr rest at_ ws l ∧ (w ≠ 0x3FC00000 → ¬IllegalGroup s1 gr at_ l ∧ NothingWaits s1 gr at_ l) ∧
    (w = 0x3FC00000 → IllegalGroup s1 gr at_ l) ∧ gr.tids.Nodup ∧ ws.drop at_.slot = [BitVec.ofNat 32 w, 0, 0] := by
  have h : ∀ w ∈ words0, (placed w).stopped = false ∧ (placed w).cutting = false ∧ (placed w).granted = [grant0] ∧
      (∀ i ∈ List.range 16, let u := (placed w).thread 0 i; u.pc = ⟨0, 0⟩ ∧ u.ended = false ∧ u.parked = false ∧ u.hold = .ready ∧
        u.owedNow = false ∧ u.alone = []) ∧ (layout0 (BitVec.ofNat 32 w)).chain = false ∧
      (groupBad ((afterFetch w).wgOf 0) (mdrvNames ((afterFetch w).wgOf 0) (List.range 16)) [(0, layout0 (BitVec.ofNat 32 w))] = (w == 0x3FC00000)) ∧
      (beforeGroup (afterFetch w) grant0 ⟨0, 0⟩ (layout0 (BitVec.ofNat 32 w))).gateGroup [(0, layout0 (BitVec.ofNat 32 w))] =
        { beforeGroup (afterFetch w) grant0 ⟨0, 0⟩ (layout0 (BitVec.ofNat 32 w)) with
          cur := some { groupCur (afterFetch w) grant0 ⟨0, 0⟩ (layout0 (BitVec.ofNat 32 w)) with
            slot := 0, word := if w = 0x0C004103 then BitVec.ofNat 32 w else 0 } } := by
    decide +kernel
  intro w hw
  obtain ⟨h1, h2, h3, h4, h5, h6, h7⟩ := h w hw
  refine ⟨placed w, _, grant0, [], ⟨0, 0⟩, [BitVec.ofNat 32 w, 0, 0], layout0 (BitVec.ofNat 32 w), ?_,
    fun hn => ⟨fun hb => hn (by simpa [h6] using hb.symm.trans h6), _, _, h7⟩, fun he => h6.trans (by simp [he]), by decide, rfl⟩
  exact {
    running := h1, still := h2, granted := h3, some_ := by decide, there := h4, single := h5
    fetched := fun i hi => by cases hi; exact fetched_of (placed_fetches w hw)
    words := by
      rcases List.mem_cons.mp hw with rfl | hw
      · exact ⟨_, rfl⟩
      · rcases List.mem_cons.mp hw with rfl | hw
        · exact ⟨_, rfl⟩
        · cases List.mem_singleton.mp hw; exact ⟨_, rfl⟩ }
theorem test_steps_decode : (∃ i more, decode [0x0C004103, 0, 0] = some (.ok i, more) ∧ i.wf = true) ∧
    ∀ w ∈ [0x3FE00000, 0x3FC00000], ∃ e more, decode [w, 0, 0] = some (.error e, more) := ⟨⟨.vaddS32 (plain 1 2 3), _, rfl, by decide +kernel⟩,
  fun w hw => by
    rcases List.mem_cons.mp hw with rfl | hw
    · exact ⟨_, _, rfl⟩
    · cases List.mem_singleton.mp hw; exact ⟨_, _, rfl⟩⟩
theorem test_agenda : ∃ (s : State) (i : Instr) (rest : List Instr), s.stopped = false ∧ s.cutting = false ∧ s.granted = [] ∧ s.agenda = i :: rest :=
  ⟨{ State.reset with agenda := [.reset] }, _, _, rfl, rfl, rfl, rfl⟩
theorem test_unassigned : ∀ w ∈ [0x3FE00000, 0x1FE00000, 0x3FC00000, 1], BitVec.ofNat 32 w ≠ 0 ∧ (unassigned (opOf (BitVec.ofNat 32 w)) = true ∨
    (opOf (BitVec.ofNat 32 w) = 0x1FE ∧ chainOf (BitVec.ofNat 32 w) = false)) := by decide +kernel

/-- Threads that trapped in their group: with a handler, their results pending or not; without; in a region of FDP 1. -/
def trapState (fhnd : W64) (pend : List Pend) (fdp : Nat) : State :=
  let t (i : Nat) : Thread := { thr i [] with trapSlot := some 0, tcause := 0x20, pend }
  let s := sampleOf [] [] fun g => { g with fhnd, fhEntry := 3, block := 0x5100, threads := [(0, t 0), (1, t 1)] }
  { s with regions := [(0x5100, { table := 9, res := { fdp } })] }
theorem test_traps : ∀ p ∈ ([(64, [], 0), (64, owes, 0), (0, [], 0), (0, [], 1)] : List (Nat × List Pend × Nat)),
    let s := trapState (BitVec.ofNat 64 p.1) p.2.1 p.2.2
    cur2.lanes.Nodup ∧ (Tab.find s.wgs cur2.wg).isSome ∧ (∀ i ∈ cur2.lanes, (Tab.find (s.wgOf cur2.wg).threads i).isSome) ∧
    trappedIn s cur2 = [0, 1] ∧ (∀ i ∈ trappedIn s cur2, (s.thread cur2.wg i).priv = false ∧ (s.thread cur2.wg i).pend = p.2.1 ∧
      s.idle cur2.wg (s.thread cur2.wg i) = decide (p.2.1 = []) ∧ (s.thread cur2.wg i).tcause ≠ 0x13) ∧
    (∀ p ∈ s.wgs, ∀ q ∈ p.2.threads, q.2.failed = []) ∧
    (s.wgOf cur2.wg).fhnd.toNat = p.1 ∧
    ((trappedIn s cur2).filter fun i => (s.wgOf cur2.wg).fhnd == 0 || (s.thread cur2.wg i).priv).length ≤ 256 ∧
    (Tab.find s.regions (s.wgOf cur2.wg).block).map (·.res.fdp) = some p.2.2 := by decide +kernel

/-- Instructions to encode, of every format, with literals and a prefix at the bounds of its fields. -/
theorem test_encodes : ∀ i ∈ ([.nop, .br { chain := true, settle := true, pred := 47, neg := true, off := 8191 }, .cpy (plain 63 63 63),
    .vmadS32 (withPfx { plain 63 63 95 with ctl := { ctl0 with lb := some 0xFFFFFFFF } } { pfx0 with f := 63, z := true, neg := true, pred := 47 }),
    .ldB32 (plain 63 62 64)] : List Instr), i.isWord = true ∧ i.wf = true := by decide +kernel
theorem test_words_come_back : ∃ ws rest i, decode ws = some (.ok i, rest) := ⟨[0x0C00415F, 100, 7], [7], .vaddS32 { plain 1 2 95 with ctl := { ctl0 with lb := some 100 } }, rfl⟩
theorem test_reset_invariants : State.Inv .reset ∧ State.Numbered .reset :=
  ⟨⟨by decide, fun _ => (by decide : (0 : W32) &&& 0xFFFFC000 = 0), by decide, by decide, by decide, by decide⟩, numbered_ofB (by decide +kernel)⟩

/-! ### Small steps -/

/-- Register 8 of thread 0 after an instruction on the sample state. -/
noncomputable def after8 (i : Instr) (s : State) : Option W32 :=
  match exec i s with
  | .next t => some ((t.thread 0 0).readV 8)
  | _ => none
/-- 2^32 - 1 + 9 wraps to 8 (R101). -/
theorem test_add_wraps : after8 (.vaddS32 (args 8 2 4)) (base 0xFFFFFFFF 0 0 0) = some 8 := by decide +kernel
/-- 0x80000000 - 9 saturates at the least number (R101). -/
theorem test_sub_saturates : after8 (.vsubSatS32 (args 8 2 4)) (base 0x80000000 0 0 0) = some 0x80000000 := by decide +kernel
/-- -7 / 9 truncates to 0, and its remainder is -7 (R101). -/
theorem test_divides : after8 (.vdivS32 (args 8 2 4)) (base 0xFFFFFFF9 0 0 0) = some 0 ∧
    after8 (.vremS32 (args 8 2 4)) (base 0xFFFFFFF9 0 0 0) = some 0xFFFFFFF9 := by decide +kernel
/-- An arithmetic shift fills with the sign (R103). -/
theorem test_shift_fills : after8 (.vsraB32I (args 8 2 4)) (base 0x80000000 0 0 0) = some 0xF8000000 := by decide +kernel
/-- 1.0 + 2.0 is 3.0, bit patterns of FP32 (R117). -/
theorem test_float_adds : after8 (.faddF32 (args 8 2 14)) (sampleOf [(2, 0x3F800000), (14, 0x40000000)] []) = some 0x40400000 := by decide +kernel
/-- The scalar sum of 2^64 - 1 and 2 is 1 (R79). -/
theorem test_scalar_adds : (match exec (.sadd (args 5 2 3)) (base 0 0 (2 ^ 64 - 1) 2) with
    | .next t => (((t.wgOf 0).hw 0).readS 5).toNat
    | _ => 0) = 1 := by decide +kernel
/-- `rdpr` in a thread that is not privileged traps with code 0x11 (R44). -/
theorem test_privilege : (match exec (.rdpr (args 8 7 0)) (base 0 0 0 0) with
    | .next t => ((t.thread 0 0).tcause, (t.thread 0 0).trapSlot, (t.thread 0 0).readV 8)
    | _ => (0, none, 0)) = (0x11, some 0, 0) := by decide +kernel

end Sys2Proof.Machine.Tests
end

namespace Sys2Proof

/-! ## Words and their fields (R8 to R16)

The fields an encoder puts into a word are the fields the decoder reads from it, and a word is made of its fields. -/

theorem opOf_eq_toNat (w : W32) : opOf w = (w.extractLsb' 21 9).toNat := by
  simp [opOf, bitsNat]

theorem opOf_lt (w : W32) : opOf w < 512 := opOf_eq_toNat w ▸ BitVec.isLt _

section
variable (op : Nat) (x : Args) (j : ArgsJ) (p : Pfx)

theorem Args.opOf_word (h : op < 512) : opOf (x.word op) = op := by
  have : (x.word op).extractLsb' 21 9 = BitVec.ofNat 9 op := by
    ext i hi
    simp only [Args.word, BitVec.getElem_extractLsb', BitVec.getLsbD_append]
    grind
  rw [opOf_eq_toNat, this, BitVec.toNat_ofNat, Nat.mod_eq_of_lt h]

@[simp] theorem Args.chainOf_word : chainOf (x.word op) = x.ctl.chain := by
  simp only [chainOf, bitAt, Args.word, BitVec.getLsbD_append]
  simp

@[simp] theorem Args.settleOf_word : settleOf (x.word op) = x.ctl.settle := by
  simp only [settleOf, bitAt, Args.word, BitVec.getLsbD_append]
  simp

@[simp] theorem Args.d_word : (x.word op).extractLsb' 14 7 = x.d := by
  ext i hi
  simp only [Args.word, BitVec.getElem_extractLsb', BitVec.getLsbD_append]
  grind

@[simp] theorem Args.a_word : (x.word op).extractLsb' 7 7 = x.a := by
  ext i hi
  simp only [Args.word, BitVec.getElem_extractLsb', BitVec.getLsbD_append]
  grind

@[simp] theorem Args.b_word : (x.word op).extractLsb' 0 7 = x.b := by
  ext i hi
  simp only [Args.word, BitVec.getElem_extractLsb', BitVec.getLsbD_append]
  grind

theorem ArgsJ.opOf_word (h : op < 512) : opOf (j.word op) = op := by
  have : (j.word op).extractLsb' 21 9 = BitVec.ofNat 9 op := by
    ext i hi
    simp only [ArgsJ.word, BitVec.getElem_extractLsb', BitVec.getLsbD_append]
    grind
  rw [opOf_eq_toNat, this, BitVec.toNat_ofNat, Nat.mod_eq_of_lt h]

theorem ArgsJ.jFields_word : jFields (j.word op) = j := by
  have hc : chainOf (j.word op) = j.chain := by
    simp only [chainOf, bitAt, ArgsJ.word, BitVec.getLsbD_append]
    simp
  have hs : settleOf (j.word op) = j.settle := by
    simp only [settleOf, bitAt, ArgsJ.word, BitVec.getLsbD_append]
    simp
  have hp : (j.word op).extractLsb' 15 6 = j.pred := by
    ext i hi
    simp only [ArgsJ.word, BitVec.getElem_extractLsb', BitVec.getLsbD_append]
    grind
  have hn : bitAt (j.word op) 14 = j.neg := by
    simp only [bitAt, ArgsJ.word, BitVec.getLsbD_append]
    simp
  have ho : (j.word op).extractLsb' 0 14 = j.off := by
    ext i hi
    simp only [ArgsJ.word, BitVec.getElem_extractLsb', BitVec.getLsbD_append]
    grind
  simp only [jFields, hc, hs, hp, hn, ho]

/-- The marks of a word that stands before an instruction and modifies it (R15, R16). -/
structure IsPfx (w : W32) : Prop where
  op : opOf w = 0x1FE
  chain : chainOf w = true

theorem Pfx.isPfx_encode : IsPfx p.encode where
  op := by
    have : p.encode.extractLsb' 21 9 = 0x1FE := by
      ext i hi
      simp only [Pfx.encode, BitVec.getElem_extractLsb', BitVec.getLsbD_append]
      grind
    rw [opOf_eq_toNat, this]
    rfl
  chain := by
    simp only [chainOf, bitAt, Pfx.encode, BitVec.getLsbD_append]
    simp

theorem Pfx.settleOf_encode : settleOf p.encode = false := by
  simp only [settleOf, bitAt, Pfx.encode, BitVec.getLsbD_append]
  simp

theorem Pfx.reserved_encode : bitsNat p.encode 1 0 = 0 := by
  have : p.encode.extractLsb' 0 2 = 0 := by
    ext i hi
    simp only [Pfx.encode, BitVec.getElem_extractLsb', BitVec.getLsbD_append]
    grind
  simpa [bitsNat] using congrArg BitVec.toNat this

theorem Pfx.pfxFields_encode : pfxFields p.encode = p := by
  have hbs : bitAt p.encode 2 = p.bs := by
    simp only [bitAt, Pfx.encode, BitVec.getLsbD_append]
    simp
  have hz : bitAt p.encode 3 = p.z := by
    simp only [bitAt, Pfx.encode, BitVec.getLsbD_append]
    simp
  have hf : p.encode.extractLsb' 4 7 = p.f := by
    ext i hi
    simp only [Pfx.encode, BitVec.getElem_extractLsb', BitVec.getLsbD_append]
    grind
  have hr : p.encode.extractLsb' 11 3 = p.rnd := by
    ext i hi
    simp only [Pfx.encode, BitVec.getElem_extractLsb', BitVec.getLsbD_append]
    grind
  have hn : bitAt p.encode 14 = p.neg := by
    simp only [bitAt, Pfx.encode, BitVec.getLsbD_append]
    simp
  have hp : p.encode.extractLsb' 15 6 = p.pred := by
    ext i hi
    simp only [Pfx.encode, BitVec.getElem_extractLsb', BitVec.getLsbD_append]
    grind
  simp only [pfxFields, hbs, hz, hf, hr, hn, hp]
end

theorem word_argsOf (pw : Option W32) (w : W32) (la lb lf : Option W32) : (argsOf pw w la lb lf).word (opOf w) = w := by
  rw [opOf_eq_toNat]
  ext i hi
  simp only [← BitVec.getLsbD_eq_getElem, Args.word, argsOf, chainOf, settleOf, bitAt, BitVec.getLsbD_append,
    BitVec.getLsbD_extractLsb', BitVec.ofNat_toNat, BitVec.setWidth_eq, BitVec.getLsbD_ofBool]
  interval_cases i <;> simp

theorem word_jFields (w : W32) : (jFields w).word (opOf w) = w := by
  rw [opOf_eq_toNat]
  ext i hi
  simp only [← BitVec.getLsbD_eq_getElem, ArgsJ.word, jFields, chainOf, settleOf, bitAt, BitVec.getLsbD_append,
    BitVec.getLsbD_extractLsb', BitVec.ofNat_toNat, BitVec.setWidth_eq, BitVec.getLsbD_ofBool]
  interval_cases i <;> simp

theorem IsPfx.encode_pfxFields {w : W32} (h : IsPfx w) (ht : settleOf w = false) (hr : bitsNat w 1 0 = 0) :
    (pfxFields w).encode = w := by
  have hop : w.extractLsb' 21 9 = (0x1FE : BitVec 9) := BitVec.eq_of_toNat_eq (opOf_eq_toNat w ▸ h.op)
  have hlow : w.extractLsb' 0 2 = (0 : BitVec 2) := BitVec.eq_of_toNat_eq (by simpa [bitsNat] using hr)
  have hc : w[31] = true := h.chain
  have ht : w[30] = false := ht
  rw [Pfx.encode, ← hop, ← hlow]
  ext i hi
  simp only [← BitVec.getLsbD_eq_getElem, pfxFields, bitAt, BitVec.getLsbD_append,
    BitVec.getLsbD_extractLsb', BitVec.getLsbD_ofBool]
  interval_cases i <;> simp [hc, ht]

end Sys2Proof

namespace Sys2Proof.Laws
open Decoded

/-- The map of R39 gives every well-formed instruction word back from its opcode and its fields. -/
theorem decoded_statement (i : Instr) : Decoded.Statement i :=
  Instr.rec (motive := Decoded.Statement)
    nop sadd ssub smul smulhS64 smulhN64 sdivS64 sdivN64 sremS64 sremN64 sand sor sxor sshl sshr ssra sminS64 sminN64
    smaxS64 smaxN64 smov ssel rdsr wrsr sldk smovV saddI sandI sorI sxorI sshlI sshrI ssraI sli scmpEq scmpNe
    scmpLtS64 scmpLeS64 scmpLtN64 scmpLeN64 scmpEqI scmpNeI scmpLtS64I scmpLtN64I sldN8 sldS8 sldN16 sldS16 sldN32
    sldS32 sldB64 sstN8 sstN16 sstN32 sstB64 br bra brx call ret meet jn lv exit tail spawn elect yield vaddS32
    vaddS64 vaddSatS32 vaddSatN32 vsubS32 vsubS64 vsubSatS32 vsubSatN32 vmulS32 vmulS64 vmulhS32 vmulhN32 vmadS32
    vmadS64 vadcN32 vsbcN32 vdivS32 vdivN32 vdivS64 vdivN64 vremS32 vremN32 vremS64 vremN64 vabsS32 vabsS64 vnegS32
    vnegS64 vminS32 vminN32 vmaxS32 vmaxN32 vminS64 vminN64 vmaxS64 vmaxN64 vandB32 vorB32 vxorB32 vandnB32 vandB64
    vorB64 vxorB64 vandnB64 vshlB32 vshrB32 vsraB32 vrotB32 vshlB64 vshrB64 vsraB64 vrotB64 vclzB32 vclzB64 vpopcB32
    vpopcB64 vbrevB32 vbrevB64 vbfeS32 vbfeN32 vbfiB32 vleaB64 vmovB32 vmovB64 vaddS32I vandB32I vorB32I vxorB32I
    vshlB32I vshrB32I vsraB32I vrotB32I vliB32 vselB32 vselB64 vcvtS32S8 vcvtS32S16 vcvtN32N8 vcvtN32N16 vcvtS64S32
    vcvtN64N32 vcvtS8S32 vcvtS16S32 vcvtN8N32 vcvtN16N32 vcvtS32S64 vcvtN32N64 vcvtS32N32 vcvtN32S32 vcmpEqB32
    vcmpNeB32 vcmpLtS32 vcmpLeS32 vcmpLtN32 vcmpLeN32 vcmpEqB64 vcmpNeB64 vcmpLtS64 vcmpLeS64 vcmpLtN64 vcmpLeN64
    vcmpEqB32I vcmpLtS32I vcmpLtN32I plop xshfB32 xshuB32 xshdB32 xbflB32 xvoteAny xvoteAll xvoteBal xmatchB32
    xbcastB32 xshfB64 xbcastB64 xmatchB64 xredAddS32 xredMinS32 xredMaxS32 xredMinN32 xredMaxN32 xredAndB32 xredOrB32
    xredXorB32 xredAddS64 xscanAddS32 xscanAddxS32 xscanMinS32 xscanMaxS32 xscanOrB32 xscanAddxS64 ffmaF32 faddF32
    fsubF32 fmulF32 fminF32 fmaxF32 fminnF32 fmaxnF32 fabsF32 fnegF32 fcpsF32 fclassF32 frndF32 fsclF32 fgetxF32
    fdot2F32H2 ffmaH2 faddH2 fsubH2 fmulH2 fminH2 fmaxH2 fminnH2 fmaxnH2 fabsH2 fnegH2 fcpsH2 fclassH2 frndH2 fsclH2
    fgetxH2 fdot2F32Bh2 ffmaBh2 faddBh2 fsubBh2 fmulBh2 fminBh2 fmaxBh2 fminnBh2 fmaxnBh2 fabsBh2 fnegBh2 fcpsBh2
    fclassBh2 frndBh2 fsclBh2 fgetxBh2 fdot4F32Q8 fcmpEqF32 fcmpNeF32 fcmpLtF32 fcmpLeF32 fcmpUnF32 fcmpOrdF32
    fcvtF32F16 fcvtF32Bf16 fcvtH2F32 fcvtBh2F32 fcvtF32Q8 fcvtQ8F32 fcvtiS32F32 fcvtiN32F32 fcvtfF32S32 fcvtfF32N32
    fcvtiS64F32 fcvtiN64F32 fcvtfF32S64 fcvtfF32N64 fqntQ8F32 fdqntF32Q8 fsqrtF32 frcpF32 frsqF32 fex2F32 flg2F32
    fsinF32 fcosF32 ftnhF32 ftabF32 ldtab swtab ldN8 ldS8 ldN16 ldS16 ldB32 ldB64 ldB128 ldB32S ldB64S ldB128S ldB32Q
    ldB64Q stN8 stN16 stB32 stB64 stB128 stB32S stB64S stB128S stB32Q stB64Q ldsN8 ldsS8 ldsN16 ldsS16 ldsB32 ldsB64
    ldsB128 stsN8 stsN16 stsB32 stsB64 stsB128 ldncB32 ldncB64 ldncB128 ldvB32 ldvB64 ldvB128 pf amoB32 amoB64 amosB32
    amosB64 redN8 redB32 redB64 redwF32 redwS32 wfinF32 wfinS64 fence fsc waddrB32 waddrB64 Decoded.seal Decoded.unseal bar gbar mbini
    mbarv mbwt mbtry chbind chfree chstat mst mflip mma mmas mzero mdr mdrv mbyp mvote mstat cpy cpyg cpys cpyf ceIns
    ceQry ceAcc ceMap ceClr ceSeal tg scnz sctk erel ecan estat trap brk sret rply park rst flane perf rdpr wrpr tlbi
    issueClock fetchCodeLine resultReturn meetingRelease electRelease crossLaneRelease fqntRelease barRelease
    gbarRelease mbwtRelease waddrPoll yieldResume heartbeatTick writeThroughTimeout homeWriteApply sharerUpdate
    writeAck homeRead multicastWindowEnd directoryDrop promotionProbe porchLineExpire reductionUnitApply pageWalk
    placementEvaluate migrationCutOver migrationDone engineCommandStart engineCommandComplete engineQueuePush
    engineFaultResume engineFaultTimeout coordKeyOp tgStep planeLoadDone flipTakeEffect matrixPass handlerEntry Decoded.bind
    resume preempt preemptEntry preemptHandlerTimeout contextSave workgroupEnd tailStart stateWordWrite
    hearthReadBlock regionEligible regionComplete hearthBind highClassPreemptWait powerStateSet wakeComplete hallGrant
    linkFlitSend flitReceive replayRequest linkRetrainStart linkRetrainEnd linkDown peerPacketReceive hostMemRead
    hostMemWrite backInvalidateResponse hostSnoop reset thermalThrottle thermalShutdown devstatWrite registerTable
    deregisterTable deregistrationComplete writeRouteEntry xelasPortReenable portReenableComplete xelasPortDeclareDown
    deadlineDemandFloor powerLimit attestation eventQueueEntry replayThreshold nodeNumber certificateChain transferFw
    activateFw matrixOperationComplete i

end Sys2Proof.Laws

namespace Sys2Proof

/-! ## The opcode map (R39): what each entry names, and which of its fields claim literals -/

/-- An entry of the map gives an instruction of opcode `op` that carries the fields of the word: `x`, or those of format J. -/
structure Names (op : Nat) (w : W32) (x : Args) (o : Option Instr) : Prop where
  all : ∀ i, o = some i → i.op = op ∧ (i.args? = some x ∨ i = .br (jFields w))

section
variable {op : Nat} {w : W32} {x : Args}

theorem names_none : Names op w x none := ⟨fun _ h => nomatch h⟩

theorem names_br : Names 0x40 w x (some (.br (jFields w))) where
  all := by
    rintro _ ⟨⟩
    exact ⟨rfl, .inr rfl⟩

theorem names_some {i : Instr} (ho : i.op = op) (hx : i.args? = some x) : Names op w x (some i) where
  all := by
    rintro _ ⟨⟩
    exact ⟨ho, .inl hx⟩

theorem names_need {p : Prop} [Decidable p] {i : Instr} (ho : i.op = op) (hx : i.args? = some x) :
    Names op w x (need p i) := by
  unfold need
  split
  · exact names_some ho hx
  · exact names_none

theorem names_or {o o' : Option Instr} (h : Names op w x o) (h' : Names op w x o') : Names op w x (o.or o') := by
  cases o with
  | none => exact h'
  | some i => exact h

theorem ofOp_names (h : op < 512) : Names op w x (ofOp op w x) := by
  interval_cases op <;> apply_rules [names_none, names_br, names_some, names_need, names_or, rfl]
end

/-- Whether a field of kind `k` takes a literal (R13, R51). -/
def FK.takesLit : FK → Bool
  | .vec _ true _ | .sca true => true
  | _ => false

/-- The literal pattern stands only in a field that holds any bits or takes a literal, and there not as a scalar register. -/
theorem FK.ok_litField {k : FK} {dest bs : Bool} (h : k.ok litField dest bs = true) :
    k = .any ∨ k.takesLit = true ∧ (k.bsOk = true → bs = false) := by
  cases k with
  | any => exact .inl rfl
  | vec w lit chan =>
    cases lit <;> cases bs <;> simp_all [FK.ok, FK.takesLit, alignedReg, chanField, litField, bitAt, bitsNat]
  | sca lit => cases lit <;> simp_all [FK.ok, FK.takesLit, FK.bsOk, litField, bitAt]
  | qual q => simp_all [FK.ok, Qual.ok, litField, bitsNat]
  | _ => simp_all [FK.ok, alignedReg, litField, selOpn, bitAt, bitsNat]

/-- In a field of kind `k` the literal pattern claims a literal exactly where the format has the field claim one. -/
def FK.fits (k : FK) (claims : Bool) : Bool := if claims then k != .any else !k.takesLit

/-- What the operands of opcode `op` and its format agree on: it is a format with fields, they claim the same literals (R13),
and BS stands only where B can be a register of either file (R98). -/
def Sig.fits (op : Nat) (g : Sig) : Bool :=
  fmtOf op != .J && fmtOf op != .none && op != 0x1FE && g.a.fits (fmtOf op).claimsA && g.b.fits (fmtOf op).claimsB &&
  (!g.bs || g.b.bsOk) && (g.f != .any && !g.f.takesLit)

/-- Every operand list of the entry agrees with the format of opcode `op`. -/
structure Fits (op : Nat) (o : Option Sig) : Prop where
  all : ∀ g, o = some g → g.fits op = true

section
variable {op : Nat} {x : Args}

theorem fits_none : Fits op none := ⟨fun _ h => nomatch h⟩

theorem fits_some {g : Sig} (h : g.fits op = true) : Fits op (some g) where
  all := by
    rintro _ ⟨⟩
    exact h

theorem fits_ite {p : Prop} [Decidable p] {o o' : Option Sig} (h : Fits op o) (h' : Fits op o') :
    Fits op (if p then o else o') := by
  split
  · exact h
  · exact h'

theorem sigOf_fits (h : op < 512) : Fits op (sigOf op x) := by
  interval_cases op <;> apply_rules [fits_none, fits_some, fits_ite, rfl]

theorem sigOf_eq_none (h : 512 ≤ op) : sigOf op x = none := by
  obtain ⟨n, hn⟩ : ∃ n, op / 16 = n + 32 := ⟨op / 16 - 32, by omega⟩
  simp only [sigOf, hn]

theorem op_lt_of_sigOf {g : Sig} (h : sigOf op x = some g) : op < 512 := by
  by_contra hop
  simp [sigOf_eq_none (Nat.le_of_not_lt hop)] at h
end

/-! ## Taking literals (R13) -/

theorem takeLit_toList {c : Bool} {l : Option W32} (h : l.isSome = c) (rest : List W32) :
    takeLit c (l.toList ++ rest) = some (l, rest) := by
  subst h
  cases l <;> rfl

theorem toList_of_takeLit {c : Bool} {l : Option W32} {ws rest : List W32} (h : takeLit c ws = some (l, rest)) :
    ws = l.toList ++ rest := by
  cases c with
  | false => cases h; rfl
  | true => cases ws with
    | nil => cases h
    | cons w ws => cases h; rfl

theorem takeLits_toList {ca cb cf : Bool} {la lb lf : Option W32} (ha : la.isSome = ca) (hb : lb.isSome = cb)
    (hf : lf.isSome = cf) (rest : List W32) :
    takeLits ca cb cf (la.toList ++ (lb.toList ++ (lf.toList ++ rest))) = some ((la, lb, lf), rest) := by
  simp [takeLits, takeLit_toList ha, takeLit_toList hb, takeLit_toList hf]

theorem toList_of_takeLits {ca cb cf : Bool} {la lb lf : Option W32} {ws rest : List W32}
    (h : takeLits ca cb cf ws = some ((la, lb, lf), rest)) : ws = la.toList ++ (lb.toList ++ (lf.toList ++ rest)) := by
  simp only [takeLits, Option.bind_eq_bind, Option.bind_eq_some_iff, Prod.exists, Option.pure_def, Option.some.injEq,
    Prod.mk.injEq] at h
  obtain ⟨_, ws₁, h₁, _, ws₂, h₂, _, ws₃, h₃, ⟨rfl, rfl, rfl⟩, rfl⟩ := h
  rw [toList_of_takeLit h₁, toList_of_takeLit h₂, toList_of_takeLit h₃]

theorem takeLits_none {la lb lf : Option W32} {ws rest : List W32}
    (h : takeLits false false false ws = some ((la, lb, lf), rest)) : la = none ∧ lb = none ∧ lf = none ∧ ws = rest := by
  cases h
  exact ⟨rfl, rfl, rfl, rfl⟩

/-! ## The words of one instruction -/

/-- The literals that the word `w` claims with `pw` before it, taken from the words after it. -/
def claimed (pw : Option W32) (w : W32) (tail : List W32) : Option ((Option W32 × Option W32 × Option W32) × List W32) :=
  takeLits ((fmtOf (opOf w)).claimsA && w.extractLsb' 7 7 == litField)
    ((fmtOf (opOf w)).claimsB && w.extractLsb' 0 7 == litField)
    (((pw.map pfxFields).map (·.f)).getD 0 == litField) tail

section
variable {pw : Option W32} {w : W32} {tail rest : List W32}

theorem layoutBody_of_claimed {la lb lf : Option W32} (h : claimed pw w tail = some ((la, lb, lf), rest)) :
    layoutBody pw w tail = ({
      size := pw.toList.length + 1 + (tail.length - rest.length), chain := chainOf w, settle := settleOf w, w,
      x := argsOf pw w la lb lf, err := layoutErr pw w }, rest) := by
  unfold claimed at h
  simp only [layoutBody, argsOf, h]

theorem claimed_of_layoutBody {l : Layout} (h : layoutBody pw w tail = (l, rest)) (he : l.err = none) :
    ∃ la lb lf, claimed pw w tail = some ((la, lb, lf), rest) := by
  cases hc : claimed pw w tail with
  | none =>
    unfold claimed at hc
    simp only [layoutBody, argsOf, hc] at h
    cases h
    cases he
  | some p =>
    obtain ⟨⟨la, lb, lf⟩, rest'⟩ := p
    rw [layoutBody_of_claimed hc] at h
    cases h
    exact ⟨la, lb, lf, rfl⟩

theorem layoutOne_append (hp : ∀ p, pw = some p → IsPfx p) (hw : opOf w ≠ 0x1FE) :
    layoutOne (pw.toList ++ w :: tail) = some (layoutBody pw w tail) := by
  cases pw with
  | none => simp [layoutOne, hw]
  | some p => simp [layoutOne, hw, (hp p rfl).op, (hp p rfl).chain]

/-- Words that are laid out without error are an instruction word, with at most one word before it. -/
theorem layoutBody_of_layoutOne {ws : List W32} {l : Layout} (h : layoutOne ws = some (l, rest)) (he : l.err = none) :
    ∃ pw w tail, ws = pw.toList ++ w :: tail ∧ (∀ p, pw = some p → IsPfx p) ∧ layoutBody pw w tail = (l, rest) := by
  cases ws with
  | nil => cases h
  | cons p ws =>
    by_cases hp : opOf p = 0x1FE ∧ chainOf p = true
    · cases ws with
      | nil =>
        simp only [layoutOne, if_pos hp] at h
        cases h
        cases he
      | cons w tail =>
        by_cases hw : opOf w = 0x1FE ∧ chainOf w = true
        · simp only [layoutOne, if_pos hp, if_pos hw] at h
          cases h
          cases he
        · simp only [layoutOne, if_pos hp, if_neg hw, Option.some.injEq] at h
          exact ⟨some p, w, tail, rfl, fun _ e => by cases e; exact ⟨hp.1, hp.2⟩, h⟩
    · simp only [layoutOne, if_neg hp, Option.some.injEq] at h
      exact ⟨none, p, ws, rfl, fun _ e => (nomatch e), h⟩
end

/-! ## Decoding an encoding -/

theorem Instr.wf_of_args {i : Instr} {x : Args} (hx : i.args? = some x) : i.wf = (wfArgs i.op x && i.selects) := by
  unfold Instr.wf
  split
  · cases hx
  · simp [hx]

theorem encode_of_args {i : Instr} {x : Args} (hx : i.args? = some x) : encode i =
    (x.ctl.pfx.map Pfx.encode).toList ++ x.word i.op :: (x.ctl.la.toList ++ (x.ctl.lb.toList ++ x.ctl.lf.toList)) := by
  unfold encode
  split
  · cases hx
  · cases hx
  · simp [hx]

theorem Instr.cases_of_isWord {i : Instr} (h : i.isWord = true) : i = .nop ∨ (∃ j, i = .br j) ∨ ∃ x, i.args? = some x := by
  unfold Instr.isWord at h
  split at h
  · exact .inl rfl
  · exact .inr (.inl ⟨_, rfl⟩)
  · exact .inr (.inr (Option.isSome_iff_exists.mp h))

theorem argsOf_word (op : Nat) (x : Args) :
    argsOf (x.ctl.pfx.map Pfx.encode) (x.word op) x.ctl.la x.ctl.lb x.ctl.lf = x := by
  have hp : (x.ctl.pfx.map Pfx.encode).map pfxFields = x.ctl.pfx := by
    simp [Function.comp_def, Pfx.pfxFields_encode]
  simp only [argsOf, Args.chainOf_word, Args.settleOf_word, Args.d_word, Args.a_word, Args.b_word, hp]

theorem Sig.lits_of_litsWf {g : Sig} {x : Args} (h : g.litsWf x = true) :
    x.ctl.la.isSome = (g.a.takesLit && x.a == litField) ∧
    x.ctl.lb.isSome = (g.b.takesLit && (!(x.ctl.pfx.map (·.bs)).getD false && x.b == litField)) ∧ x.ctl.lf = none := by
  simp only [Sig.litsWf, Bool.and_eq_true, beq_iff_eq, Option.isNone_iff_eq_none] at h
  obtain ⟨⟨ha, hb⟩, hf⟩ := h
  refine ⟨ha.trans ?_, hb.trans ?_, hf⟩
  all_goals
    clear ha hb
    split <;> simp [FK.takesLit, *]

/-- A field claims its literal in the decoder where well-formedness says it stands. -/
theorem FK.claims_of_fits {k : FK} {claims bs : Bool} {fld : BitVec 7} (hk : k.fits claims = true)
    (hok : k.ok fld false bs = true) (hbs : bs = true → k.bsOk = true) :
    (k.takesLit && (!bs && fld == litField)) = (claims && fld == litField) := by
  by_cases hf : fld = litField
  · subst hf
    have := FK.ok_litField hok
    cases claims <;> cases bs <;> simp_all [FK.fits]
  · simp [beq_false_of_ne hf]

/-- The fourth operand is never the literal pattern. -/
theorem Sig.f_ne_litField {g : Sig} {p : Option Pfx} (h : g.pfxWf p = true) (hany : g.f ≠ .any) (hlit : g.f.takesLit = false) :
    (p.map (·.f)).getD 0 ≠ litField := by
  cases p with
  | none => decide
  | some p =>
    simp only [Sig.pfxWf, Bool.and_eq_true] at h
    obtain ⟨-, hf⟩ := h
    rintro (e : p.f = litField)
    obtain h | ⟨h, -⟩ := FK.ok_litField (e ▸ hf)
    · exact hany h
    · exact Bool.false_ne_true (hlit.symm.trans h)

section
variable {op : Nat} {x : Args} {g : Sig} (hg : sigOf op x = some g)
include hg

/-- An opcode with operands has a format with fields, and is not the one that marks a modifying word (R39, R40). -/
theorem fmtOf_of_sigOf : fmtOf op ≠ .J ∧ fmtOf op ≠ .none ∧ op ≠ 0x1FE := by
  have h := (sigOf_fits (op_lt_of_sigOf hg)).all g hg
  simp only [Sig.fits, Bool.and_eq_true, bne_iff_ne] at h
  obtain ⟨⟨⟨⟨⟨⟨hj, hn⟩, h1⟩, -⟩, -⟩, -⟩, -⟩ := h
  exact ⟨hj, hn, h1⟩

theorem word_ne_zero : x.word op ≠ 0 := by
  intro e
  have hop := x.opOf_word op (op_lt_of_sigOf hg)
  rw [e] at hop
  exact (fmtOf_of_sigOf hg).2.1 (hop ▸ rfl)

theorem layoutErr_word : layoutErr (x.ctl.pfx.map Pfx.encode) (x.word op) = none := by
  obtain ⟨hj, hn, h1⟩ := fmtOf_of_sigOf hg
  cases x.ctl.pfx <;>
    simp only [layoutErr, Option.map_none, Option.map_some, word_ne_zero hg, x.opOf_word op (op_lt_of_sigOf hg), hj, hn, h1,
      Pfx.settleOf_encode, Pfx.reserved_encode, Bool.false_eq_true, ne_eq, not_true_eq_false, or_self, if_false]

/-- The literals of a well-formed instruction stand where its word claims them. -/
theorem claimed_word (hwf : g.wf x = true) (rest : List W32) :
    claimed (x.ctl.pfx.map Pfx.encode) (x.word op) (x.ctl.la.toList ++ (x.ctl.lb.toList ++ (x.ctl.lf.toList ++ rest))) =
      some ((x.ctl.la, x.ctl.lb, x.ctl.lf), rest) := by
  have hfits := (sigOf_fits (op_lt_of_sigOf hg)).all g hg
  simp only [Sig.fits, Bool.and_eq_true, bne_iff_ne, Bool.not_eq_true'] at hfits
  obtain ⟨⟨⟨-, hfa⟩, hfb⟩, hbs⟩ := hfits.1
  obtain ⟨hany, hlit⟩ := hfits.2
  simp only [Sig.wf, Bool.and_eq_true] at hwf
  obtain ⟨⟨⟨⟨⟨-, hoka⟩, hokb⟩, hpfx⟩, hlits⟩, -⟩ := hwf
  obtain ⟨hla, hlb, hlf⟩ := Sig.lits_of_litsWf hlits
  have hB : (x.ctl.pfx.map (·.bs)).getD false = true → g.b.bsOk = true := by
    cases hp : x.ctl.pfx with
    | none => intro h; cases h
    | some p =>
      intro (h : p.bs = true)
      simp only [Sig.pfxWf, hp, h, Bool.and_eq_true] at hpfx
      simp_all
  have ha := hla.trans (by simpa using FK.claims_of_fits (bs := false) hfa hoka (by simp))
  have hb := hlb.trans (FK.claims_of_fits hfb hokb hB)
  have hf : x.ctl.lf.isSome = (((x.ctl.pfx.map Pfx.encode).map pfxFields |>.map (·.f)).getD 0 == litField) := by
    have := Sig.f_ne_litField hpfx hany hlit
    rw [beq_false_of_ne (by simpa [Function.comp_def, Pfx.pfxFields_encode] using this), hlf]
    rfl
  rw [claimed, x.opOf_word op (op_lt_of_sigOf hg), x.a_word, x.b_word]
  exact takeLits_toList ha hb hf rest
end

theorem Instr.wf_sigOf {i : Instr} {x : Args} (hx : i.args? = some x) (h : i.wf = true) :
    ∃ g, sigOf i.op x = some g ∧ g.wf x = true := by
  rw [Instr.wf_of_args hx, wfArgs] at h
  cases hg : sigOf i.op x with
  | none => simp [hg] at h
  | some g =>
    simp only [hg, Bool.and_eq_true] at h
    exact ⟨g, rfl, h.1.1⟩

theorem decode_encode_args {i : Instr} {x : Args} (hx : i.args? = some x) (hwf : i.wf = true) (rest : List W32) :
    decode (encode i ++ rest) = some (.ok i, rest) := by
  obtain ⟨g, hg, hg'⟩ := Instr.wf_sigOf hx hwf
  have hop := x.opOf_word i.op (op_lt_of_sigOf hg)
  have hp : ∀ p, x.ctl.pfx.map Pfx.encode = some p → IsPfx p := by
    intro p h
    obtain ⟨q, -, rfl⟩ := Option.map_eq_some_iff.mp h
    exact q.isPfx_encode
  rw [encode_of_args hx]
  simp only [List.append_assoc, List.cons_append, decode, layoutOne_append hp (hop.trans_ne (fmtOf_of_sigOf hg).2.2),
    layoutBody_of_claimed (claimed_word hg hg' rest), Option.map_some, Layout.instr, layoutErr_word hg, word_ne_zero hg,
    if_false, hop, argsOf_word, Laws.decoded_statement i x (x.word i.op) hx hwf]

theorem decode_encode_br (j : ArgsJ) (rest : List W32) : decode (encode (.br j) ++ rest) = some (.ok (.br j), rest) := by
  have hop := j.opOf_word 0x40 (by decide)
  have hw : j.word 0x40 ≠ 0 := by
    intro e
    rw [e] at hop
    exact absurd hop (by decide)
  have hc : claimed none (j.word 0x40) rest = some ((none, none, none), rest) := by
    rw [claimed, hop]
    rfl
  have herr : layoutErr none (j.word 0x40) = none := by
    simp only [layoutErr, hw, hop, if_false]
    rfl
  show decode ((none : Option W32).toList ++ j.word 0x40 :: rest) = _
  simp only [decode, layoutOne_append (pw := none) (by simp) (hop.trans_ne (by decide)), layoutBody_of_claimed hc,
    Option.map_some, Layout.instr, herr, hw, if_false, hop]
  simp [ofOp, row0x04, j.jFields_word]

theorem decode_encode_nop (rest : List W32) : decode (encode .nop ++ rest) = some (.ok .nop, rest) := by
  rfl

theorem decode_encode (i : Instr) (rest : List W32) (hw : i.isWord = true) (hwf : i.wf = true) :
    decode (encode i ++ rest) = some (.ok i, rest) := by
  obtain rfl | ⟨j, rfl⟩ | ⟨x, hx⟩ := Instr.cases_of_isWord hw
  · exact decode_encode_nop rest
  · exact decode_encode_br j rest
  · exact decode_encode_args hx hwf rest

/-! ## Encoding what was decoded -/

theorem layoutErr_some_none {p w : W32} (h : layoutErr (some p) w = none) :
    settleOf p = false ∧ bitsNat p 1 0 = 0 ∧ w ≠ 0 ∧ fmtOf (opOf w) ≠ .J := by
  simp only [layoutErr] at h
  split_ifs at h with h₁ h₂ h₃ h₄ h₅
  simp only [not_or, ne_eq, not_not, Bool.not_eq_true] at h₁
  exact ⟨h₁.1, h₁.2, h₂, h₄⟩

theorem map_encode_pfxFields {pw : Option W32} {w : W32} (hp : ∀ p, pw = some p → IsPfx p) (he : layoutErr pw w = none) :
    (pw.map pfxFields).map Pfx.encode = pw := by
  cases pw with
  | none => rfl
  | some p =>
    obtain ⟨ht, hr, -⟩ := layoutErr_some_none he
    exact congrArg some ((hp p rfl).encode_pfxFields ht hr)

/-- A word of a format without fields that claim literals, with nothing before it, has no literals. -/
theorem claimed_none {w : W32} {tail rest : List W32} {la lb lf : Option W32} (ha : (fmtOf (opOf w)).claimsA = false)
    (hb : (fmtOf (opOf w)).claimsB = false) (h : claimed none w tail = some ((la, lb, lf), rest)) : tail = rest := by
  rw [claimed, ha, hb] at h
  exact (takeLits_none h).2.2.2

theorem encode_of_layout {pw : Option W32} {w : W32} {tail rest : List W32} {la lb lf : Option W32} {i : Instr}
    (hp : ∀ p, pw = some p → IsPfx p) (he : layoutErr pw w = none) (hc : claimed pw w tail = some ((la, lb, lf), rest))
    (hi : w = 0 ∧ i = .nop ∨ ofOp (opOf w) w (argsOf pw w la lb lf) = some i) :
    pw.toList ++ w :: tail = encode i ++ rest := by
  obtain ⟨rfl, rfl⟩ | hi := hi
  · cases pw with
    | some p => exact absurd rfl (layoutErr_some_none he).2.2.1
    | none => rw [claimed_none rfl rfl hc]; rfl
  · obtain ⟨hop, hx | rfl⟩ := (ofOp_names (opOf_lt w)).all i hi
    · rw [encode_of_args hx, hop, word_argsOf, show (argsOf pw w la lb lf).ctl.pfx = pw.map pfxFields from rfl,
        map_encode_pfxFields hp he, toList_of_takeLits hc]
      simp [argsOf]
    · have hj : fmtOf (opOf w) = .J := by rw [← hop]; rfl
      cases pw with
      | some p => exact absurd hj (layoutErr_some_none he).2.2.2
      | none =>
        rw [claimed_none (by rw [hj]; rfl) (by rw [hj]; rfl) hc]
        show w :: rest = (jFields w).word 0x40 :: rest
        rw [show 0x40 = opOf w from hop, word_jFields]

theorem Layout.instr_eq_ok {l : Layout} {i : Instr} (h : l.instr = .ok i) :
    l.err = none ∧ (l.w = 0 ∧ i = .nop ∨ ofOp (opOf l.w) l.w l.x = some i) := by
  unfold Layout.instr at h
  split at h
  · cases h
  next he =>
    refine ⟨he, ?_⟩
    split at h
    next hw => exact .inl ⟨hw, by cases h; rfl⟩
    · split at h
      next ho => exact .inr (by cases h; exact ho)
      · cases h

theorem encode_decode (ws rest : List W32) (i : Instr) (h : decode ws = some (.ok i, rest)) : ws = encode i ++ rest := by
  obtain ⟨⟨l, rest'⟩, hl, h⟩ := Option.map_eq_some_iff.mp h
  obtain ⟨hi, rfl⟩ : l.instr = .ok i ∧ rest' = rest := by simpa using h
  obtain ⟨he, hi⟩ := Layout.instr_eq_ok hi
  obtain ⟨pw, w, tail, rfl, hp, hb⟩ := layoutBody_of_layoutOne hl he
  obtain ⟨la, lb, lf, hc⟩ := claimed_of_layoutBody hb he
  rw [layoutBody_of_claimed hc] at hb
  cases hb
  exact encode_of_layout hp he hc hi

end Sys2Proof

/-- Settles O57: the fields of an encoded word are read back, the literals stand where the word claims them, and the entry of the
opcode map gives the instruction; backwards, each entry of the map names its own opcode. -/
theorem decodeEncode : Obligations.DecodeEncode :=
  ⟨Sys2Proof.decode_encode, Sys2Proof.encode_decode⟩

/-- Settles O56: each sample is the encoding of a well-formed instruction, which decodes. -/
theorem wordsDecode : Obligations.WordsDecode := by
  have h : ∀ p ∈ Sys2Proof.Machine.wordSamples,
      p.1 = Sys2Proof.encode p.2 ∧ p.2.isWord = true ∧ p.2.wf = true := by decide +kernel
  intro p hp rest
  obtain ⟨he, hw, hwf⟩ := h p hp
  rw [he, Sys2Proof.decode_encode p.2 rest hw hwf]

namespace Sys2Proof.Machine

/-! ## Special functions (R127) -/

/-! ### The values of the FP32 patterns that R127 names -/

theorem decode_fp32_negInf : fp32.decode 0xFF800000 = .inf true := by decide
theorem decode_fp32_posInf : fp32.decode 0x7F800000 = .inf false := by decide
theorem decode_fp32_negZero : fp32.decode 0x80000000 = .zero true := by decide
theorem decode_fp32_posZero : fp32.decode 0 = .zero false := by decide

/-- R52 for FP32: exponent and fraction of a pattern, under its sign. -/
theorem decode_fp32 (n : Nat) : fp32.decode n =
    if n % 2 ^ 31 = 0x7F800000 then .inf (n.testBit 31)
    else if 0x7F800000 < n % 2 ^ 31 then .nan (!n.testBit 22)
    else if n % 2 ^ 31 = 0 then .zero (n.testBit 31)
    else .fin (n.testBit 31) (fp32.magOf (n % 2 ^ 31)).1 (fp32.magOf (n % 2 ^ 31)).2 := rfl

theorem decode_fp32_nan {n : Nat} (h : 0x7F800000 < n % 2 ^ 31) : fp32.decode n = .nan (!n.testBit 22) := by
  rw [decode_fp32, if_neg (by omega), if_pos h]

theorem decode_fp32_negFinite {n : Nat} (hlo : 0x80000000 < n) (hhi : n < 0xFF800000) :
    ∃ m e, fp32.decode n = .fin true m e := by
  have hs : n.testBit 31 = true := by
    rw [show n = 2 ^ 31 + (n - 2 ^ 31) by omega, Nat.testBit_two_pow_add_eq, Nat.testBit_lt_two_pow (by omega)]
    rfl
  rw [decode_fp32, if_neg (by omega), if_neg (by omega), if_neg (by omega), hs]
  exact ⟨_, _, rfl⟩

/-- A row of the special cases, of a function that looks at the value its operand decodes to. -/
def SpecialCases.Hold (r : SpecialCases) (i : LaneIn) : Prop :=
  (i.nb = 0xFF800000 → r.fn i = r.negInf) ∧ (i.nb = 0x7F800000 → r.fn i = r.posInf) ∧
  (i.nb = 0x80000000 → r.fn i = r.negZero) ∧ (i.nb = 0 → r.fn i = r.posZero) ∧
  (0x80000000 < i.nb → i.nb < 0xFF800000 → ∀ o, r.below = some o → r.fn i = o) ∧
  (0x7F800000 < i.nb % 2 ^ 31 → r.fn i = patternOut 0x7FC00000 (if i.nb.testBit 22 then 0 else fInvalid))

/-- The special cases follow from what the function gives for the values they name. -/
theorem SpecialCases.hold_of_decode {r : SpecialCases} (i : LaneIn)
    (hinf : ∀ n, fp32.decode i.nb = .inf n → r.fn i = if n then r.negInf else r.posInf)
    (hzero : ∀ n, fp32.decode i.nb = .zero n → r.fn i = if n then r.negZero else r.posZero)
    (hbelow : ∀ m e, fp32.decode i.nb = .fin true m e → ∀ o, r.below = some o → r.fn i = o)
    (hnan : ∀ s, fp32.decode i.nb = .nan s → r.fn i = nanOut s) : r.Hold i := by
  refine ⟨fun h => hinf true (h ▸ decode_fp32_negInf), fun h => hinf false (h ▸ decode_fp32_posInf),
    fun h => hzero true (h ▸ decode_fp32_negZero), fun h => hzero false (h ▸ decode_fp32_posZero), fun hlo hhi => ?_, fun h => ?_⟩
  · obtain ⟨m, e, hd⟩ := decode_fp32_negFinite hlo hhi
    exact hbelow m e hd
  · rw [hnan _ (decode_fp32_nan h)]
    cases i.nb.testBit 22 <;> rfl

theorem specialCases_hold : ∀ r ∈ specialCases, ∀ i, r.Hold i := by
  intro r hr i
  simp only [specialCases, List.mem_cons, List.not_mem_nil, or_false] at hr
  apply SpecialCases.hold_of_decode
  case hinf | hzero =>
    intro n (h : fp32.decode i.b32.toNat = _)
    rcases hr with rfl | rfl | rfl | rfl | rfl | rfl | rfl | rfl <;> simp only [laneFsqrtF32, laneFrcpF32, laneFrsqF32,
      laneFex2F32, laneFlg2F32, laneFsinF32, laneFcosF32, laneFtnhF32, h] <;> cases n <;> rfl
  case hbelow =>
    intro m e (h : fp32.decode i.b32.toNat = _) o ho
    rcases hr with rfl | rfl | rfl | rfl | rfl | rfl | rfl | rfl <;> cases ho <;> simp only [laneFsqrtF32, laneFrsqF32,
      laneFlg2F32, h] <;> rfl
  case hnan =>
    intro s (h : fp32.decode i.b32.toNat = _)
    rcases hr with rfl | rfl | rfl | rfl | rfl | rfl | rfl | rfl <;> simp only [laneFsqrtF32, laneFrcpF32, laneFrsqF32,
      laneFex2F32, laneFlg2F32, laneFsinF32, laneFcosF32, laneFtnhF32, h]

theorem specialRows_compute : Computes specialRows := by
  intro r hr x sg c s h hc
  simp only [specialRows, List.mem_cons, List.not_mem_nil, or_false] at hr
  rcases hr with rfl | rfl | rfl | rfl | rfl | rfl | rfl | rfl <;> exact lanewise_noChannel h hc _

end Sys2Proof.Machine

/-- Settles O7: each special function computes lane by lane on the value its operand decodes to, and its special cases are
values of their own. -/
theorem specialFunctions : Obligations.SpecialFunctions :=
  ⟨Sys2Proof.Machine.specialRows_compute, Sys2Proof.Machine.specialCases_hold⟩

namespace Sys2Proof.Machine

/-! ## Instructions that each lane, or each home warp, executes for itself

What `perLane` does to the threads of a group, and what `perHome` does to its home warps where no lane meets a cause. -/

/-- Threads changed one after another, each by a function of the workgroup that does not look at the threads. -/
theorem foldl_modThread_parts (ls : List Lane) (u : Workgroup → Lane → Thread → Thread)
    (hu : ∀ (g : Workgroup) T l, u { g with threads := T } l = u g l) (g : Workgroup) :
    ls.foldl (fun g l => g.modThread l.tid (u g l)) g = ls.foldl (fun g' l => g'.modThread l.tid (u g l)) g := by
  suffices ∀ T, ls.foldl (fun g l => g.modThread l.tid (u g l)) { g with threads := T } =
      ls.foldl (fun g' l => g'.modThread l.tid (u g l)) { g with threads := T } from this g.threads
  induction ls with
  | nil => exact fun _ => rfl
  | cons l rest ih =>
    intro T
    simp only [List.foldl_cons, hu]
    exact ih _

theorem State.lanesBecome_eq_foldl (s : State) (w : Nat) {ls : List Lane} (f : Workgroup → Lane → Thread → Thread)
    (h : (ls.map (·.tid)).Nodup) :
    s.lanesBecome w ls f = s.modWg w fun g => ls.foldl (fun g' l => g'.modThread l.tid (f g l)) g :=
  State.modWg_congr s w _ _ fun g => (foldl_modThread ls (f g) g h).symm

/-- Units that owe no trap for a write that failed, looked at without installing anything. -/
theorem State.shared_simple (s : State) (c : Cur) (units : List (List Lane)) (cause : State → List Lane → Lane → Option Cause)
    (eff : State → List Lane → State) {prep : State → List Lane → State} {owes : State → List Lane → Lane → Bool}
    (hp : ∀ s act, prep s act = s) (ho : ∀ u ∈ units, ∀ s act, u.filter (owes s act) = []) :
    s.shared c units cause eff prep owes = s.shared c units cause eff := by
  unfold State.shared
  refine foldl_congr' units _ _ s fun s u hu => ?_
  simp only [hp, ho u hu, List.filter_false, if_true]

/-- A unit of one lane: its cause, or, where it is active, the effect. -/
theorem unit_singleton (c : Cur) (cause : List Lane → Lane → Option Cause) (E : List Lane → Workgroup → Workgroup) (l : Lane)
    (g : Workgroup) :
    (if unitRuns cause [l] then E ([l].filter (·.act)) (trapUnit c cause [l] g) else trapUnit c cause [l] g) =
      ((cause ([l].filter (·.act)) l).map (g.trapLane c l.tid)).getD (if l.act then E [l] g else g) := by
  cases ha : l.act with
  | false => cases hk : cause [] l <;> simp [unitRuns, trapUnit, ha, hk]
  | true => cases hk : cause [l] l <;> simp [unitRuns, trapUnit, sharedCause, ha, hk]

section
variable {op : Nat} {x : Args} {sg : Sig} {c : Cur} {s : State}

/-- What a lane of such an instruction becomes: trapped for an illegal value, for its form or its registers; active, trapped
for a cause of its own, or changed by the instruction (R341). -/
def laneDoes (op : Nat) (sg : Sig) (x : Args) (c : Cur) (src : Workgroup) (ill : Lane → Bool) (more : Lane → Option Cause)
    (u : Lane → Thread → Thread) (l : Lane) (t : Thread) : Thread :=
  match if ill l then some (illegal c) else formCause src op sg x 0 c l with
  | some k => t.trap c.pc.pkt c.slot k
  | none =>
    if l.act then
      match more l with
      | some k => t.trap c.pc.pkt c.slot k
      | none => u l t
    else t

theorem scalarCause_laneDoes (src : Workgroup) (ill : Lane → Bool) (more : Lane → Option Cause)
    (u : Lane → Thread → Thread) (l : Lane) (act : List Lane) (g : Workgroup) :
    ((scalarCause src op sg x c (fun _ l => more l) act l (ill l)).map (g.trapLane c l.tid)).getD
      (if l.act then [l].foldl (fun g l => g.modThread l.tid (u l)) g else g) =
    g.modThread l.tid (laneDoes op sg x c src ill more u l) := by
  unfold scalarCause laneDoes
  cases hi : ill l with
  | true => rfl
  | false => cases hf : formCause src op sg x 0 c l with
    | some k => rfl
    | none => cases ha : l.act with
      | false => exact (g.modThread_id l.tid).symm
      | true => cases hm : more l with
        | none => simp [hm]
        | some k => simp [hm, Workgroup.trapLane]

/-- An instruction each active lane executes for itself: with causes that do not depend on the state, and an effect on its own
thread that looks at nothing but the rest of the workgroup. -/
theorem perLane_lanesBecome (h : Issuing op x sg c s) {more : Lane → Option Cause} {eff : Sig → Cur → Lane → State → State}
    {ill : Ill} {waits : Bool} {bad : Lane → Bool} {u : Workgroup → Lane → Thread → Thread}
    (hill : ∀ s' l, ill.at_ s' c sg x l = bad l)
    (heff : ∀ l s', eff sg c l s' = s'.modWg c.wg fun g => g.modThread l.tid (u g l))
    (hu : ∀ (g : Workgroup) T l, u { g with threads := T } l = u g l)
    (hw : waits = true → ∀ l ∈ lanesOf s c x.ctl.pfx, l.t.owed = none) :
    perLane op (fun _ _ _ => more) eff x s (ill := ill) (waits := waits) =
      .next (s.lanesBecome c.wg (lanesOf s c x.ctl.pfx) fun g => laneDoes op sg x c (c.source s) bad more (u g)) := by
  have hcause : ∀ l ∈ lanesOf s c x.ctl.pfx, ∀ act,
      orOwed waits (scalarCause (c.source s) op sg x c (fun _ l => more l) act l (bad l)) l =
        scalarCause (c.source s) op sg x c (fun _ l => more l) act l (bad l) := by
    intro l hl act
    cases scalarCause (c.source s) op sg x c (fun _ l => more l) act l (bad l) with
    | some k => rfl
    | none => cases waits <;> simp [orOwed, hw, hl]
  unfold perLane
  rw [issue_eq h]
  congr 1
  dsimp only
  rw [State.shared_simple]
  · simp only [hill]
    rw [shared_modWg s c _ _ _ (fun act g => act.foldl (fun g l => g.modThread l.tid (u g l)) g)]
    · rw [State.lanesBecome_eq_foldl _ _ _ (by rw [lanesOf_tids]; exact h.once)]
      refine State.modWg_congr _ _ _ _ fun g => ?_
      rw [List.foldl_map]
      refine Eq.trans (foldl_congr' _ _ _ g fun g l hl => ?_)
        (foldl_modThread_parts _ (fun g => laneDoes op sg x c (c.source s) bad more (u g)) ?_ g)
      · refine (unit_singleton c _ (fun act g => act.foldl (fun g l => g.modThread l.tid (u g l)) g) l g).trans ?_
        rw [hcause l hl]
        exact scalarCause_laneDoes (c.source s) bad more (u g) l _ g
      · intro g T l
        funext t
        simp only [laneDoes, hu]
    · intro s' v _
      generalize v.filter (·.act) = act
      simp only [heff]
      induction act generalizing s' with
      | nil => exact (s'.modWg_id c.wg).symm
      | cons l rest ih => simp only [List.foldl_cons, ih, State.modWg_modWg]
  · intro s' act
    exact List.foldl_fixed _
  · rintro _ hv s' act
    obtain ⟨l, hl, rfl⟩ := List.mem_map.mp hv
    cases waits <;> simp [hw, hl]

end
end Sys2Proof.Machine

namespace Sys2Proof.Machine

/-! ## System instructions (R216 to R219) -/

section
variable {op : Nat} {x : Args} {sg : Sig} {c : Cur} {s : State}

theorem State.lanesBecome_agree (h : Issuing op x sg c s) (ls : List Lane) {f f' : Workgroup → Lane → Thread → Thread}
    (e : f (s.wgOf c.wg) = f' (s.wgOf c.wg)) : s.lanesBecome c.wg ls f = s.lanesBecome c.wg ls f' := by
  refine State.modWg_agree s c.wg _ _ fun p hp hw => ?_
  rw [h.one p hp hw, e]

/-- The same in the words of the statements, where the group's workgroup stands once in the state. -/
theorem perLane_eachLane (h : Issuing op x sg c s) {more : Lane → Option Cause} {eff : Sig → Cur → Lane → State → State}
    {ill : Ill} {bad : Lane → Bool} (u : Workgroup → Lane → Thread → Thread)
    (hill : ∀ s' l, ill.at_ s' c sg x l = bad l)
    (heff : ∀ l s', eff sg c l s' = s'.modWg c.wg fun g => g.modThread l.tid (u g l))
    (hu : ∀ (g : Workgroup) T l, u { g with threads := T } l = u g l) :
    perLane op (fun _ _ _ => more) eff x s (ill := ill) = .next (eachLane op x sg c s bad more (u (s.wgOf c.wg))) := by
  rw [perLane_lanesBecome h hill heff hu (by simp)]
  exact congrArg _ (State.lanesBecome_agree h _ rfl)

theorem noIll_at (s' : State) (l : Lane) : noIll.at_ s' c sg x l = false := by simp [Ill.at_, noIll]

theorem modThread_id_effect (c : Cur) (l : Lane) (s' : State) :
    s' = s'.modWg c.wg fun g => g.modThread l.tid fun t => t := by
  simp [State.modWg_id]

theorem execTrap_each (h : Issuing 0x1F8 x sg c s) : execTrap x s =
    .next (eachLane 0x1F8 x sg c s (fun _ => false) (fun _ => some (0x21, x.b.setWidth 64)) fun _ t => t) :=
  perLane_eachLane h (fun _ _ t => t) noIll_at (modThread_id_effect c) fun _ _ _ => rfl

theorem execBrk_each (h : Issuing 0x1F9 x sg c s) : execBrk x s =
    .next (eachLane 0x1F9 x sg c s (fun _ => false) (fun _ => some (0x20, x.b.setWidth 64)) fun _ t => t) :=
  perLane_eachLane h (fun _ _ t => t) noIll_at (modThread_id_effect c) fun _ _ _ => rfl

theorem execRst_each (h : Issuing 0x1FA x sg c s) : execRst x s =
    .next (eachLane 0x1FA x sg c s (fun _ => false)
      (fun l => if l.t.priv = false ∧ l.t.user = .restoreHandler then none else some (0x11, 0)) fun _ t => t.popFrame) := by
  have hmore : (fun l : Lane => if l.t.priv = true ∨ l.t.user ≠ .restoreHandler then some ((0x11, 0) : Cause) else none) =
      fun l => if l.t.priv = false ∧ l.t.user = .restoreHandler then none else some (0x11, 0) := by
    funext l
    by_cases hp : l.t.priv = true <;> by_cases hu : l.t.user = .restoreHandler <;> simp [hp, hu]
  unfold execRst
  rw [← hmore]
  exact perLane_eachLane h (fun _ _ => Thread.popFrame) noIll_at (fun _ _ => rfl) fun _ _ _ => rfl

theorem writeVec_two (t : Thread) (n : Nat) (v : W64) :
    t.writeVec n 2 (v.setWidth 128) = (t.writeV n (v.setWidth 32)).writeV (n + 1) ((v >>> 32).setWidth 32) := by
  have hlo : (v.setWidth 128).extractLsb' 0 32 = v.setWidth 32 := by
    ext i hi
    simp
    omega
  have hhi : (v.setWidth 128).extractLsb' 32 32 = (v >>> 32).setWidth 32 := by
    ext i hi
    simp
    omega
  simp [Thread.writeVec, List.range_succ, hlo, hhi]

theorem execPerf_each (h : Issuing 0x1FB x sg c s) : execPerf x s =
    .next (eachLane 0x1FB x sg c s (fun l => l.act && known sg x l .a && decide (5 < (l.h.readS x.a.toNat).toNat))
      (fun _ => none) fun l t =>
        let v := Tab.get 0 (s.wgOf c.wg).perf (l.h.readS x.a.toNat).toNat
        (t.writeV x.d.toNat (v.setWidth 32)).writeV (x.d.toNat + 1) ((v >>> 32).setWidth 32)) := by
  simp only [← writeVec_two]
  exact perLane_eachLane h
    (fun g l t => t.writeVec x.d.toNat 2 ((Tab.get 0 g.perf (l.h.readS x.a.toNat).toNat).setWidth 128))
    (by simp [Ill.at_]) (fun _ _ => rfl) fun _ _ _ => rfl

theorem systemRows_each : EachLaneDoes systemRows := by
  intro r hr x sg c s h
  simp only [systemRows, List.mem_cons, List.not_mem_nil, or_false] at hr
  rcases hr with rfl | rfl | rfl | rfl
  · exact execTrap_each h
  · exact execBrk_each h
  · exact execPerf_each h
  · exact execRst_each h

theorem owed_of_nothingOwed (hn : NothingOwed s c) (p : Option Pfx) : ∀ l ∈ lanesOf s c p, l.t.owed = none := by
  intro l hl
  obtain ⟨i, hi, rfl⟩ := List.mem_map.mp hl
  have : (laneAt (c.source s) p i).t.failed = [] := hn (laneAt (c.source s) none i) (List.mem_map_of_mem hi)
  simp [Thread.owed, this]

/-- Without a cause of its form, a lane does what the instruction says where it is active. -/
theorem laneDoes_of_good {src : Workgroup} {u : Lane → Thread → Thread} {l : Lane} (hf : formCause src op sg x 0 c l = none)
    (t : Thread) : laneDoes op sg x c src (fun _ => false) (fun _ => none) u l t = if l.act then u l t else t := by
  simp [laneDoes, hf]

theorem State.lanesBecome_congr (s : State) (w : Nat) {ls : List Lane} {f f' : Workgroup → Lane → Thread → Thread}
    (e : ∀ g, ∀ l ∈ ls, f g l = f' g l) : s.lanesBecome w ls f = s.lanesBecome w ls f' := by
  refine State.modWg_congr s w _ _ fun g => ?_
  congr 1
  refine Tab.map_congr _ _ _ fun tid t => ?_
  cases hl : ls.find? (fun l => l.tid = tid) with
  | none => rfl
  | some l => exact congrFun (e g l (List.mem_of_find?_eq_some hl)) t

theorem execPark_lanesBecome (h : Issuing 0x1FA x sg c s) (hn : NothingOwed s c) : execPark x s =
    .next (s.lanesBecome c.wg (lanesOf s c x.ctl.pfx) fun g =>
      laneDoes 0x1FA sg x c (c.source s) (fun _ => false) (fun _ => none) fun _ t =>
        if t.priv ∨ t.user ≠ .preemptHandler then t else { t.popFrame with parked := g.status == .preempting }) :=
  perLane_lanesBecome h (u := fun g _ t =>
      if t.priv ∨ t.user ≠ .preemptHandler then t else { t.popFrame with parked := g.status == .preempting })
    noIll_at (fun _ _ => rfl) (fun _ _ _ => rfl) fun _ => owed_of_nothingOwed hn _

theorem execPark_endsHandler : Says.ParkEndsHandler := by
  intro x sg c s h hn
  refine (execPark_lanesBecome h.toIssuing hn).trans (congrArg _ ?_)
  refine State.lanesBecome_congr s c.wg fun g l hl => ?_
  funext t
  rw [laneDoes_of_good (h.good l hl)]
  by_cases ha : l.act = true <;> by_cases hp : t.priv = true <;> by_cases hu : t.user = .preemptHandler <;> simp [ha, hp, hu]

/-! ### `flane` -/

/-- Effects on home warps by functions that do not look at the home warps. -/
theorem foldl_modHw_parts (hs : List Nat) (W : Workgroup → Nat → HWarp → HWarp)
    (hW : ∀ (g : Workgroup) H k, W { g with hwarps := H } k = W g k) (g : Workgroup) :
    hs.foldl (fun g k => g.modHw k (W g k)) g = { g with
      hwarps := hs.foldl (fun m k => Tab.put m k (W g k (Tab.get {} m k))) g.hwarps } := by
  suffices ∀ H, hs.foldl (fun g k => g.modHw k (W g k)) { g with hwarps := H } = { g with
      hwarps := hs.foldl (fun m k => Tab.put m k (W g k (Tab.get {} m k))) H } from this g.hwarps
  induction hs with
  | nil => exact fun _ => rfl
  | cons k rest ih =>
    intro H
    simp only [List.foldl_cons, hW]
    exact ih _

theorem State.lanesBecome_id (s : State) (w : Nat) (ls : List Lane) : (s.lanesBecome w ls fun _ _ t => t) = s := by
  refine (State.modWg_congr s w _ (fun g => g) fun g => ?_).trans (s.modWg_id w)
  refine congrArg (fun T => { g with threads := T })
    ((Tab.map_congr _ (fun _ t => t) _ fun tid t => ?_).trans (Tab.map_id' g.threads))
  cases ls.find? (fun l => l.tid = tid) <;> rfl

/-- The home warps with an active lane are among those of the group. -/
theorem mem_homesOf_of_lowest (h : Issuing op x sg c s) {k : Nat} (hk : (lowest s c x k).isSome) :
    k ∈ homesOf (lanesOf s c x.ctl.pfx) := by
  obtain ⟨l, hl⟩ := Option.isSome_iff_exists.mp hk
  have hm : l ∈ lanesOf s c x.ctl.pfx := (List.mem_filter.mp (List.mem_of_find?_eq_some hl)).1
  have hlk : l.hw = k := by simpa using List.find?_some hl
  exact (mem_homesOf _ _).mpr ⟨hlk ▸ lanesOf_hw h _ l hm, l, hm, hlk⟩

theorem lowest_eq_head (s : State) (c : Cur) (x : Args) (k : Nat) : lowest s c x k = (homeActives s c x k).head? := by
  simp [lowest, homeActives, List.head?_filter]

/-- Lanes without a cause of their form: a unit of them traps nothing. -/
theorem trapUnit_of_good {src : Workgroup} {u : List Lane} (hu : ∀ l ∈ u, formCause src op sg x 0 c l = none) (g : Workgroup) :
    trapUnit c (fun _ => formCause src op sg x 0 c) u g = g := by
  have hs : ∀ l, sharedCause (formCause src op sg x 0 c) (u.filter (·.act)) l = none := by
    intro l
    have : (u.filter (·.act)).findSome? (formCause src op sg x 0 c) = none :=
      List.findSome?_eq_none_iff.mpr fun m hm => hu m (List.mem_filter.mp hm).1
    simp [sharedCause, this]
  refine Eq.trans (foldl_congr' u _ (fun g _ => g) g fun g l hl => ?_) (List.foldl_fixed u)
  simp [hs, hu l hl]

theorem hw_of_homeActives {k : Nat} {l : Lane} {rest : List Lane} (h : homeActives s c x k = l :: rest) : l.hw = k := by
  have : l ∈ homeActives s c x k := h ▸ List.mem_cons_self
  simpa using (List.mem_filter.mp this).2

theorem homeRuns_of_clean (h : Clean op x sg c s) (k : Nat) : homeRuns s op sg x c k = true := by
  refine List.all_eq_true.mpr fun l hl => ?_
  rw [h.good l (List.mem_filter.mp (List.mem_filter.mp hl).1).1]
  rfl

/-- An instruction executed once for each home warp, no lane of which meets a cause: each home warp with an active lane
changes by a function of itself and of its active lanes. -/
theorem perHome_homesBecome (h : Clean op x sg c s) {eff : Sig → Cur → List Lane → State → State}
    (W : Workgroup → List Lane → HWarp → HWarp) (hW : ∀ (g : Workgroup) H act, W { g with hwarps := H } act = W g act)
    (hnil : ∀ s', eff sg c [] s' = s')
    (heff : ∀ l rest s', eff sg c (l :: rest) s' = s'.modWg c.wg fun g => g.modHw l.hw (W g (l :: rest))) :
    ∃ t, perHome op noCause eff x s = .next t ∧ HomesBecome s t c.wg (lanesOf s c x.ctl.pfx)
      (fun k w => if (lowest s c x k).isSome then W (s.wgOf c.wg) (homeActives s c x k) w else w) fun _ t => t := by
  have hcause : ∀ (s' : State) (act : List Lane) (l : Lane),
      scalarCause (c.source s) op sg x c (noCause s' c sg) act l (noIll.at_ s' c sg x l) = formCause (c.source s) op sg x 0 c l := by
    intro s' act l
    cases hf : formCause (c.source s) op sg x 0 c l <;> simp [scalarCause, noCause, noIll_at, hf]
  have howed : ∀ (k : Option Cause) (l : Lane), orOwed false k l = k := by intro k l; cases k <;> simp [orOwed]
  unfold perHome
  rw [issue_eq h.toIssuing]
  refine ⟨_, rfl, ?_⟩
  simp only [hcause, howed, Bool.false_and]
  rw [shared_modWg s c _ (fun _ => formCause (c.source s) op sg x 0 c) _
    (fun act g => (act.head?.map fun l => g.modHw l.hw (W g act)).getD g)]
  · have hs : ((homesOf (lanesOf s c x.ctl.pfx)).filter fun k => (lowest s c x k).isSome).Nodup :=
      (homesOf_nodup _).filter _
    refine ⟨fun m => ((homesOf (lanesOf s c x.ctl.pfx)).filter fun k => (lowest s c x k).isSome).foldl
      (fun m k => Tab.put m k (W (s.wgOf c.wg) (homeActives s c x k) (Tab.get {} m k))) m, fun m k => ?_, ?_⟩
    · refine (get_foldl_put _ hs (fun k => some (W (s.wgOf c.wg) (homeActives s c x k))) m k).trans ?_
      by_cases hk : (lowest s c x k).isSome
      · simp [hk, mem_homesOf_of_lowest h.toIssuing hk]
      · simp [hk]
    · rw [State.lanesBecome_id]
      refine State.modWg_agree s c.wg _ _ fun p hp hw => ?_
      rw [h.one p hp hw]
      refine Eq.trans ?_ (foldl_modHw_parts _ (fun g k => W g (homeActives s c x k)) (fun g H k => hW g H _) (s.wgOf c.wg))
      rw [byHome, List.foldl_map, List.foldl_filter]
      refine foldl_congr' _ _ _ _ fun g k hk => ?_
      rw [trapUnit_of_good fun l hl => h.good l (List.mem_filter.mp hl).1, unitRuns_home, filter_home_act, lowest_eq_head,
        homeRuns_of_clean h]
      cases hA : homeActives s c x k with
      | nil => rfl
      | cons l rest =>
        simp [hw_of_homeActives hA]
  · intro s' u _
    cases u.filter (·.act) with
    | nil => simp [hnil, State.modWg_id]
    | cons l rest => simp [heff]

/-- The bits of some lanes of a mask. -/
theorem getLsbD_foldl_setBit (ts : List Nat) (on : Nat → Bool) (pos : Nat → Nat) (m : W64) (i : Nat) (hi : i < 64) :
    (ts.foldl (fun m t => if on t then setBit m (pos t) true else m) m).getLsbD i =
      (m.getLsbD i || ts.any fun t => on t && pos t == i) := by
  induction ts generalizing m with
  | nil => simp
  | cons t rest ih =>
    simp only [List.foldl_cons, ih, List.any_cons]
    by_cases ht : on t = true
    · simp [ht, setBit, hi, Bool.or_assoc, eq_comm (a := i), beq_eq_decide]
    · simp [ht]

theorem getLsbD_bits64 (f : Nat → Bool) (i : Nat) (hi : i < 64) : (bits64 f).getLsbD i = f i := by
  rw [bits64, BitVec.getLsbD_setWidth, BitVec.getLsbD_ofBoolListLE]
  simp [hi]

/-- The lanes of home warp `k` in the formed warp. -/
theorem formedLanes_eq (h : Issuing op x sg c s) (k : Nat) :
    c.lanes.foldl (fun m t => if (s.wgOf c.wg).home t = k then setBit m ((s.wgOf c.wg).laneOf t) true else m) 0#64 =
      bits64 fun i => (lanesOf s c none).any fun m => m.hw == k && m.lane == i := by
  refine BitVec.eq_of_getLsbD_eq fun i hi => ?_
  have := getLsbD_foldl_setBit c.lanes (fun t => (s.wgOf c.wg).home t == k) (s.wgOf c.wg).laneOf 0#64 i hi
  simp only [beq_iff_eq] at this
  rw [this, getLsbD_bits64 _ i hi]
  simp [lanesOf, laneAt, Workgroup.home, Workgroup.laneOf, h.hdr, Function.comp_def]

theorem execFlane_formedLanes : Says.FormedLanes := by
  intro x sg c s h
  obtain ⟨t, ht, hb⟩ := perHome_homesBecome h
    (eff := fun _ c act s =>
      match act with
      | [] => s
      | l :: _ => s.modWg c.wg fun g => g.modHw l.hw fun h =>
          h.writeK x.d.toNat (c.lanes.foldl (fun m t => if g.home t = l.hw then setBit m (g.laneOf t) true else m) 0))
    (fun g act w => w.writeK x.d.toNat
      (c.lanes.foldl (fun m t => if g.home t = (act.head?.map (·.hw)).getD 0 then setBit m (g.laneOf t) true else m) 0))
    (fun _ _ _ => rfl) (fun _ => rfl) (fun _ _ _ => rfl)
  refine ⟨t, ht, ?_⟩
  convert hb using 3 with k w
  cases hA : homeActives s c x k with
  | nil => simp [lowest_eq_head, hA]
  | cons l rest => simp [lowest_eq_head, hA, hw_of_homeActives hA, formedLanes_eq h.toIssuing]

end
end Sys2Proof.Machine

/-- Settles O12: the rows of the system instructions act lane by lane, `flane` acts once for each home warp, and `park` is a row
that each lane executes for itself where no lane owes a trap. -/
theorem systemInstructions : Obligations.SystemInstructions :=
  ⟨Sys2Proof.Machine.systemRows_each, Sys2Proof.Machine.execFlane_formedLanes, fun _ => rfl, Sys2Proof.Machine.execPark_endsHandler⟩

namespace Sys2Proof.Machine

/-! ## Words that are no instruction (R17, R21, R40, R341) -/

/-! ### Their decoding -/

theorem fmtOf_of_unassigned {op : Nat} (h : unassigned op = true) : fmtOf op = .none ∧ op ≠ 0x1FE := by
  obtain ⟨r, hr, h⟩ := List.any_eq_true.mp h
  obtain ⟨h1, h2⟩ := of_decide_eq_true h
  simp only [List.mem_cons, List.not_mem_nil, or_false] at hr
  rcases hr with rfl | rfl | rfl | rfl | rfl | rfl | rfl | rfl | rfl | rfl | rfl | rfl | rfl | rfl <;>
    interval_cases op <;> exact ⟨rfl, by decide⟩

/-- A word that is a word of its own, not before another, with a reason why it is no instruction. -/
theorem decode_error_of_layoutErr {w : W32} (hp : ¬(opOf w = 0x1FE ∧ chainOf w = true)) (he : (layoutErr none w).isSome)
    (rest : List W32) : ∃ e more, decode (w :: rest) = some (.error e, more) := by
  have h : (layoutBody none w rest).1.err.isSome := by
    unfold layoutBody
    dsimp only
    split
    · rfl
    · exact he
  obtain ⟨e, he⟩ := Option.isSome_iff_exists.mp h
  refine ⟨e, (layoutBody none w rest).2, ?_⟩
  have h1 : layoutOne (w :: rest) = some (layoutBody none w rest) := if_neg hp
  simp [decode, h1, Layout.instr, he]

theorem decode_unassigned {w : W32} (h0 : w ≠ 0) (h : unassigned (opOf w) = true ∨ opOf w = 0x1FE ∧ chainOf w = false)
    (rest : List W32) : ∃ e more, decode (w :: rest) = some (.error e, more) := by
  rcases h with h | ⟨ho, hc⟩
  · obtain ⟨hf, hp⟩ := fmtOf_of_unassigned h
    exact decode_error_of_layoutErr (fun hw => hp hw.1) (by simp [layoutErr, show w ≠ 0#32 from h0, hf, hp]) rest
  · exact decode_error_of_layoutErr (by simp [hc]) (by simp [layoutErr, show w ≠ 0#32 from h0, ho]) rest

/-! ### The issue of a group of one instruction -/

theorem State.trapOwed_nil (s : State) (w : Nat) : s.trapOwed w [] = s := s.modWg_id w

theorem State.join_eq_modWg (s : State) (w : Nat) (ts : List Nat) : s.join w ts =
    let rs := s.open' (ts.flatMap fun t => ((s.wgOf w).thread t).before).dedup
    s.modWg w fun g => if rs = [] then g else ts.foldl (fun g t => g.modThread t fun t => { t with joined := rs }) g := by
  unfold State.join
  dsimp only
  cases s.open' (ts.flatMap fun t => ((s.wgOf w).thread t).before).dedup with
  | nil => exact (s.modWg_id w).symm
  | cons r rs => rfl

/-- What some threads have out does not depend on the group that issues. -/
theorem State.join_withCur (s : State) (w : Nat) (ts : List Nat) (c : Option Cur) :
    { s with cur := c }.join w ts = { s.join w ts with cur := c } := by
  rw [State.join_eq_modWg, State.join_eq_modWg s]
  rfl

theorem State.foldl_join_withCur (s : State) (w : Nat) (tss : List (List Nat)) (c : Option Cur) :
    tss.foldl (fun s ts => s.join w ts) { s with cur := c } = { tss.foldl (fun s ts => s.join w ts) s with cur := c } := by
  induction tss generalizing s with
  | nil => rfl
  | cons ts rest ih => simp only [List.foldl_cons, State.join_withCur, ih]

section
variable {s s1 : State} {gr : Grant} {rest : List Grant} {at_ : PC} {ws : List W32} {l : Layout}

theorem groupAt_single {more : List W32} (h : layoutOne (ws.drop at_.slot) = some (l, more)) (hc : l.chain = false) :
    groupAt ws at_.slot = [(at_.slot, l)] := by
  simp [groupAt, groupFrom, h, hc]

/-- The granted warp issues: its packet is fetched, and its group looked at. -/
theorem step_of_atGroup (h : AtGroup s s1 gr rest at_ ws l) :
    ∃ t : Thread, t.pc = at_ ∧ t.alone = [] ∧ step s = s1.issueWords runWord gr gr.tids t ws := by
  obtain ⟨i, is, hi⟩ := List.exists_cons_of_ne_nil h.some_
  have hmem : i ∈ gr.tids := hi ▸ List.mem_cons_self
  have hlive : (gr.tids.filter fun j => let t := (s.wgOf gr.wg).thread j; !t.ended && !t.parked && t.hold == .ready) = gr.tids := by
    refine List.filter_eq_self.mpr fun j hj => ?_
    obtain ⟨-, he, hp, hh, -⟩ := h.there j hj
    simp only [State.thread] at he hp hh
    simp [he, hp, hh]
  have howing : (gr.tids.filter fun j => ((s.wgOf gr.wg).thread j).owedNow && ((s.wgOf gr.wg).thread j).user != .restoreHandler) = [] := by
    refine List.filter_eq_nil_iff.mpr fun j hj => ?_
    obtain ⟨-, -, -, -, ho, -⟩ := h.there j hj
    simp only [State.thread] at ho
    simp [ho]
  obtain ⟨hpc, -, -, -, -, hal⟩ := h.there i hmem
  have hf := h.fetched i (by simp [hi])
  refine ⟨s.thread gr.wg i, hpc, hal, ?_⟩
  have hstep : step s = s.issueGroup runWord := by
    simp [step, h.running, h.still, h.granted]
  rw [hstep]
  unfold State.issueGroup
  rw [h.granted]
  dsimp only
  rw [hlive, howing, State.trapOwed_nil]
  have hts : (gr.tids.filter fun j => !([] : List Nat).contains j) = gr.tids := List.filter_eq_self.mpr fun _ _ => rfl
  rw [hts, hi]
  dsimp only
  have hf' : { s with granted := rest }.fetchPacket ({ s with granted := rest }.wgOf gr.wg)
      (({ s with granted := rest }.wgOf gr.wg).thread i) (({ s with granted := rest }.wgOf gr.wg).thread i).pc.pkt =
      (.ok ws, s1) := hpc ▸ hf
  rw [hf']
  rfl

theorem issueWords_illegal {t : Thread} {more : List W32} (ex : Layout → State → Res) (hpc : t.pc = at_) (hal : t.alone = [])
    (hw : layoutOne (ws.drop at_.slot) = some (l, more)) (hc : l.chain = false) (hb : IllegalGroup s1 gr at_ l) :
    s1.issueWords ex gr gr.tids t ws = .next (s1.trapWhole gr.wg gr.tids (0x01, l.w.setWidth 64)) := by
  subst hpc
  have hb' : groupBad (s1.wgOf gr.wg) (mdrvNames (s1.wgOf gr.wg) gr.tids) [(t.pc.slot, l)] = true := hb
  simp [State.issueWords, hal, groupAt_single hw hc, hb', firstWord]

/-- A group of one instruction starts: which slot the gates before it looked at last makes no difference. -/
theorem issued_of_gated (slot : Nat) (word : W32) :
    (let c := { groupCur s1 gr at_ l with slot, word }
     let s := ({ beforeGroup s1 gr at_ l with cur := some c }.startLanes c).modWg gr.wg (·.count 0 1)
     { (if gathers (opOf l.w) then ((s.wgOf gr.wg).homeSets gr.tids).foldl (fun s ts => s.join gr.wg ts) s else s) with
       cur := some { groupCur s1 gr at_ l with checked := true } }) = issued s1 gr at_ l := by
  unfold issued
  cases gathers (opOf l.w) with
  | false => rfl
  | true =>
    exact (congrArg (fun s : State => { s with cur := some { groupCur s1 gr at_ l with checked := true } })
      (State.foldl_join_withCur (({ beforeGroup s1 gr at_ l with cur := some (groupCur s1 gr at_ l) }.startLanes
        (groupCur s1 gr at_ l)).modWg gr.wg (·.count 0 1)) gr.wg _ (some { groupCur s1 gr at_ l with slot, word })))

theorem runSlots_single (ex : Layout → State → Res) (k : Nat) (l : Layout) (s : State) :
    runSlots ex [(k, l)] s = if l.err.isSome then .next (s.atSlot k l).illegalAll else ex l (s.atSlot k l) := by
  unfold runSlots
  cases (if l.err.isSome then .next (s.atSlot k l).illegalAll else ex l (s.atSlot k l) : Res) <;> rfl

theorem runGroup_single (ex : Layout → State → Res) (s : State) (c : Cur) (alone : Bool) (k : Nat) (l : Layout) :
    s.runGroup ex c alone [(k, l)] = andThen
      (let s := (s.startLanes c).modWg c.wg (·.count 0 1)
       let s := if gathers (opOf l.w) then ((s.wgOf c.wg).homeSets c.lanes).foldl (fun s ts => s.join c.wg ts) s else s
       runSlots ex [(k, l)] { s with cur := some { c with checked := true, snap := none } })
      fun t => { t with cur := none }.endGroup c alone l.settle := by
  unfold State.runGroup
  simp only [List.any_cons, List.any_nil, Bool.or_false, List.length_singleton, le_refl, if_true]
  generalize runSlots ex _ _ = r
  cases r <;> rfl

/-- The gates let the group issue: it is executed, and what follows it is done. -/
theorem runGroup_gated (ex : Layout → State → Res) (slot : Nat) (word : W32) :
    { beforeGroup s1 gr at_ l with cur := some { groupCur s1 gr at_ l with slot, word } }.runGroup ex
        { groupCur s1 gr at_ l with slot, word } false [(at_.slot, l)] =
      andThen (if l.err.isSome then .next (issued s1 gr at_ l).illegalAll else ex l (issued s1 gr at_ l))
        (afterwards s1 gr at_ l) := by
  rw [runGroup_single, runSlots_single, ← issued_of_gated slot word]
  rfl

theorem issueWords_single {t : Thread} {more : List W32} (ex : Layout → State → Res) (hpc : t.pc = at_) (hal : t.alone = [])
    (hw : layoutOne (ws.drop at_.slot) = some (l, more)) (hc : l.chain = false) (hb : ¬IllegalGroup s1 gr at_ l)
    (hn : NothingWaits s1 gr at_ l) (ht : gr.tids ≠ []) :
    s1.issueWords ex gr gr.tids t ws =
      andThen (if l.err.isSome then .next (issued s1 gr at_ l).illegalAll else ex l (issued s1 gr at_ l))
        (afterwards s1 gr at_ l) := by
  subst hpc
  obtain ⟨slot, word, hg⟩ := hn
  have hb' : groupBad (s1.wgOf gr.wg) (mdrvNames (s1.wgOf gr.wg) gr.tids) [(t.pc.slot, l)] = false := Bool.eq_false_iff.mpr hb
  have hrun : ∀ G : State, G = { beforeGroup s1 gr t.pc l with cur := some { groupCur s1 gr t.pc l with slot, word } } →
      (match G.cur with
        | none => .next G
        | some c => if c.lanes = [] then .next { G with cur := none } else G.runGroup ex c false [(t.pc.slot, l)]) =
      andThen (if l.err.isSome then .next (issued s1 gr t.pc l).illegalAll else ex l (issued s1 gr t.pc l))
        (afterwards s1 gr t.pc l) := by
    rintro _ rfl
    exact (if_neg ht).trans (runGroup_gated ex slot word)
  unfold State.issueWords
  simp only [hal, groupAt_single hw hc, List.isEmpty_nil, Bool.not_true, Bool.false_eq_true, if_false, hb', and_false]
  exact hrun _ hg

/-- A granted formed warp whose group of one instruction waits for nothing and is not illegal executes it. -/
theorem step_of_legal (h : AtGroup s s1 gr rest at_ ws l) (hb : ¬IllegalGroup s1 gr at_ l) (hn : NothingWaits s1 gr at_ l) :
    step s = andThen (if l.err.isSome then .next (issued s1 gr at_ l).illegalAll else runWord l (issued s1 gr at_ l))
      (afterwards s1 gr at_ l) := by
  obtain ⟨t, hpc, hal, hs⟩ := step_of_atGroup h
  obtain ⟨more, hw⟩ := h.words
  rw [hs, issueWords_single runWord hpc hal hw h.single hb hn h.some_]

theorem step_of_illegal (h : AtGroup s s1 gr rest at_ ws l) (hb : IllegalGroup s1 gr at_ l) :
    step s = .next (s1.trapWhole gr.wg gr.tids (0x01, l.w.setWidth 64)) := by
  obtain ⟨t, hpc, hal, hs⟩ := step_of_atGroup h
  obtain ⟨more, hw⟩ := h.words
  rw [hs, issueWords_illegal runWord hpc hal hw h.single hb]

/-- Every lane of the group traps for the word. -/
theorem illegalAll_issued (hn : gr.tids.Nodup) : (issued s1 gr at_ l).illegalAll =
    (issued s1 gr at_ l).lanesBecome gr.wg (lanesOf (issued s1 gr at_ l) (groupCur s1 gr at_ l) none)
      fun _ _ t => t.trap at_.pkt at_.slot (0x01, l.w.setWidth 64) := by
  rw [State.lanesBecome_eq_foldl _ _ _ (by rw [lanesOf_tids]; exact hn)]
  refine State.modWg_congr _ _ _ _ fun g => ?_
  rw [lanesOf, List.foldl_map]
  rfl

/-- A word without an instruction: its layout says why, or its reading does. -/
theorem runWord_of_error {e : DecodeErr} {more : List W32} (h : AtGroup s s1 gr rest at_ ws l)
    (hd : decode (ws.drop at_.slot) = some (.error e, more)) (t : State) :
    (if l.err.isSome then .next t.illegalAll else runWord l t) = .next t.illegalAll := by
  obtain ⟨more', hw⟩ := h.words
  have hl : l.instr = .error e := by
    simp only [decode, hw, Option.map_some, Option.some.injEq, Prod.mk.injEq] at hd
    exact hd.1
  split
  · rfl
  · simp only [runWord, hl]

end
end Sys2Proof.Machine

/-- Settles O53: an unassigned word has no layout without an error, and a granted group is followed through its fetch, its
gates and its one word. -/
theorem illegalWordsTrap : Obligations.IllegalWordsTrap := by
  refine ⟨fun w h0 h => Sys2Proof.Machine.decode_unassigned h0 h, fun s s1 gr rest at_ ws l e more h hn hd => ⟨fun hb hw => ?_, ?_⟩⟩
  · rw [Sys2Proof.Machine.step_of_legal h hb hw, Sys2Proof.Machine.runWord_of_error h hd, ← Sys2Proof.Machine.illegalAll_issued hn]
    rfl
  · exact Sys2Proof.Machine.step_of_illegal h

namespace Sys2Proof.Machine

/-! ## Threads and workgroups after a change -/

section
variable {α : Type}

/-- A listed entry of a table whose keys rise is the one found under its key. -/
theorem Tab.find_of_mem {m : Tab α} (h : Tab.sorted m = true) {p : Nat × α} (hp : p ∈ m) : Tab.find m p.1 = some p.2 := by
  induction m with
  | nil => simp at hp
  | cons q rest ih =>
    obtain ⟨j, v⟩ := q
    obtain ⟨hlt, hs⟩ := (Tab.sorted_cons j v rest).mp h
    rcases List.mem_cons.mp hp with rfl | hp
    · simp [Tab.find]
    · have := hlt p hp
      simp [Tab.find, Nat.ne_of_lt this, ih hs hp]

theorem Tab.map_eq_map {β : Type} (f : Nat → α → β) (m : Tab α) : Tab.map f m = List.map (fun p => (p.1, f p.1 p.2)) m := by
  induction m with
  | nil => rfl
  | cons q rest ih => simp [Tab.map, ih]

theorem Tab.sorted_map {β : Type} (f : Nat → α → β) (m : Tab α) : Tab.sorted (Tab.map f m) = Tab.sorted m := by
  induction m with
  | nil => rfl
  | cons q rest ih =>
    obtain ⟨j, v⟩ := q
    rw [Tab.map, Tab.sorted, Tab.sorted, ih, Tab.map_eq_map, List.all_map]
    rfl

theorem Tab.nodup_keys {m : Tab α} (h : Tab.sorted m = true) : (List.map Prod.fst m).Nodup := by
  induction m with
  | nil => simp
  | cons q rest ih =>
    obtain ⟨j, v⟩ := q
    obtain ⟨hlt, hs⟩ := (Tab.sorted_cons j v rest).mp h
    refine List.nodup_cons.mpr ⟨fun hj => ?_, ih hs⟩
    obtain ⟨p, hp, he⟩ := List.mem_map.mp hj
    exact absurd he (Nat.ne_of_gt (hlt p hp))

end

section
variable {s : State} {g : Workgroup} {w i j : Nat}

theorem Workgroup.thread_of_find {u : Thread} (h : Tab.find g.threads i = some u) : g.thread i = u := by
  simp [Workgroup.thread, Tab.get, h]

/-- A workgroup that lists a thread is itself listed. -/
theorem State.find_wgs_of_thread {u : Thread} (h : Tab.find (s.wgOf w).threads i = some u) :
    Tab.find s.wgs w = some (s.wgOf w) := by
  cases hw : Tab.find s.wgs w with
  | some g => simp [State.wgOf, Tab.get, hw]
  | none => simp [State.wgOf, Tab.get, hw] at h

/-- Without its number in the table a workgroup is the empty one, which a change leaves alone. -/
theorem State.modWg_of_absent (f : Workgroup → Workgroup) (h : Tab.find s.wgs w = none) (v : Nat) :
    (s.modWg w f).wgOf v = s.wgOf v := by
  by_cases hv : v = w
  · simp [State.modWg, State.wgOf, Tab.get, hv, h]
  · exact State.wgOf_modWg_ne s w v f hv

theorem Workgroup.find_modThread (f : Thread → Thread) :
    Tab.find (g.modThread i f).threads j = if j = i then (Tab.find g.threads j).map f else Tab.find g.threads j :=
  Tab.find_modify _ _ _ _

theorem Workgroup.find_foldl_modThread_isSome (f : Thread → Thread) (ts : List Nat) :
    (Tab.find (ts.foldl (fun g t => g.modThread t f) g).threads j).isSome = (Tab.find g.threads j).isSome := by
  induction ts generalizing g with
  | nil => rfl
  | cons t rest ih =>
    rw [List.foldl_cons, ih, Workgroup.find_modThread]
    split <;> simp

/-- Threads changed one after another: each as often as it is named. -/
theorem Workgroup.thread_foldl_modThread (f : Thread → Thread) (ts : List Nat) (h : (Tab.find g.threads j).isSome) :
    (ts.foldl (fun g t => g.modThread t f) g).thread j = f^[ts.count j] (g.thread j) := by
  induction ts generalizing g with
  | nil => rfl
  | cons t rest ih =>
    have hfound : (Tab.find (g.modThread t f).threads j).isSome := by
      rw [Workgroup.find_modThread]
      split <;> simpa using h
    rw [List.foldl_cons, ih hfound]
    by_cases ht : j = t
    · subst ht
      rw [Workgroup.thread_modThread g j f h, List.count_cons_self, Function.iterate_succ_apply]
    · rw [Workgroup.thread_modThread_ne g t j f ht, List.count_cons_of_ne (Ne.symm ht)]

theorem Workgroup.thread_foldl_modThread_mem (f : Thread → Thread) {ts : List Nat} (hn : ts.Nodup) (hj : j ∈ ts)
    (h : (Tab.find g.threads j).isSome) : (ts.foldl (fun g t => g.modThread t f) g).thread j = f (g.thread j) := by
  rw [Workgroup.thread_foldl_modThread f ts h, List.count_eq_one_of_mem hn hj]
  rfl

theorem Workgroup.thread_foldl_modThread_ne (f : Thread → Thread) {ts : List Nat} (hj : j ∉ ts) :
    (ts.foldl (fun g t => g.modThread t f) g).thread j = g.thread j := by
  induction ts generalizing g with
  | nil => rfl
  | cons t rest ih =>
    obtain ⟨ht, hr⟩ := not_or.mp (List.mem_cons.not.mp hj)
    rw [List.foldl_cons, ih hr, Workgroup.thread_modThread_ne g t j f ht]

/-- A thread is as it was, but for what it is blocked by. -/
theorem State.thread_unblock (s : State) (v j : Nat) : ∃ b, s.unblock.thread v j = { s.thread v j with blocked := b } := by
  simp only [State.thread, State.wgOf, State.unblock, Workgroup.thread, Tab.get, Tab.find_map]
  cases Tab.find s.wgs v with
  | none => exact ⟨_, rfl⟩
  | some g =>
    simp only [Option.map_some, Option.getD_some, Tab.find_map]
    cases Tab.find g.threads j with
    | none => exact ⟨_, rfl⟩
    | some u =>
      simp only [Option.map_some, Option.getD_some]
      split
      · exact ⟨none, rfl⟩
      · exact ⟨u.blocked, rfl⟩

@[simp] theorem State.stands_unblock (s : State) (v j : Nat) : (s.unblock.thread v j).stands = (s.thread v j).stands := by
  obtain ⟨b, hb⟩ := s.thread_unblock v j
  rw [hb]
  rfl

@[simp] theorem State.hw_unblock (s : State) (v h : Nat) : (s.unblock.wgOf v).hw h = (s.wgOf v).hw h := by
  simp only [State.wgOf, State.unblock, Tab.get, Tab.find_map]
  cases Tab.find s.wgs v <;> rfl

end
end Sys2Proof.Machine

namespace Sys2Proof.Machine

/-! ## What traps, settles and arrivals keep

No trap, settle or arrival at a meeting changes memory, a register, a flag or a pending set; and the PC and the failed writes
of a thread stand unless it traps. -/

/-- A thread keeps its registers, flags and pending set, and, where it does not trap, its PC and its failed writes. -/
structure Thread.KeepsRegs (traps : Prop) (t u : Thread) : Prop where
  pend : u.pend = t.pend
  v : u.v = t.v
  p : u.p = t.p
  fflags : u.fflags = t.fflags
  stays : ¬traps → u.pc = t.pc ∧ u.failed = t.failed

/-- The threads of a workgroup keep theirs, and the home warps their registers; `P` names the threads that trap. -/
structure Workgroup.KeepsRegs (P : Nat → Prop) (g k : Workgroup) : Prop where
  threads : ∀ i, (g.thread i).KeepsRegs (P i) (k.thread i)
  s : ∀ h, (k.hw h).s = (g.hw h).s

/-- The same of every workgroup, and of memory. -/
structure State.KeepsRegs (P : Nat → Nat → Prop) (s t : State) : Prop where
  mem : t.mem = s.mem
  wgs : ∀ w, (s.wgOf w).KeepsRegs (P w) (t.wgOf w)

section
variable {P : Nat → Prop} {g k l : Workgroup}

theorem Thread.KeepsRegs.refl (traps : Prop) (t : Thread) : t.KeepsRegs traps t := ⟨rfl, rfl, rfl, rfl, fun _ => ⟨rfl, rfl⟩⟩

theorem Thread.KeepsRegs.trans {traps traps' : Prop} {t u x : Thread} (h : t.KeepsRegs traps u) (h' : u.KeepsRegs traps' x)
    (ht : ¬traps → ¬traps') : t.KeepsRegs traps x where
  pend := h'.pend.trans h.pend
  v := h'.v.trans h.v
  p := h'.p.trans h.p
  fflags := h'.fflags.trans h.fflags
  stays hn := ⟨(h'.stays (ht hn)).1.trans (h.stays hn).1, (h'.stays (ht hn)).2.trans (h.stays hn).2⟩

theorem Workgroup.KeepsRegs.refl (P : Nat → Prop) (g : Workgroup) : g.KeepsRegs P g := ⟨fun _ => .refl _ _, fun _ => rfl⟩

theorem Workgroup.KeepsRegs.trans (h : g.KeepsRegs P k) (h' : k.KeepsRegs P l) : g.KeepsRegs P l :=
  ⟨fun i => (h.threads i).trans (h'.threads i) id, fun n => (h'.s n).trans (h.s n)⟩

theorem Workgroup.keeps_modThread (g : Workgroup) {i : Nat} {f : Thread → Thread} (hf : ∀ t : Thread, t.KeepsRegs (P i) (f t)) :
    g.KeepsRegs P (g.modThread i f) where
  threads j := by
    by_cases hj : j = i
    · subst hj
      cases h : Tab.find g.threads j with
      | none => simpa [Workgroup.thread, Workgroup.modThread, Tab.get, h] using Thread.KeepsRegs.refl _ _
      | some u => exact Workgroup.thread_modThread g j f (by simp [h]) ▸ hf _
    · exact Workgroup.thread_modThread_ne g i j f hj ▸ .refl _ _
  s _ := rfl

theorem Workgroup.keeps_foldl_modThread (g : Workgroup) {ts : List Nat} {f : Nat → Thread → Thread}
    (hf : ∀ i ∈ ts, ∀ t : Thread, t.KeepsRegs (P i) (f i t)) : g.KeepsRegs P (ts.foldl (fun g i => g.modThread i (f i)) g) :=
  List.foldlRecOn (motive := fun k => g.KeepsRegs P k) ts _ (.refl P g) fun k h i hi => h.trans (k.keeps_modThread (hf i hi))

theorem Workgroup.keeps_modHw (g : Workgroup) (n : Nat) {f : HWarp → HWarp} (hf : ∀ h, (f h).s = h.s) :
    g.KeepsRegs P (g.modHw n f) where
  threads i := .refl _ _
  s h := by
    by_cases hh : h = n
    · simp [Workgroup.hw, Workgroup.modHw, hh, hf]
    · simp [Workgroup.hw, Workgroup.modHw, hh]

theorem Workgroup.keeps_unset (P : Nat → Prop) (g : Workgroup) (ts : List Nat) : g.KeepsRegs P (g.unset ts) :=
  ⟨fun _ => .refl _ _, fun _ => rfl⟩

end

section
variable {P Q : Nat → Nat → Prop} {s t u : State}

theorem State.KeepsRegs.refl (P : Nat → Nat → Prop) (s : State) : s.KeepsRegs P s := ⟨rfl, fun _ => .refl _ _⟩

/-- Traps of a second change among the threads that a first one leaves to trap. -/
theorem State.KeepsRegs.trans' (h : s.KeepsRegs P t) (h' : t.KeepsRegs Q u) (hq : ∀ w i, ¬P w i → ¬Q w i) : s.KeepsRegs P u where
  mem := h'.mem.trans h.mem
  wgs w := {
    threads := fun i => ((h.wgs w).threads i).trans ((h'.wgs w).threads i) (hq w i)
    s := fun n => ((h'.wgs w).s n).trans ((h.wgs w).s n) }

theorem State.KeepsRegs.trans (h : s.KeepsRegs P t) (h' : t.KeepsRegs P u) : s.KeepsRegs P u := h.trans' h' fun _ _ => id

theorem State.keeps_of_eq (hm : t.mem = s.mem) (hw : t.wgs = s.wgs) : s.KeepsRegs P t :=
  ⟨hm, fun w => by rw [State.wgOf, State.wgOf, hw]; exact .refl _ _⟩

theorem State.keeps_foldl {α : Type} (l : List α) {f : State → α → State} (s : State) (h : ∀ s : State, ∀ a ∈ l, s.KeepsRegs P (f s a)) :
    s.KeepsRegs P (l.foldl f s) :=
  List.foldlRecOn (motive := fun t => s.KeepsRegs P t) l _ (.refl P s) fun t ht a ha => ht.trans (h t a ha)

theorem State.keeps_modWg (s : State) (w : Nat) {f : Workgroup → Workgroup} (hf : ∀ g : Workgroup, g.KeepsRegs (P w) (f g)) :
    s.KeepsRegs P (s.modWg w f) where
  mem := rfl
  wgs v := by
    cases h : Tab.find s.wgs w with
    | none => exact State.modWg_of_absent f h v ▸ .refl _ _
    | some g =>
      by_cases hv : v = w
      · subst hv
        exact State.wgOf_modWg s v f (by simp [h]) ▸ hf _
      · exact State.wgOf_modWg_ne s w v f hv ▸ .refl _ _

/-! ### Traps -/

theorem State.keeps_log (s : State) (die : Nat) (e : LogEntry) : s.KeepsRegs P (s.log die e) := by
  unfold State.log
  split <;> exact State.keeps_of_eq rfl rfl

theorem State.keeps_endRegion (s : State) (b status : Nat) : s.KeepsRegs P (s.endRegion b status) := State.keeps_of_eq rfl rfl

theorem State.keeps_escalate (s : State) (b fuel : Nat) : s.KeepsRegs P (s.escalate b fuel) := by
  induction fuel generalizing s b with
  | zero => exact .refl _ _
  | succ n ih =>
    unfold State.escalate
    split
    · exact .refl _ _
    split
    · exact .refl _ _
    split
    · exact .refl _ _
    have hkids : ∀ (ks : List Nat) (s : State), s.KeepsRegs P (ks.foldl (fun s k =>
        if (Tab.find s.regions k).any (·.state = 3) then s.endRegion k 8 else s) s) := fun ks s =>
      State.keeps_foldl ks s fun s k _ => by split; exacts [s.keeps_endRegion k 8, .refl _ _]
    dsimp only
    split
    · exact ((s.keeps_endRegion _ 8).trans (hkids _ _)).trans (ih _ _)
    · exact (s.keeps_endRegion _ 8).trans (hkids _ _)

theorem Workgroup.keeps_endThread {P : Nat → Prop} (g : Workgroup) (i : Nat) (byTail : Bool) :
    g.KeepsRegs P (g.endThread i byTail) := by
  unfold Workgroup.endThread
  dsimp only
  refine (g.keeps_modThread fun t => ?_).trans (Workgroup.keeps_modHw _ _ fun h => ?_)
  · exact ⟨rfl, rfl, rfl, rfl, fun _ => ⟨rfl, rfl⟩⟩
  · exact List.foldlRecOn (motive := fun k : HWarp => k.s = h.s) (List.range 12) _ rfl fun k hk _ _ => hk

theorem State.keeps_applyFdp (s : State) (w i : Nat) : s.KeepsRegs P (s.applyFdp w i) := by
  have hend : s.KeepsRegs P (s.modWg w (·.endThread i false)) := s.keeps_modWg w fun g => g.keeps_endThread i false
  unfold State.applyFdp
  dsimp only
  split
  · exact hend
  split
  · exact hend
  split
  · exact (s.keeps_endRegion _ 7).trans (State.keeps_escalate _ _ _)
  · exact s.keeps_endRegion _ 7

theorem State.keeps_unhandled (s : State) (w i : Nat) : s.KeepsRegs P (s.unhandled w i) := by
  refine ((s.keeps_log _ _).trans (State.keeps_modWg _ w fun g => g.keeps_modThread fun t => ?_)).trans
    (State.keeps_applyFdp _ w i)
  exact ⟨rfl, rfl, rfl, rfl, fun _ => ⟨rfl, rfl⟩⟩

/-- Threads that enter a handler go on there. -/
theorem State.keeps_enterHandlers (s : State) (w : Nat) {ts : List Nat} (hP : ∀ i ∈ ts, P w i) :
    s.KeepsRegs P (s.enterHandlers w ts) := by
  unfold State.enterHandlers
  refine State.KeepsRegs.trans (s.keeps_modWg w fun g => ?_) (State.keeps_foldl _ _ fun s i _ => s.keeps_unhandled w i)
  have henter : g.KeepsRegs (P w) ((ts.filter fun t => handled (s.wgOf w) ((s.wgOf w).thread t)).foldl
      (fun g t => g.modThread t (Thread.enter g.fhEntry)) g) :=
    List.foldlRecOn (motive := fun k => g.KeepsRegs (P w) k) _ _ (.refl _ g) fun k hk i hi =>
      hk.trans (k.keeps_modThread fun t => ⟨rfl, rfl, rfl, rfl, fun hn => absurd (hP i (List.mem_filter.mp hi).1) hn⟩)
  split
  · exact henter
  · exact henter.trans ⟨fun _ => .refl _ _, fun _ => rfl⟩

theorem State.keeps_logSpoilt (s : State) (w : Nat) (ts : List Nat) : s.KeepsRegs P (s.logSpoilt w ts) := by
  refine State.keeps_foldl _ _ fun s i _ => ?_
  dsimp only
  split
  · exact (State.keeps_of_eq rfl rfl : s.KeepsRegs P s.draw.2).trans (State.keeps_log _ _ _)
  · exact .refl _ _

theorem State.keeps_takeTraps (s : State) (w : Nat) {ts : List Nat} (hP : ∀ i ∈ ts, P w i) :
    s.KeepsRegs P (s.takeTraps w ts) := by
  unfold State.takeTraps
  have hleft : s.KeepsRegs P ((s.logSpoilt w ts).modWg w (·.unset ts)) :=
    (s.keeps_logSpoilt w ts).trans (State.keeps_modWg _ w fun g => g.keeps_unset _ ts)
  dsimp only
  generalize (s.logSpoilt w ts).modWg w (·.unset ts) = s1 at hleft ⊢
  have hout : s1.KeepsRegs P ((ts.filter fun t => !handled (s1.wgOf w) ((s1.wgOf w).thread t)).foldl
      (fun s t => s.unhandled w t) s1) := State.keeps_foldl _ s1 fun s i _ => s.keeps_unhandled w i
  refine (hleft.trans hout).trans ?_
  split
  · exact .refl _ _
  split
  · exact State.keeps_enterHandlers _ w fun i hi => hP i (List.mem_filter.mp hi).1
  · refine State.keeps_modWg _ w fun g => ?_
    refine Workgroup.KeepsRegs.trans ?_ (Workgroup.keeps_foldl_modThread _ fun i _ t => ?_)
    · exact ⟨fun _ => .refl _ _, fun _ => rfl⟩
    · exact ⟨rfl, rfl, rfl, rfl, fun _ => ⟨rfl, rfl⟩⟩

theorem Thread.keeps_trapWhole {traps : Prop} (k : Cause) (t : Thread) : t.KeepsRegs traps (t.trapWhole k) :=
  ⟨rfl, rfl, rfl, rfl, fun _ => ⟨rfl, rfl⟩⟩

theorem State.keeps_trapEach (s : State) (w : Nat) {ts : List (Nat × Cause)} (hP : ∀ x ∈ ts, P w x.1) :
    s.KeepsRegs P (s.trapEach w ts) := by
  unfold State.trapEach
  split
  · exact .refl _ _
  · refine (s.keeps_modWg w fun g => ?_).trans (State.keeps_takeTraps _ w fun i hi => ?_)
    · exact List.foldlRecOn (motive := fun k => g.KeepsRegs (P w) k) _ _ (.refl _ g) fun k hk x _ =>
        hk.trans (k.keeps_modThread fun t => t.keeps_trapWhole x.2)
    · obtain ⟨x, hx, rfl⟩ := List.mem_map.mp hi
      exact hP x hx

theorem State.keeps_trapOwed (s : State) (w : Nat) {ts : List Nat} (hP : ∀ i ∈ ts, P w i) :
    s.KeepsRegs P (s.trapOwed w ts) := by
  refine (s.keeps_trapEach w fun x hx => ?_).trans (State.keeps_modWg _ w fun g => g.keeps_foldl_modThread fun i hi t => ?_)
  · obtain ⟨i, hi, he⟩ := List.mem_filterMap.mp hx
    obtain ⟨k, -, rfl⟩ := Option.map_eq_some_iff.mp he
    exact hP i hi
  · exact ⟨rfl, rfl, rfl, rfl, fun hn => absurd (hP i hi) hn⟩

/-! ### Settles and arrivals -/

/-- A thread that traps where it settles owes a trap for a write that failed. -/
def State.owes (s : State) (w i : Nat) : Prop := (s.thread w i).failed ≠ []

theorem State.KeepsRegs.trans_owes (h : s.KeepsRegs s.owes t) (h' : t.KeepsRegs t.owes u) : s.KeepsRegs s.owes u :=
  h.trans' h' fun w i hn ht => ht ((((h.wgs w).threads i).stays hn).2.trans (not_not.mp hn))

theorem State.keeps_arrive (s : State) (w : Nat) (ts : List Nat) : s.KeepsRegs s.owes (s.arrive w ts) := by
  refine State.KeepsRegs.trans (s.keeps_modWg w fun g => ?_) (State.keeps_trapOwed _ w fun i hi => ?_)
  · refine List.foldlRecOn (motive := fun k => g.KeepsRegs _ k) _ _ (.refl _ g) fun k hk i _ => ?_
    refine hk.trans ((k.keeps_modThread fun t => ?_).trans (Workgroup.keeps_unset _ _ _))
    exact ⟨rfl, rfl, rfl, rfl, fun _ => ⟨rfl, rfl⟩⟩
  · have := (List.mem_filter.mp hi).2
    simp only [Bool.and_eq_true, Bool.not_eq_true', List.isEmpty_eq_false_iff] at this
    exact this.2

theorem State.keeps_settleAll (s : State) : s.KeepsRegs s.owes s.settleAll := by
  refine List.foldlRecOn (motive := fun t => s.KeepsRegs s.owes t) _ _ (.refl _ s) fun t ht p _ => ht.trans_owes ?_
  dsimp only
  split
  · exact .refl _ _
  · have hready : t.KeepsRegs t.owes (t.modWg p.1 fun g =>
        ((p.2.threads.filter fun x => t.restOver p.1 x.2).map Prod.fst).foldl
          (fun g i => g.modThread i fun x => { x with hold := .ready }) g) :=
      t.keeps_modWg p.1 fun g => g.keeps_foldl_modThread fun i _ x => ⟨rfl, rfl, rfl, rfl, fun _ => ⟨rfl, rfl⟩⟩
    exact hready.trans_owes (State.keeps_arrive _ _ _)

theorem State.keeps_unblock (s : State) : s.KeepsRegs P s.unblock where
  mem := rfl
  wgs w := {
    threads := fun i => by
      obtain ⟨b, hb⟩ := s.thread_unblock w i
      simp only [State.thread] at hb
      exact hb ▸ ⟨rfl, rfl, rfl, rfl, fun _ => ⟨rfl, rfl⟩⟩
    s := fun h => by rw [State.hw_unblock] }

end
end Sys2Proof.Machine

namespace Sys2Proof.Machine

/-! ## A result returns (R24)

What arrives in the registers of a thread, and what leaves its pending set. -/

/-- Values written in turn, each to its own destination: a destination written once reads what was written there, and one that
is not written reads as before. `I` is what the state must keep for it. -/
theorem foldl_write_ne {σ β : Type} {f : σ → Write → σ} {read : σ → β} {d : Dest}
    (hne : ∀ s x, x.dest ≠ d → read (f s x) = read s) {ws : List Write} (h : ∀ x ∈ ws, x.dest ≠ d) (s : σ) :
    read (ws.foldl f s) = read s :=
  List.foldlRecOn (motive := fun k => read k = read s) ws f rfl fun k hk x hx => (hne k x (h x hx)).trans hk

theorem foldl_write_mem {σ β : Type} {f : σ → Write → σ} {I : σ → Prop} {read : σ → β} {d : Dest} {val : Write → β}
    (hI : ∀ s x, I s → I (f s x)) (hne : ∀ s x, x.dest ≠ d → read (f s x) = read s)
    (heq : ∀ s x, I s → x.dest = d → read (f s x) = val x) {ws : List Write} (hn : (ws.map (·.dest)).Nodup) {x : Write}
    (hx : x ∈ ws) (hd : x.dest = d) {s : σ} (hs : I s) : read (ws.foldl f s) = val x := by
  induction ws generalizing s with
  | nil => simp at hx
  | cons y rest ih =>
    obtain ⟨hy, hr⟩ := List.nodup_cons.mp hn
    rcases List.mem_cons.mp hx with rfl | hx
    · refine (foldl_write_ne hne (fun z hz he => hy ?_) (f s x)).trans (heq s x hs hd)
      exact List.mem_map.mpr ⟨z, hz, he.trans hd.symm⟩
    · exact ih hr hx (hI s y hs)

section
variable {g : Workgroup} {i j n : Nat} {ws : List Write}

/-- A value arrives in a register of its thread or of the thread's home warp. -/
theorem Workgroup.thread_arrive (g : Workgroup) (i j : Nat) (x : Write) :
    ∃ v p sp, (g.arrive i x).thread j = { g.thread j with v := v, p := p, spoilt := sp } := by
  have hmod : ∀ f : Thread → Thread, (∀ t, ∃ v p sp, f t = { t with v := v, p := p, spoilt := sp }) →
      ∃ v p sp, (g.modThread i f).thread j = { g.thread j with v := v, p := p, spoilt := sp } := by
    intro f hf
    by_cases hj : j = i
    · subst hj
      cases h : Tab.find g.threads j with
      | none => exact ⟨noThread.v, noThread.p, noThread.spoilt, by simp [Workgroup.thread, Workgroup.modThread, Tab.get, h]⟩
      | some u => exact Workgroup.thread_modThread g j f (by simp [h]) ▸ hf _
    · exact ⟨(g.thread j).v, (g.thread j).p, (g.thread j).spoilt, Workgroup.thread_modThread_ne g i j f hj⟩
  unfold Workgroup.arrive
  split
  · exact hmod _ fun t => ⟨_, t.p, _, rfl⟩
  · refine hmod _ fun t => ?_
    unfold Thread.writeP
    split
    · exact ⟨t.v, t.p, t.spoilt, rfl⟩
    · exact ⟨t.v, _, _, rfl⟩
  · exact ⟨(g.thread j).v, (g.thread j).p, (g.thread j).spoilt, rfl⟩

theorem Workgroup.thread_arriveAll (g : Workgroup) (i j : Nat) (ws : List Write) :
    ∃ v p sp, (g.arriveAll i ws).thread j = { g.thread j with v := v, p := p, spoilt := sp } :=
  List.foldlRecOn (motive := fun k : Workgroup => ∃ v p sp, k.thread j = { g.thread j with v := v, p := p, spoilt := sp }) ws _
    ⟨(g.thread j).v, (g.thread j).p, (g.thread j).spoilt, rfl⟩ fun k ⟨_, _, _, hk⟩ x _ =>
      have ⟨v, p, sp, he⟩ := k.thread_arrive i j x
      ⟨v, p, sp, by rw [he, hk]⟩

theorem Workgroup.find_arrive_isSome (g : Workgroup) (i j : Nat) (x : Write) :
    (Tab.find (g.arrive i x).threads j).isSome = (Tab.find g.threads j).isSome := by
  have hmod : ∀ f : Thread → Thread, (Tab.find (g.modThread i f).threads j).isSome = (Tab.find g.threads j).isSome :=
    fun f => Workgroup.find_foldl_modThread_isSome f [i]
  unfold Workgroup.arrive
  split
  · exact hmod _
  · exact hmod _
  · rfl

theorem Workgroup.find_arriveAll_isSome (g : Workgroup) (i j : Nat) (ws : List Write) :
    (Tab.find (g.arriveAll i ws).threads j).isSome = (Tab.find g.threads j).isSome :=
  List.foldlRecOn (motive := fun k : Workgroup => (Tab.find k.threads j).isSome = (Tab.find g.threads j).isSome) ws _ rfl
    fun k hk x _ => (k.find_arrive_isSome i j x).trans hk

/-- What is read of a thread that a change leaves. -/
theorem Workgroup.read_modThread {β : Type} (read : Thread → β) {f : Thread → Thread} (h : ∀ t, read (f t) = read t)
    (g : Workgroup) (i j : Nat) : read ((g.modThread i f).thread j) = read (g.thread j) := by
  by_cases hj : j = i
  · subst hj
    cases hf : Tab.find g.threads j with
    | none => simp [Workgroup.thread, Workgroup.modThread, Tab.get, hf]
    | some u => rw [Workgroup.thread_modThread g j f (by simp [hf]), h]
  · rw [Workgroup.thread_modThread_ne g i j f hj]

theorem Thread.readV_writeV (t : Thread) (m n : Nat) (x : W32) : (t.writeV m x).readV n = if n = m then x else t.readV n := by
  simp [Thread.writeV, Thread.readV]

theorem Thread.readV_writeP (t : Thread) (m n : Nat) (b : Bool) : (t.writeP m b).readV n = t.readV n := by
  rw [Thread.writeP_frame]
  rfl

theorem Thread.readP_writeP_ne (t : Thread) {m n : Nat} (h : m ≠ n) (b : Bool) : (t.writeP m b).readP n = t.readP n := by
  have hlt : (t.p.getLsbD n && decide (n < 48)) = t.p.getLsbD n := by
    cases hb : t.p.getLsbD n with
    | false => rfl
    | true => simp [BitVec.lt_of_getLsbD hb]
  cases b <;> by_cases hm : m = 0 <;> simp [Thread.writeP, Thread.readP, hm, h, hlt, BitVec.getLsbD_twoPow]

theorem Thread.readP_writeP (t : Thread) {n : Nat} (h0 : 0 < n) (hn : n < 48) (b : Bool) : (t.writeP n b).readP n = b := by
  cases b <;> simp [Thread.writeP, Thread.readP, Nat.ne_of_gt h0, hn]

/-! Of one value: the register it goes to, and the others. -/

theorem Workgroup.readV_arrive_ne {x : Write} (h : x.dest ≠ .v n) (g : Workgroup) (i : Nat) :
    ((g.arrive i x).thread i).readV n = (g.thread i).readV n := by
  unfold Workgroup.arrive
  split
  case h_1 m hm =>
    have hne : n ≠ m := by rintro rfl; exact h hm
    exact Workgroup.read_modThread (·.readV n) (fun t => by simp [Thread.readV_writeV, hne]) g i i
  case h_2 m hm => exact Workgroup.read_modThread (·.readV n) (fun t => t.readV_writeP m n _) g i i
  case h_3 m hm => rfl

theorem Workgroup.readP_arrive_ne {x : Write} (h : x.dest ≠ .p n) (g : Workgroup) (i : Nat) :
    ((g.arrive i x).thread i).readP n = (g.thread i).readP n := by
  unfold Workgroup.arrive
  split
  case h_1 m hm => exact Workgroup.read_modThread (f := (·.writeV m _)) (·.readP n) (fun t => rfl) g i i
  case h_2 m hm =>
    have hne : m ≠ n := by rintro rfl; exact h hm
    exact Workgroup.read_modThread (·.readP n) (fun t => t.readP_writeP_ne hne _) g i i
  case h_3 m hm => rfl

theorem Workgroup.readS_arrive_ne {x : Write} (h : x.dest ≠ .s n) (g : Workgroup) (i k : Nat) :
    ((g.arrive i x).hw k).readS n = (g.hw k).readS n := by
  unfold Workgroup.arrive
  split
  case h_1 m hm => rfl
  case h_2 m hm => rfl
  case h_3 m hm =>
    have hne : n ≠ m := by rintro rfl; exact h hm
    simp only [Workgroup.hw, Workgroup.modHw, Tab.get_put]
    split
    · next hk => simp [HWarp.readS, HWarp.writeS, hne, hk]
    · rfl

theorem Workgroup.readV_arrive {x : Write} (hf : (Tab.find g.threads i).isSome) (h : x.dest = .v n) :
    ((g.arrive i x).thread i).readV n = x.val.setWidth 32 := by
  simp [Workgroup.arrive, h, Workgroup.thread_modThread g i _ hf, Thread.readV_writeV]

theorem Workgroup.readP_arrive {x : Write} (hf : (Tab.find g.threads i).isSome) (h : x.dest = .p n) (h0 : 0 < n) (hn : n < 48) :
    ((g.arrive i x).thread i).readP n = x.val.getLsbD 0 := by
  simp [Workgroup.arrive, h, Workgroup.thread_modThread g i _ hf, Thread.readP_writeP _ h0 hn]

theorem Workgroup.readS_arrive {x : Write} (h : x.dest = .s n) (g : Workgroup) (i : Nat) :
    ((g.arrive i x).hw (g.home i)).readS n = x.val := by
  simp [Workgroup.arrive, h, Workgroup.hw, Workgroup.modHw, HWarp.readS, HWarp.writeS]

theorem Workgroup.home_arrive (g : Workgroup) (i : Nat) (x : Write) : (g.arrive i x).home = g.home := by
  unfold Workgroup.arrive
  split <;> rfl

/-! Of all of them. -/

theorem Workgroup.readV_arriveAll_ne (h : ∀ x ∈ ws, x.dest ≠ .v n) (g : Workgroup) (i : Nat) :
    ((g.arriveAll i ws).thread i).readV n = (g.thread i).readV n :=
  foldl_write_ne (read := fun k : Workgroup => (k.thread i).readV n) (fun k _ hd => k.readV_arrive_ne hd i) h g

section
variable {x : Write} (hn : (ws.map (·.dest)).Nodup) (hx : x ∈ ws)
include hn hx

theorem Workgroup.readV_arriveAll (hf : (Tab.find g.threads i).isSome) (h : x.dest = .v n) :
    ((g.arriveAll i ws).thread i).readV n = x.val.setWidth 32 :=
  foldl_write_mem (I := fun k : Workgroup => (Tab.find k.threads i).isSome = true) (read := fun k => (k.thread i).readV n)
    (fun k x hk => (k.find_arrive_isSome i i x).trans hk) (fun k _ hd => k.readV_arrive_ne hd i)
    (fun _ _ hk hd => Workgroup.readV_arrive hk hd) hn hx h hf

theorem Workgroup.readP_arriveAll (hf : (Tab.find g.threads i).isSome) (h : x.dest = .p n) (h0 : 0 < n) (h48 : n < 48) :
    ((g.arriveAll i ws).thread i).readP n = x.val.getLsbD 0 :=
  foldl_write_mem (I := fun k : Workgroup => (Tab.find k.threads i).isSome = true) (read := fun k => (k.thread i).readP n)
    (fun k x hk => (k.find_arrive_isSome i i x).trans hk) (fun k _ hd => k.readP_arrive_ne hd i)
    (fun _ _ hk hd => Workgroup.readP_arrive hk hd h0 h48) hn hx h hf

theorem Workgroup.readS_arriveAll (h : x.dest = .s n) : ((g.arriveAll i ws).hw (g.home i)).readS n = x.val :=
  foldl_write_mem (I := fun k : Workgroup => k.home = g.home) (read := fun k => (k.hw (g.home i)).readS n)
    (fun k x hk => (k.home_arrive i x).trans hk) (fun k _ hd => k.readS_arrive_ne hd i _)
    (fun k _ hk hd => hk ▸ Workgroup.readS_arrive hd k i) hn hx h rfl

end
end

/-! ### The result returns -/

/-- The threads that share an entry are listed once, its own among them. -/
theorem Workgroup.nodup_sharers {g : Workgroup} (hs : Tab.sorted g.threads = true) (i : Nat) (p : Pend) :
    (g.sharers i p).Nodup := by
  unfold Workgroup.sharers
  split
  · exact (Tab.nodup_keys hs).sublist (List.filter_sublist.map _)
  · exact List.nodup_singleton i

theorem Workgroup.mem_sharers {g : Workgroup} {i : Nat} {p : Pend} (hf : (Tab.find g.threads i).isSome)
    (hp : p ∈ (g.thread i).pend) : i ∈ g.sharers i p := by
  obtain ⟨u, hu⟩ := Option.isSome_iff_exists.mp hf
  rw [Workgroup.thread_of_find hu] at hp
  unfold Workgroup.sharers
  split
  · exact List.mem_map.mpr ⟨(i, u), List.mem_filter.mpr ⟨Tab.mem_of_find _ _ _ hu, by simpa using hp⟩, rfl⟩
  · exact List.mem_singleton_self i

/-- The workgroup once a result has returned. -/
def Workgroup.returned (g : Workgroup) (i : Nat) (p : Pend) (vals : List Write) (fl : Flags) : Workgroup :=
  ((g.arriveAll i vals).modThread i (·.raise fl)).unpend (g.sharers i p) p

theorem execResultReturn_ready {s : State} {w i k : Nat} {p : Pend} {vals : List Write} {fl : Flags}
    (hk : (s.thread w i).pend[k]? = some p) (hp : p.src = .ready vals fl) :
    execResultReturn w i k s = .next (s.modWg w fun g => g.returned i p vals fl).settleAll.unblock := by
  have hk' : ((s.wgOf w).thread i).pend[k]? = some p := hk
  unfold execResultReturn
  simp only [hk', hp]
  rfl

section
variable {g : Workgroup} {i : Nat} {p : Pend} {vals : List Write} {fl : Flags}

theorem Workgroup.hw_returned (h : Nat) : (g.returned i p vals fl).hw h = (g.arriveAll i vals).hw h :=
  List.foldlRecOn (motive := fun k : Workgroup => k.hw h = (g.arriveAll i vals).hw h) (g.sharers i p) _ rfl fun _ hk _ _ => hk

/-- The thread once its result has returned: registers, flags, pending set. -/
theorem Workgroup.thread_returned (hs : Tab.sorted g.threads = true) (hf : (Tab.find g.threads i).isSome)
    (hp : p ∈ (g.thread i).pend) : (g.returned i p vals fl).thread i =
      { ((g.arriveAll i vals).thread i).raise fl with pend := (g.thread i).pend.erase p } := by
  have hfound : (Tab.find (g.arriveAll i vals).threads i).isSome := (g.find_arriveAll_isSome i i vals).trans hf
  have hraised : (Tab.find ((g.arriveAll i vals).modThread i (·.raise fl)).threads i).isSome :=
    (Workgroup.find_foldl_modThread_isSome (·.raise fl) [i]).trans hfound
  unfold Workgroup.returned Workgroup.unpend
  rw [Workgroup.thread_foldl_modThread_mem _ (Workgroup.nodup_sharers hs i p) (Workgroup.mem_sharers hf hp) hraised,
    Workgroup.thread_modThread _ i _ hfound]
  obtain ⟨v, q, sp, he⟩ := g.thread_arriveAll i i vals
  rw [he]
  rfl

end

/-! ### What follows in the other threads -/

/-- Nothing but one thread of a workgroup and its release sets has changed, and what that thread owes. -/
structure Workgroup.Beside (i : Nat) (g k : Workgroup) : Prop where
  core : k.core = g.core
  mxq : k.mxq = g.mxq
  matrix : k.matrix = g.matrix
  others : ∀ j ≠ i, k.thread j = g.thread j
  failed : (k.thread i).failed = (g.thread i).failed
  sorted : Tab.sorted k.threads = Tab.sorted g.threads

structure State.Beside (w i : Nat) (s t : State) : Prop where
  cores : t.cores = s.cores
  reqs : t.reqs = s.reqs
  others : ∀ v ≠ w, t.wgOf v = s.wgOf v
  wg : (s.wgOf w).Beside i (t.wgOf w)

section
variable {w i v j : Nat} {g k l : Workgroup} {s t u : State}

theorem Workgroup.Beside.refl (i : Nat) (g : Workgroup) : g.Beside i g := ⟨rfl, rfl, rfl, fun _ _ => rfl, rfl, rfl⟩

theorem Workgroup.Beside.trans (h : g.Beside i k) (h' : k.Beside i l) : g.Beside i l where
  core := h'.core.trans h.core
  mxq := h'.mxq.trans h.mxq
  matrix := h'.matrix.trans h.matrix
  others j hj := (h'.others j hj).trans (h.others j hj)
  failed := h'.failed.trans h.failed
  sorted := h'.sorted.trans h.sorted

theorem Workgroup.beside_modThread (g : Workgroup) (i : Nat) {f : Thread → Thread} (hf : ∀ t, (f t).failed = t.failed) :
    g.Beside i (g.modThread i f) :=
  ⟨rfl, rfl, rfl, fun j hj => g.thread_modThread_ne i j f hj, Workgroup.read_modThread (·.failed) hf g i i,
    Tab.sorted_map _ _⟩

theorem Workgroup.beside_unset (i : Nat) (g : Workgroup) (ts : List Nat) : g.Beside i (g.unset ts) :=
  ⟨rfl, rfl, rfl, fun _ _ => rfl, rfl, rfl⟩

theorem Workgroup.beside_foldl {α : Type} (l : List α) {f : Workgroup → α → Workgroup} (g : Workgroup)
    (h : ∀ k : Workgroup, ∀ a ∈ l, k.Beside i (f k a)) : g.Beside i (l.foldl f g) :=
  List.foldlRecOn (motive := fun k => g.Beside i k) l _ (.refl i g) fun k hk a ha => hk.trans (h k a ha)

theorem State.Beside.refl (w i : Nat) (s : State) : s.Beside w i s := ⟨rfl, rfl, fun _ _ => rfl, .refl i _⟩

theorem State.Beside.trans (h : s.Beside w i t) (h' : t.Beside w i u) : s.Beside w i u where
  cores := h'.cores.trans h.cores
  reqs := h'.reqs.trans h.reqs
  others v hv := (h'.others v hv).trans (h.others v hv)
  wg := h.wg.trans h'.wg

theorem State.beside_modWg (s : State) (w : Nat) {f : Workgroup → Workgroup} (hf : ∀ g : Workgroup, g.Beside i (f g)) :
    s.Beside w i (s.modWg w f) where
  cores := rfl
  reqs := rfl
  others v hv := s.wgOf_modWg_ne w v f hv
  wg := by
    cases h : Tab.find s.wgs w with
    | none => exact State.modWg_of_absent f h w ▸ .refl i _
    | some g => exact s.wgOf_modWg w f (by simp [h]) ▸ hf _

theorem State.Beside.thread (h : s.Beside w i t) (hv : ¬(v = w ∧ j = i)) : t.thread v j = s.thread v j := by
  by_cases hw : v = w
  · subst hw
    exact h.wg.others j fun hj => hv ⟨rfl, hj⟩
  · rw [State.thread, State.thread, h.others v hw]

/-- What a thread waits for by itself does not hang on another thread. -/
theorem State.Beside.restOver (h : s.Beside w i t) (v : Nat) (x : Thread) : t.restOver v x = s.restOver v x := by
  have hcore : (t.wgOf v).core = (s.wgOf v).core := by
    by_cases hw : v = w
    · exact hw ▸ h.wg.core
    · rw [h.others v hw]
  have hbusy : (t.wgOf v).mxBusy x.tid = (s.wgOf v).mxBusy x.tid := by
    by_cases hw : v = w
    · subst hw
      have hpass : (t.wgOf v).passWaits = (s.wgOf v).passWaits := by
        funext o
        cases o <;> simp [Workgroup.passWaits, h.wg.matrix]
      simp only [Workgroup.mxBusy, h.wg.mxq, hpass]
    · rw [h.others v hw]
  have hout : t.storesOut v x.tid = s.storesOut v x.tid := by
    simp only [State.storesOut, State.coreOf, h.cores, h.reqs, hcore]
  have hidle : t.idle v x = s.idle v x := by simp only [State.idle, hbusy, hout]
  unfold State.restOver
  split <;> simp only [hidle]

/-- A thread that owes nothing arrives at its meeting: it alone is held there. -/
theorem State.beside_arrive {ts : List Nat} (hts : ∀ j ∈ ts, j = i) (hf : (s.thread w i).failed = []) :
    s.Beside w i (s.arrive w ts) := by
  have hnone : ∀ us : List Nat, (∀ j ∈ us, j = i) →
      (us.filter fun t => s.idle w ((s.wgOf w).thread t) && !((s.wgOf w).thread t).failed.isEmpty) = [] := by
    refine fun us hus => List.filter_eq_nil_iff.mpr fun j hj => ?_
    have hf' : ((s.wgOf w).thread i).failed = [] := hf
    simp [hus j hj, hf']
  unfold State.arrive
  dsimp only
  rw [hnone _ fun j hj => hts j (List.mem_filter.mp hj).1, State.trapOwed_nil]
  refine s.beside_modWg w fun g => Workgroup.beside_foldl _ g fun k j hj => ?_
  have hji : j = i := hts j (List.mem_filter.mp (List.mem_filter.mp hj).1).1
  subst hji
  refine (k.beside_modThread j fun t => ?_).trans (Workgroup.beside_unset j _ [j])
  rfl

/-- Where no other thread's settle is over, settles end in one thread alone. -/
theorem State.beside_settleAll (hn : Tab.sorted s.wgs = true) (hs : ∀ q ∈ s.wgs, Tab.sorted q.2.threads = true)
    (hf : (s.thread w i).failed = []) (hr : ∀ v j, ¬(v = w ∧ j = i) → s.restOver v (s.thread v j) = false) :
    s.Beside w i s.settleAll := by
  refine List.foldlRecOn (motive := fun t => s.Beside w i t) _ _ (.refl w i s) fun t ht q hq => ht.trans ?_
  have hq2 : s.wgOf q.1 = q.2 := by simp [State.wgOf, Tab.get, Tab.find_of_mem hn hq]
  have honly : ∀ j ∈ (q.2.threads.filter fun x => t.restOver q.1 x.2).map Prod.fst, q.1 = w ∧ j = i := by
    intro j hj
    obtain ⟨⟨j', x⟩, hx, rfl⟩ := List.mem_map.mp hj
    obtain ⟨hmem, hover⟩ := List.mem_filter.mp hx
    have hthread : s.thread q.1 j' = x := by
      rw [State.thread, hq2]
      exact Workgroup.thread_of_find (Tab.find_of_mem (hs q hq) hmem)
    by_contra hne
    rw [ht.restOver, ← hthread, hr _ _ hne] at hover
    cases hover
  dsimp only
  split
  · exact .refl w i t
  · next hne =>
    obtain ⟨j, hj⟩ := List.exists_mem_of_ne_nil _ hne
    have hw : q.1 = w := (honly j hj).1
    rw [hw]
    have hready : t.Beside w i (t.modWg w fun g =>
        ((q.2.threads.filter fun x => t.restOver w x.2).map Prod.fst).foldl
          (fun g i => g.modThread i fun x => { x with hold := .ready }) g) :=
      t.beside_modWg w fun g => Workgroup.beside_foldl _ g fun k j hj =>
        (honly j (hw ▸ hj)).2 ▸ k.beside_modThread j fun x => rfl
    refine hready.trans (State.beside_arrive (fun j hj => (honly j (hw ▸ hj)).2) ?_)
    exact (hready.wg.failed.trans ht.wg.failed).trans hf

end
end Sys2Proof.Machine

namespace Sys2Proof.Machine

/-! ## Results that return (R24) -/

theorem State.sorted_threads {s : State} (hn : s.Numbered) (w : Nat) : Tab.sorted (s.wgOf w).threads = true := by
  cases h : Tab.find s.wgs w with
  | none => simp [State.wgOf, Tab.get, h, Tab.sorted]
  | some g =>
    have := (hn.2.1 (w, g) (Tab.mem_of_find _ _ _ h)).1
    simpa [State.wgOf, Tab.get, h] using this

theorem State.sorted_modWg {s : State} {w : Nat} {f : Workgroup → Workgroup}
    (hf : ∀ g, Tab.sorted (f g).threads = Tab.sorted g.threads) (h : ∀ q ∈ s.wgs, Tab.sorted q.2.threads = true) :
    ∀ q ∈ (s.modWg w f).wgs, Tab.sorted q.2.threads = true := by
  intro q hq
  simp only [State.modWg, Tab.modify, Tab.map_eq_map] at hq
  obtain ⟨r, hr, rfl⟩ := List.mem_map.mp hq
  dsimp only
  split
  · exact (hf r.2).trans (h r hr)
  · exact h r hr

theorem Workgroup.beside_arriveAll (g : Workgroup) (i : Nat) (ws : List Write) : g.Beside i (g.arriveAll i ws) := by
  refine Workgroup.beside_foldl ws g fun k x _ => ?_
  unfold Workgroup.arrive
  split
  · exact k.beside_modThread i fun t => t.writeV_failed _ _
  · refine k.beside_modThread i fun t => ?_
    rw [Thread.writeP_frame]
  · exact ⟨rfl, rfl, rfl, fun _ _ => rfl, rfl, rfl⟩

/-- An entry without a scalar register leaves the pending set of its own thread only. -/
theorem Workgroup.beside_returned {p : Pend} (hd : ∀ d ∈ p.dests, ∀ n, d ≠ .s n) (g : Workgroup) (i : Nat) (vals : List Write)
    (fl : Flags) : g.Beside i (g.returned i p vals fl) := by
  have hshare : g.sharers i p = [i] := by
    refine if_neg fun h => ?_
    obtain ⟨d, hdm, hs⟩ := List.any_eq_true.mp h
    cases d with
    | s n => exact hd _ hdm n rfl
    | v n => simp at hs
    | p n => simp at hs
  unfold Workgroup.returned
  rw [hshare]
  refine ((g.beside_arriveAll i vals).trans (Workgroup.beside_modThread _ i fun t => ?_)).trans
    (Workgroup.beside_modThread _ i fun t => ?_) <;> rfl

/-- The state once a result has returned and what it held has gone on. -/
def State.afterReturn (s : State) (w i : Nat) (p : Pend) (vals : List Write) (fl : Flags) : State :=
  (s.modWg w fun g => g.returned i p vals fl).settleAll.unblock

/-- An entry of a thread's pending set whose values are there. -/
structure Returns (s : State) (w i : Nat) (p : Pend) (vals : List Write) : Prop where
  numbered : s.Numbered
  wg : (Tab.find s.wgs w).isSome
  found : (Tab.find (s.wgOf w).threads i).isSome
  pending : p ∈ (s.thread w i).pend
  once : (vals.map (·.dest)).Nodup

section
variable {s : State} {w i n : Nat} {p : Pend} {vals : List Write} {fl : Flags} {x : Write}

theorem State.keeps_afterReturn (s : State) (w i : Nat) (p : Pend) (vals : List Write) (fl : Flags) :
    (s.modWg w fun g => g.returned i p vals fl).KeepsRegs (s.modWg w fun g => g.returned i p vals fl).owes
      (s.afterReturn w i p vals fl) :=
  (State.keeps_settleAll _).trans (State.keeps_unblock _)

theorem State.mem_afterReturn : (s.afterReturn w i p vals fl).mem = s.mem := (s.keeps_afterReturn w i p vals fl).mem

section
variable (h : Returns s w i p vals)
include h

theorem Returns.wgOf : (s.modWg w fun g => g.returned i p vals fl).wgOf w = (s.wgOf w).returned i p vals fl :=
  s.wgOf_modWg w _ h.wg

theorem Returns.thread_returned : (s.modWg w fun g => g.returned i p vals fl).thread w i =
    { (((s.wgOf w).arriveAll i vals).thread i).raise fl with pend := (s.thread w i).pend.erase p } := by
  rw [State.thread, h.wgOf, Workgroup.thread_returned (State.sorted_threads h.numbered w) h.found h.pending]
  rfl

/-- What the thread keeps of the return until all has gone on. -/
theorem Returns.keeps : Thread.KeepsRegs ((s.thread w i).failed ≠ [])
    { (((s.wgOf w).arriveAll i vals).thread i).raise fl with pend := (s.thread w i).pend.erase p }
    ((s.afterReturn w i p vals fl).thread w i) := by
  have hk := ((s.keeps_afterReturn w i p vals fl).wgs w).threads i
  obtain ⟨v, q, sp, harr⟩ := (s.wgOf w).thread_arriveAll i i vals
  have howes : (s.modWg w fun g => g.returned i p vals fl).owes w i = ((s.thread w i).failed ≠ []) := by
    rw [State.owes, h.thread_returned, harr]
    rfl
  rw [howes] at hk
  exact h.thread_returned (fl := fl) ▸ hk

theorem Returns.pend : ((s.afterReturn w i p vals fl).thread w i).pend = (s.thread w i).pend.erase p := h.keeps.pend

theorem Returns.fflags : ((s.afterReturn w i p vals fl).thread w i).fflags = (s.thread w i).fflags ||| fl := by
  obtain ⟨v, q, sp, harr⟩ := (s.wgOf w).thread_arriveAll i i vals
  rw [h.keeps.fflags, harr]
  rfl

theorem Returns.pc (hf : (s.thread w i).failed = []) :
    ((s.afterReturn w i p vals fl).thread w i).pc = (s.thread w i).pc := by
  obtain ⟨v, q, sp, harr⟩ := (s.wgOf w).thread_arriveAll i i vals
  rw [(h.keeps.stays (not_not.mpr hf)).1, harr]
  rfl

theorem Returns.readV_eq : ((s.afterReturn w i p vals fl).thread w i).readV n =
    (((s.wgOf w).arriveAll i vals).thread i).readV n := by
  rw [Thread.readV, h.keeps.v]
  rfl

theorem Returns.readV (hx : x ∈ vals) (hd : x.dest = .v n) :
    ((s.afterReturn w i p vals fl).thread w i).readV n = x.val.setWidth 32 :=
  h.readV_eq.trans (Workgroup.readV_arriveAll h.once hx h.found hd)

theorem Returns.readV_ne (hv : ∀ x ∈ vals, x.dest ≠ .v n) :
    ((s.afterReturn w i p vals fl).thread w i).readV n = (s.thread w i).readV n :=
  h.readV_eq.trans (Workgroup.readV_arriveAll_ne hv _ i)

theorem Returns.readP (hx : x ∈ vals) (hd : x.dest = .p n) (h0 : 0 < n) (h48 : n < 48) :
    ((s.afterReturn w i p vals fl).thread w i).readP n = x.val.getLsbD 0 := by
  rw [Thread.readP, h.keeps.p]
  exact Workgroup.readP_arriveAll h.once hx h.found hd h0 h48

theorem Returns.readS (hx : x ∈ vals) (hd : x.dest = .s n) :
    (((s.afterReturn w i p vals fl).wgOf w).hw ((s.wgOf w).home i)).readS n = x.val := by
  rw [HWarp.readS, ((s.keeps_afterReturn w i p vals fl).wgs w).s, h.wgOf, Workgroup.hw_returned]
  exact Workgroup.readS_arriveAll h.once hx hd

/-- A result for one thread, when no other settle is over, changes no other thread. -/
theorem Returns.othersStand (hd : ∀ d ∈ p.dests, ∀ n, d ≠ .s n)
    (hr : ∀ v j, ¬(v = w ∧ j = i) → s.restOver v (s.thread v j) = false) (hf : (s.thread w i).failed = []) :
    OthersStand s (s.afterReturn w i p vals fl) w (· = i) := by
  have hret : s.Beside w i (s.modWg w fun g => g.returned i p vals fl) :=
    s.beside_modWg w fun g => g.beside_returned hd i vals fl
  have hall : s.Beside w i (s.modWg w fun g => g.returned i p vals fl).settleAll := by
    refine hret.trans (State.beside_settleAll ?_ ?_ (hret.wg.failed.trans hf) fun v j hv => ?_)
    · exact (Tab.sorted_map _ _).trans h.numbered.1
    · exact State.sorted_modWg (fun g => (g.beside_returned hd i vals fl).sorted) fun q hq => (h.numbered.2.1 q hq).1
    · rw [hret.restOver, hret.thread hv, hr v j hv]
  intro v j hv
  rw [State.afterReturn, State.stands_unblock, hall.thread hv]

end
end
end Sys2Proof.Machine

namespace Sys2Proof.Machine

/-! ## Polls, handlers and code lines (R20, R153, R342) -/

/-! ### Corrected data and counted reads -/

/-- An entry of the log is none of what threads, caches and memory hold. -/
theorem State.log_parts (s : State) (die : Nat) (e : LogEntry) : (s.log die e).mem = s.mem ∧ (s.log die e).wgs = s.wgs ∧
    (s.log die e).cores = s.cores ∧ (s.log die e).reqs = s.reqs ∧ (s.log die e).hb = s.hb := by
  unfold State.log
  split <;> exact ⟨rfl, rfl, rfl, rfl, rfl⟩

theorem State.scrub_parts (s : State) (die pa asid : Nat) (core : Option Nat) : (s.scrub die pa asid core).mem = s.mem ∧
    (s.scrub die pa asid core).wgs = s.wgs ∧ (s.scrub die pa asid core).cores = s.cores ∧
    (s.scrub die pa asid core).reqs = s.reqs ∧ (s.scrub die pa asid core).hb = s.hb := by
  unfold State.scrub
  split
  · exact State.log_parts _ _ _
  · exact ⟨rfl, rfl, rfl, rfl, rfl⟩

theorem State.countAt_parts (s : State) (die pa : Nat) : (s.countAt die pa).mem = s.mem ∧ (s.countAt die pa).wgs = s.wgs ∧
    (s.countAt die pa).cores = s.cores ∧ (s.countAt die pa).hb = s.hb := by
  unfold State.countAt
  split <;> exact ⟨rfl, rfl, rfl, rfl⟩

/-! ### `waddr` (R153) -/

section
variable {s : State} {w i k scope pa : Nat} {va want last v : W64} {acq : Bool}

/-- One thread goes on, or waits on, as `f` says. -/
theorem State.thread_put {u : State} (hu : u.wgs = s.wgs) (f : Thread → Thread) {x : Thread}
    (hx : Tab.find (s.wgOf w).threads i = some x) :
    ∃ b, (u.modWg w (·.modThread i f)).unblock.thread w i = { f x with blocked := b } := by
  have hwg : u.wgOf w = s.wgOf w := by rw [State.wgOf, hu, State.wgOf]
  obtain ⟨b, hb⟩ := (u.modWg w (·.modThread i f)).thread_unblock w i
  refine ⟨b, ?_⟩
  rw [hb, State.thread, State.wgOf_modWg u w _ (by rw [hu, State.find_wgs_of_thread hx]; rfl), hwg,
    Workgroup.thread_modThread _ i f (by rw [hx]; rfl), Workgroup.thread_of_find hx]

theorem State.othersStand_put {u : State} (hu : u.wgs = s.wgs) (f : Thread → Thread) :
    OthersStand s (u.modWg w (·.modThread i f)).unblock w (· = i) := by
  intro v j hv
  have hsame : ∀ v, u.wgOf v = s.wgOf v := fun v => by rw [State.wgOf, hu, State.wgOf]
  rw [State.stands_unblock]
  by_cases hw : v = w
  · subst hw
    have hj : j ≠ i := fun h => hv ⟨rfl, h⟩
    cases hf : Tab.find u.wgs v with
    | none => rw [State.thread, State.modWg_of_absent _ hf, hsame, State.thread]
    | some g =>
      rw [State.thread, State.wgOf_modWg u v _ (by rw [hf]; rfl), Workgroup.thread_modThread_ne _ i j f hj, hsame, State.thread]
  · rw [State.thread, State.wgOf_modWg_ne u w v _ hw, hsame, State.thread]

/-- The read of a `waddr` at its home: it is counted, and what it corrects is logged. -/
def State.pollRead (s : State) (w pa : Nat) : State :=
  (s.countAt (dieOfCore (s.core w)) pa).scrub (s.dieFor pa (dieOfCore (s.core w))) pa (s.wgOf w).ctx.asid (some (s.core w))

theorem State.pollRead_parts (s : State) (w pa : Nat) : (s.pollRead w pa).mem = s.mem ∧ (s.pollRead w pa).wgs = s.wgs ∧
    (s.pollRead w pa).cores = s.cores ∧ (s.pollRead w pa).hb = s.hb := by
  obtain ⟨hm, hw, hc, -, hh⟩ := (s.countAt (dieOfCore (s.core w)) pa).scrub_parts
    (s.dieFor pa (dieOfCore (s.core w))) pa (s.wgOf w).ctx.asid (some (s.core w))
  obtain ⟨hm', hw', hc', hh'⟩ := s.countAt_parts (dieOfCore (s.core w)) pa
  exact ⟨hm.trans hm', hw.trans hw', hc.trans hc', hh.trans hh'⟩

/-- A poll without a stop: the thread passes where the value has come, and waits on otherwise. -/
theorem execWaddrPoll_read (hh : (s.thread w i).hold = .waddr va k want scope acq false last)
    (hs : s.readStops (s.wgOf w) (s.thread w i) va k = none)
    (hv : s.pollValue (s.wgOf w) (s.thread w i) va k = some (pa, v)) : execWaddrPoll w i s =
      .next (if v = want then
          ((if acq ∧ 1 ≤ scope then (s.pollRead w pa).acquire (s.core w) else s.pollRead w pa).modWg w
            (·.modThread i (·.pass))).unblock
        else ((s.pollRead w pa).modWg w
          (·.modThread i fun t => { t with hold := .waddr va k want scope acq false s.hb })).unblock) := by
  have hhb := (s.pollRead_parts w pa).2.2.2
  simp only [State.thread] at hh hs hv
  unfold execWaddrPoll
  simp only [hh, hs, hv, Option.isSome_none, Bool.false_eq_true, if_false]
  by_cases he : v = want
  · rw [if_pos he]
    exact if_pos ⟨he, rfl⟩
  · rw [if_neg he, ← hhb]
    exact if_neg fun h => he h.1

/-- The state after such a poll, in the words of the statement. -/
theorem waddrPoll_goesOn (hx : IsThread s w (fun u => u.hold = .waddr va k want scope acq false last) i)
    (hs : s.readStops (s.wgOf w) (s.thread w i) va k = none)
    (hv : s.pollValue (s.wgOf w) (s.thread w i) va k = some (pa, v)) :
    ∃ t, exec (.waddrPoll w i) s = .next t ∧ t.mem = s.mem ∧ OthersStand s t w (· = i) ∧
      (v = want → (t.thread w i).hold = .ready ∧ (acq = true → 1 ≤ scope → (t.coreOf (s.core w)).acq = s.hb)) ∧
      (v ≠ want → (t.thread w i).hold = .waddr va k want scope acq false s.hb) := by
  obtain ⟨x, hx, hh⟩ := hx
  have hh' : (s.thread w i).hold = .waddr va k want scope acq false last := by rw [State.thread, Workgroup.thread_of_find hx, hh]
  obtain ⟨hm, hw, hc, hhb⟩ := s.pollRead_parts w pa
  refine ⟨_, execWaddrPoll_read hh' hs hv, ?_⟩
  by_cases he : v = want
  · rw [if_pos he]
    have hu : (if acq ∧ 1 ≤ scope then (s.pollRead w pa).acquire (s.core w) else s.pollRead w pa).wgs = s.wgs := by
      split <;> exact hw
    obtain ⟨b, hb⟩ := State.thread_put hu (·.pass) hx
    refine ⟨?_, State.othersStand_put hu _, fun _ => ⟨hb ▸ rfl, fun ha hsc => ?_⟩, fun hne => absurd he hne⟩
    · split <;> exact hm
    · rw [if_pos ⟨ha, hsc⟩]
      show (((s.pollRead w pa).acquire (s.core w)).coreOf (s.core w)).acq = s.hb
      rw [State.acquire, State.coreOf_modCore, if_pos rfl]
      exact hhb
  · rw [if_neg he]
    obtain ⟨b, hb⟩ := State.thread_put hw (fun t => { t with hold := .waddr va k want scope acq false s.hb }) hx
    exact ⟨hm, State.othersStand_put hw _, fun h => absurd h he, fun _ => hb ▸ rfl⟩

end
end Sys2Proof.Machine

namespace Sys2Proof.Machine

/-! ### Handlers are entered (R342) -/

section
variable {s : State} {w set i : Nat} {ts : List Nat}

theorem Thread.enter_iterate (entry : Nat) (t : Thread) {n : Nat} (hn : 0 < n) : (Thread.enter entry)^[n] t = t.enter entry := by
  induction n with
  | zero => exact absurd hn (Nat.lt_irrefl 0)
  | succ m ih =>
    rw [Function.iterate_succ_apply']
    cases m with
    | zero => rfl
    | succ l => rw [ih (Nat.succ_pos l)]; rfl

/-- Some threads of a workgroup enter its handler as one release set. -/
def Workgroup.entered (g : Workgroup) (ts : List Nat) : Workgroup :=
  let k := ts.foldl (fun g t => g.modThread t (Thread.enter g.fhEntry)) g
  { k with relSets := k.relSets ++ [⟨ts, false⟩] }

theorem Workgroup.entered_threads (g : Workgroup) (ts : List Nat) :
    (g.entered ts).threads = (ts.foldl (fun k t => k.modThread t (Thread.enter g.fhEntry)) g).threads := by
  have h : ∀ (us : List Nat) (k : Workgroup), k.fhEntry = g.fhEntry →
      us.foldl (fun g t => g.modThread t (Thread.enter g.fhEntry)) k =
        us.foldl (fun k t => k.modThread t (Thread.enter g.fhEntry)) k := by
    intro us
    induction us with
    | nil => exact fun _ _ => rfl
    | cons u rest ih =>
      intro k hk
      simp only [List.foldl_cons, hk]
      exact ih _ hk
  show (ts.foldl (fun g t => g.modThread t (Thread.enter g.fhEntry)) g).threads = _
  rw [h ts g rfl]

theorem Workgroup.thread_entered {g : Workgroup} (hi : i ∈ ts) (hf : (Tab.find g.threads i).isSome) :
    (g.entered ts).thread i = (g.thread i).enter g.fhEntry := by
  have h := Workgroup.thread_foldl_modThread (Thread.enter g.fhEntry) ts hf
  rw [Thread.enter_iterate _ _ (List.count_pos_iff.mpr hi)] at h
  rw [← h, Workgroup.thread, Workgroup.entered_threads]
  rfl

theorem Workgroup.thread_entered_ne {g : Workgroup} (hi : i ∉ ts) : (g.entered ts).thread i = g.thread i := by
  rw [Workgroup.thread, Workgroup.entered_threads]
  exact Workgroup.thread_foldl_modThread_ne _ hi

/-- Threads that have a handler all enter it. -/
theorem State.enterHandlers_handled (hne : ts ≠ []) (hh : ∀ i ∈ ts, handled (s.wgOf w) ((s.wgOf w).thread i) = true) :
    s.enterHandlers w ts = s.modWg w fun g => g.entered ts := by
  have hins : (ts.filter fun t => handled (s.wgOf w) ((s.wgOf w).thread t)) = ts := List.filter_eq_self.mpr hh
  have houts : (ts.filter fun t => !handled (s.wgOf w) ((s.wgOf w).thread t)) = [] :=
    List.filter_eq_nil_iff.mpr fun t ht => by simp [hh t ht]
  unfold State.enterHandlers
  simp only [hins, houts, List.foldl_nil, if_neg hne]
  rfl

theorem execHandlerEntry_ready (hset : Tab.find (s.wgOf w).trapSets set = some ts) (hne : ts ≠ [])
    (hts : ∀ i ∈ ts, IsThread s w (fun u => u.ended = false ∧ s.idle w u = true ∧ u.priv = false) i) (hf : (s.wgOf w).fhnd ≠ 0) :
    execHandlerEntry w set s = .next (s.modWg w fun g => { g with trapSets := Tab.erase g.trapSets set }.entered ts) := by
  have hready : s.trapSetReady w ts = true := by
    refine List.all_eq_true.mpr fun i hi => ?_
    obtain ⟨u, hu, -, hidle, -⟩ := hts i hi
    rw [Workgroup.thread_of_find hu, hidle]
  have hlive : (ts.filter fun t => !((s.wgOf w).thread t).ended) = ts := by
    refine List.filter_eq_self.mpr fun i hi => ?_
    obtain ⟨u, hu, hlive, -⟩ := hts i hi
    simp [Workgroup.thread_of_find hu, hlive]
  obtain ⟨i, is, hcons⟩ := List.exists_cons_of_ne_nil hne
  obtain ⟨u, hu, -⟩ := hts i (hcons ▸ List.mem_cons_self)
  have hwg : (s.modWg w fun g => { g with trapSets := Tab.erase g.trapSets set }).wgOf w =
      { s.wgOf w with trapSets := Tab.erase (s.wgOf w).trapSets set } :=
    s.wgOf_modWg w _ (by rw [State.find_wgs_of_thread hu]; rfl)
  unfold execHandlerEntry
  simp only [hset, hready, if_true, hlive]
  rw [State.enterHandlers_handled hne, State.modWg_modWg]
  intro i hi
  obtain ⟨u, hu, -, -, hpriv⟩ := hts i hi
  have hthread : { s.wgOf w with trapSets := Tab.erase (s.wgOf w).trapSets set }.thread i = u := Workgroup.thread_of_find hu
  rw [hwg, hthread]
  exact (Bool.and_eq_true _ _).mpr ⟨bne_iff_ne.mpr hf, by rw [hpriv]; rfl⟩

/-- The threads of a settled trap set in the handler, in the words of the statement. -/
theorem handlerEntry_goesOn (hset : Tab.find (s.wgOf w).trapSets set = some ts) (hne : ts ≠ [])
    (hts : ∀ i ∈ ts, IsThread s w (fun u => u.ended = false ∧ s.idle w u = true ∧ u.priv = false) i) (hf : (s.wgOf w).fhnd ≠ 0) :
    ∃ t, exec (.handlerEntry w set) s = .next t ∧ t.mem = s.mem ∧ GoTogether t w (· ∈ ts) false ∧ OthersStand s t w (· ∈ ts) ∧
      ∀ i ∈ ts, (t.thread w i).priv = true ∧ (t.thread w i).pc = ⟨(s.wgOf w).fhEntry, 0⟩ ∧ (t.thread w i).hold = .ready ∧
        (t.thread w i).v = (s.thread w i).v ∧ (t.thread w i).tcause = (s.thread w i).tcause := by
  obtain ⟨i, is, hcons⟩ := List.exists_cons_of_ne_nil hne
  obtain ⟨u, hu, -⟩ := hts i (hcons ▸ List.mem_cons_self)
  have hwg : (s.modWg w fun g => { g with trapSets := Tab.erase g.trapSets set }.entered ts).wgOf w =
      { s.wgOf w with trapSets := Tab.erase (s.wgOf w).trapSets set }.entered ts :=
    s.wgOf_modWg w _ (by rw [State.find_wgs_of_thread hu]; rfl)
  refine ⟨_, execHandlerEntry_ready hset hne hts hf, rfl, ⟨⟨ts, false⟩, ?_, rfl, fun _ hi => hi⟩, fun v j hv => ?_, fun j hj => ?_⟩
  · rw [hwg]
    exact List.mem_append_right _ (List.mem_singleton_self _)
  · by_cases hw : v = w
    · subst hw
      rw [State.thread, hwg, Workgroup.thread_entered_ne fun hj => hv ⟨rfl, hj⟩]
      rfl
    · rw [State.thread, s.wgOf_modWg_ne w v _ hw, State.thread]
  · obtain ⟨x, hx, -⟩ := hts j hj
    rw [State.thread, hwg, Workgroup.thread_entered hj (by rw [hx]; rfl)]
    exact ⟨rfl, rfl, rfl, rfl, rfl⟩

end
end Sys2Proof.Machine

namespace Sys2Proof.Machine

/-! ### A line whose trailer does not match (R20, R342) -/

section
variable {s : State} {g : Workgroup} {w i j : Nat} {ts us : List Nat} {sets : List (List Nat)} {k : Cause}

/-- Threads of one formed warp trap at their group and enter the handler together. -/
def Workgroup.trapEntered (g : Workgroup) (k : Cause) (ts : List Nat) : Workgroup :=
  ((ts.foldl (fun g t => g.modThread t (Thread.trapWhole k)) g).unset ts).entered ts

/-- Threads changed one after another leave what the threads wait for. -/
theorem Workgroup.foldl_modThread_waits (F : Workgroup → Thread → Thread) (g : Workgroup) (ts : List Nat) :
    let l := ts.foldl (fun g t => g.modThread t (F g)) g
    l.core = g.core ∧ l.mxq = g.mxq ∧ l.matrix = g.matrix ∧ l.fhnd = g.fhnd :=
  List.foldlRecOn (motive := fun l : Workgroup => l.core = g.core ∧ l.mxq = g.mxq ∧ l.matrix = g.matrix ∧ l.fhnd = g.fhnd)
    ts _ ⟨rfl, rfl, rfl, rfl⟩ fun _ hl _ _ => hl

theorem Workgroup.trapEntered_waits (g : Workgroup) (k : Cause) (ts : List Nat) : (g.trapEntered k ts).core = g.core ∧
    (g.trapEntered k ts).mxq = g.mxq ∧ (g.trapEntered k ts).matrix = g.matrix ∧ (g.trapEntered k ts).fhnd = g.fhnd := by
  obtain ⟨hc, hq, hm, hf⟩ := Workgroup.foldl_modThread_waits (fun _ => Thread.trapWhole k) g ts
  obtain ⟨hc', hq', hm', hf'⟩ := Workgroup.foldl_modThread_waits (fun g => Thread.enter g.fhEntry)
    ((ts.foldl (fun g t => g.modThread t (Thread.trapWhole k)) g).unset ts) ts
  exact ⟨hc'.trans hc, hq'.trans hq, hm'.trans hm, hf'.trans hf⟩

theorem Workgroup.thread_trapEntered_ne (hj : j ∉ ts) : (g.trapEntered k ts).thread j = g.thread j := by
  rw [Workgroup.trapEntered, Workgroup.thread_entered_ne hj]
  exact Workgroup.thread_foldl_modThread_ne _ hj

theorem Workgroup.find_trapEntered_isSome :
    (Tab.find (g.trapEntered k ts).threads j).isSome = (Tab.find g.threads j).isSome := by
  rw [Workgroup.trapEntered, Workgroup.entered_threads, Workgroup.find_foldl_modThread_isSome]
  exact Workgroup.find_foldl_modThread_isSome _ ts

/-- A thread that traps with a cause and enters its handler holds the cause there. -/
theorem Workgroup.thread_trapEntered (hn : ts.Nodup) (hj : j ∈ ts) (hf : (Tab.find g.threads j).isSome) :
    ((g.trapEntered k ts).thread j).priv = true ∧ ((g.trapEntered k ts).thread j).tcause = BitVec.ofNat 8 k.1 ∧
      ((g.trapEntered k ts).thread j).tval = k.2 := by
  have hf' : (Tab.find ((ts.foldl (fun g t => g.modThread t (Thread.trapWhole k)) g).unset ts).threads j).isSome :=
    (Workgroup.find_foldl_modThread_isSome _ ts).trans hf
  have ht : ((ts.foldl (fun g t => g.modThread t (Thread.trapWhole k)) g).unset ts).thread j = (g.thread j).trapWhole k :=
    Workgroup.thread_foldl_modThread_mem _ hn hj hf
  rw [Workgroup.trapEntered, Workgroup.thread_entered hj hf', ht]
  exact ⟨rfl, rfl, rfl⟩

/-- What an implicit settle of a thread waits for is in its entries and in its workgroup's matrix operations. -/
theorem State.idle_modWg (hw : (Tab.find s.wgs w).isSome) {f : Workgroup → Workgroup} (hc : (f (s.wgOf w)).core = (s.wgOf w).core)
    (hq : (f (s.wgOf w)).mxq = (s.wgOf w).mxq) (hm : (f (s.wgOf w)).matrix = (s.wgOf w).matrix) {x y : Thread}
    (ht : y.tid = x.tid) (hp : y.pend = x.pend) (hwr : y.writes = x.writes) : (s.modWg w f).idle w y = s.idle w x := by
  have hpass : (f (s.wgOf w)).passWaits = (s.wgOf w).passWaits := by
    funext o
    cases o <;> simp [Workgroup.passWaits, hm]
  have hcores : ∀ n, (s.modWg w f).coreOf n = s.coreOf n := fun _ => rfl
  simp only [State.idle, Workgroup.mxBusy, State.storesOut, hcores, State.modWg_reqs, s.wgOf_modWg w f hw, hc, hq, hpass, ht, hp, hwr]

theorem State.find_modWg_isSome (s : State) (w v : Nat) (f : Workgroup → Workgroup) :
    (Tab.find (s.modWg w f).wgs v).isSome = (Tab.find s.wgs v).isSome := by
  rw [State.modWg, Tab.find_modify]
  split <;> simp

theorem State.logSpoilt_of_ne (h : ∀ i ∈ ts, (s.thread w i).tcause ≠ 0x13) : s.logSpoilt w ts = s :=
  (foldl_congr' ts _ (fun t _ => t) s fun _ i hi => if_neg fun hc => h i hi hc.1).trans (List.foldl_fixed ts)

/-- Trapped threads with a handler, whose settles are over and whose cause is not logged, enter it at once. -/
theorem State.takeTraps_handled (hne : ts ≠ []) (hw : (Tab.find s.wgs w).isSome) (hf : (s.wgOf w).fhnd ≠ 0)
    (hts : ∀ i ∈ ts, (s.thread w i).tcause ≠ 0x13 ∧ (s.thread w i).priv = false ∧ s.idle w (s.thread w i) = true) :
    s.takeTraps w ts = s.modWg w fun g => (g.unset ts).entered ts := by
  have hwg : (s.modWg w (·.unset ts)).wgOf w = (s.wgOf w).unset ts := s.wgOf_modWg w _ hw
  have hhand : ∀ i ∈ ts, handled ((s.wgOf w).unset ts) (((s.wgOf w).unset ts).thread i) = true := fun i hi =>
    (Bool.and_eq_true _ _).mpr ⟨bne_iff_ne.mpr hf, congrArg not (hts i hi).2.1⟩
  have hins : (ts.filter fun t => handled ((s.wgOf w).unset ts) (((s.wgOf w).unset ts).thread t)) = ts :=
    List.filter_eq_self.mpr hhand
  have houts : (ts.filter fun t => !handled ((s.wgOf w).unset ts) (((s.wgOf w).unset ts).thread t)) = [] :=
    List.filter_eq_nil_iff.mpr fun t ht => by rw [hhand t ht]; exact Bool.false_ne_true
  have hidle : (ts.all fun t => (s.modWg w (·.unset ts)).idle w (((s.wgOf w).unset ts).thread t)) = true := by
    refine List.all_eq_true.mpr fun i hi => ?_
    exact (State.idle_modWg hw rfl rfl rfl rfl rfl rfl).trans (hts i hi).2.2
  unfold State.takeTraps
  simp only [State.logSpoilt_of_ne fun i hi => (hts i hi).1, hwg, hins, houts, List.foldl_nil, if_neg hne, hidle, if_true]
  rw [State.enterHandlers_handled hne (by rw [hwg]; exact hhand), State.modWg_modWg]

/-- A thread that enters its handler at once when it traps: not in it yet, with nothing to settle. -/
def State.CanTrap (s : State) (w i : Nat) : Prop :=
  IsThread s w (fun u => u.priv = false ∧ s.idle w u = true) i

/-- Such threads trap with a cause that is not logged. -/
theorem State.trapWhole_eq (hne : ts ≠ []) (hn : ts.Nodup) (hts : ∀ i ∈ ts, s.CanTrap w i) (hf : (s.wgOf w).fhnd ≠ 0)
    (hk : BitVec.ofNat 8 k.1 ≠ 0x13) : s.trapWhole w ts k = s.modWg w fun g => g.trapEntered k ts := by
  obtain ⟨i, is, hcons⟩ := List.exists_cons_of_ne_nil hne
  obtain ⟨u, hu, -⟩ := hts i (hcons ▸ List.mem_cons_self)
  have hwgs : (Tab.find s.wgs w).isSome := by rw [State.find_wgs_of_thread hu]; rfl
  have hwg : (s.modWg w fun g => ts.foldl (fun g t => g.modThread t (Thread.trapWhole k)) g).wgOf w =
      ts.foldl (fun g t => g.modThread t (Thread.trapWhole k)) (s.wgOf w) := s.wgOf_modWg w _ hwgs
  obtain ⟨hc, hq, hm, hh⟩ := Workgroup.foldl_modThread_waits (fun _ => Thread.trapWhole k) (s.wgOf w) ts
  have htrap : s.trapWhole w ts k =
      (s.modWg w fun g => ts.foldl (fun g t => g.modThread t (Thread.trapWhole k)) g).takeTraps w ts := by
    unfold State.trapWhole State.trapEach
    rw [if_neg fun h => hne (List.map_eq_nil_iff.mp h), List.map_map]
    simp only [List.foldl_map]
    exact congrArg _ (List.map_id ts)
  rw [htrap, State.takeTraps_handled hne, State.modWg_modWg]
  · rfl
  · exact (State.find_modWg_isSome s w w _).trans hwgs
  · rw [hwg, hh]
    exact hf
  · intro i hi
    obtain ⟨x, hx, hp, hidle⟩ := hts i hi
    rw [State.thread, hwg, Workgroup.thread_foldl_modThread_mem _ hn hi (by rw [hx]; rfl), Workgroup.thread_of_find hx]
    refine ⟨hk, hp, ?_⟩
    exact (State.idle_modWg hwgs hc hq hm rfl rfl rfl).trans hidle

/-- Trapping and entering leaves the others as able to trap as before. -/
theorem State.canTrap_modWg (hw : (Tab.find s.wgs w).isSome) (hj : j ∉ ts) (h : s.CanTrap w j) :
    (s.modWg w fun g => g.trapEntered k ts).CanTrap w j := by
  have hwg : (s.modWg w fun g => g.trapEntered k ts).wgOf w = (s.wgOf w).trapEntered k ts := s.wgOf_modWg w _ hw
  obtain ⟨hc, hq, hm, -⟩ := (s.wgOf w).trapEntered_waits k ts
  obtain ⟨x, hx, hp, hidle⟩ := h
  have hx' : ((s.wgOf w).trapEntered k ts).thread j = x := by
    rw [Workgroup.thread_trapEntered_ne hj, Workgroup.thread_of_find hx]
  have hfound : (Tab.find ((s.wgOf w).trapEntered k ts).threads j).isSome :=
    Workgroup.find_trapEntered_isSome.trans (by rw [hx]; rfl)
  obtain ⟨y, hy⟩ := Option.isSome_iff_exists.mp hfound
  rw [Workgroup.thread_of_find hy] at hx'
  subst hx'
  refine ⟨y, by rw [hwg]; exact hy, hp, ?_⟩
  exact (State.idle_modWg hw hc hq hm rfl rfl rfl).trans hidle

/-- Disjoint sets of threads trap one after another. -/
theorem State.foldl_trapWhole_eq (hw : (Tab.find s.wgs w).isSome) (hf : (s.wgOf w).fhnd ≠ 0) (hk : BitVec.ofNat 8 k.1 ≠ 0x13)
    (hd : sets.Pairwise List.Disjoint) (hs : ∀ ts ∈ sets, ts ≠ [] ∧ ts.Nodup ∧ ∀ i ∈ ts, s.CanTrap w i) :
    sets.foldl (fun s ts => s.trapWhole w ts k) s = s.modWg w fun g => sets.foldl (fun g ts => g.trapEntered k ts) g := by
  induction sets generalizing s with
  | nil => exact (s.modWg_id w).symm
  | cons ts rest ih =>
    obtain ⟨hdis, hd⟩ := List.pairwise_cons.mp hd
    obtain ⟨hne, hn, hts⟩ := hs ts List.mem_cons_self
    have hwg : (s.modWg w fun g => g.trapEntered k ts).wgOf w = (s.wgOf w).trapEntered k ts := s.wgOf_modWg w _ hw
    rw [List.foldl_cons, State.trapWhole_eq hne hn hts hf hk, ih ?_ ?_ hd fun us hus => ?_, State.modWg_modWg]
    · rfl
    · exact (State.find_modWg_isSome s w w _).trans hw
    · rw [hwg, ((s.wgOf w).trapEntered_waits k ts).2.2.2]
      exact hf
    · obtain ⟨hne', hn', hus'⟩ := hs us (List.mem_cons_of_mem _ hus)
      exact ⟨hne', hn', fun i hi => State.canTrap_modWg hw (fun hit => hdis us hus hit hi) (hus' i hi)⟩

/-- Each of them is in the handler afterwards, with the cause. -/
theorem Workgroup.thread_foldl_trapEntered (hd : sets.Pairwise List.Disjoint) (hn : ∀ ts ∈ sets, ts.Nodup)
    (hj : ∃ ts ∈ sets, j ∈ ts) (hf : (Tab.find g.threads j).isSome) :
    let t := (sets.foldl (fun g ts => g.trapEntered k ts) g).thread j
    t.priv = true ∧ t.tcause = BitVec.ofNat 8 k.1 ∧ t.tval = k.2 := by
  induction sets generalizing g with
  | nil => obtain ⟨ts, hts, -⟩ := hj; cases hts
  | cons ts rest ih =>
    obtain ⟨hdis, hd⟩ := List.pairwise_cons.mp hd
    by_cases hjt : j ∈ ts
    · have hrest : (rest.foldl (fun g ts => g.trapEntered k ts) (g.trapEntered k ts)).thread j = (g.trapEntered k ts).thread j :=
        List.foldlRecOn (motive := fun l : Workgroup => l.thread j = (g.trapEntered k ts).thread j) rest _ rfl
          fun l hl us hus => (Workgroup.thread_trapEntered_ne fun hju => hdis us hus hjt hju).trans hl
      rw [List.foldl_cons, hrest]
      exact Workgroup.thread_trapEntered (hn ts List.mem_cons_self) hjt hf
    · obtain ⟨us, hus, hju⟩ := hj
      have hus' : us ∈ rest := (List.mem_cons.mp hus).resolve_left fun h => hjt (h ▸ hju)
      exact ih hd (fun us hus => hn us (List.mem_cons_of_mem _ hus)) ⟨us, hus', hju⟩
        (Workgroup.find_trapEntered_isSome.trans hf)

end
end Sys2Proof.Machine

namespace Sys2Proof.Machine

/-! ### The threads that fetch a line (R19, R20) -/

section
variable {s : State} {g : Workgroup} {w i j line pa : Nat} {ts us : List Nat} {origin : W64}

theorem Workgroup.mem_homeSets : us ∈ g.homeSets ts ↔ ∃ h < 128, ∃ t ∈ ts, g.home t = h ∧
    us = (ts.filter fun t => g.home t = h).filter fun u => (g.thread u).pc = (g.thread t).pc := by
  simp only [Workgroup.homeSets, List.mem_flatMap, List.mem_range, List.mem_map, List.mem_dedup, List.mem_filter,
    decide_eq_true_eq]
  constructor
  · rintro ⟨h, hh, _, ⟨t, ⟨ht, hth⟩, rfl⟩, rfl⟩
    exact ⟨h, hh, t, ht, hth, rfl⟩
  · rintro ⟨h, hh, t, ht, hth, rfl⟩
    exact ⟨h, hh, _, ⟨t, ⟨ht, hth⟩, rfl⟩, rfl⟩

theorem Workgroup.homeSets_subset (h : us ∈ g.homeSets ts) : us.Sublist ts := by
  obtain ⟨_, _, _, _, _, rfl⟩ := Workgroup.mem_homeSets.mp h
  exact List.filter_sublist.trans List.filter_sublist

theorem Workgroup.homeSets_ne_nil (h : us ∈ g.homeSets ts) : us ≠ [] := by
  obtain ⟨n, _, t, ht, hn, rfl⟩ := Workgroup.mem_homeSets.mp h
  exact List.ne_nil_of_mem (a := t) (by simp [ht, hn])

theorem Workgroup.exists_homeSet (hj : j ∈ ts) (h : g.home j < 128) : ∃ us ∈ g.homeSets ts, j ∈ us :=
  ⟨_, Workgroup.mem_homeSets.mpr ⟨_, h, j, hj, rfl, rfl⟩, by simp [hj]⟩

theorem Workgroup.homeSets_disjoint (g : Workgroup) (ts : List Nat) : (g.homeSets ts).Pairwise List.Disjoint := by
  unfold Workgroup.homeSets
  rw [List.pairwise_flatMap]
  constructor
  · intro h _
    refine List.pairwise_map.mpr ((List.nodup_dedup _).imp fun {a b} hab x hx hy => hab ?_)
    exact (of_decide_eq_true (List.mem_filter.mp hx).2).symm.trans (of_decide_eq_true (List.mem_filter.mp hy).2)
  · refine List.nodup_range.imp fun {h k} hhk us hus vs hvs x hx hy => hhk ?_
    obtain ⟨_, _, rfl⟩ := List.mem_map.mp hus
    obtain ⟨_, _, rfl⟩ := List.mem_map.mp hvs
    have hx := of_decide_eq_true (List.mem_filter.mp (List.mem_filter.mp hx).1).2
    have hy := of_decide_eq_true (List.mem_filter.mp (List.mem_filter.mp hy).1).2
    exact hx.symm.trans hy

/-- The ready threads at a packet of a line. -/
def Workgroup.fetching (g : Workgroup) (origin : W64) (line : Nat) : List Nat :=
  (g.threads.filter fun p =>
    !p.2.ended && !p.2.parked && p.2.hold == .ready && g.origin p.2 == origin && lineOf p.2.pc.pkt == line).map Prod.fst

theorem State.mem_fetching (hs : Tab.sorted (s.wgOf w).threads = true) : j ∈ (s.wgOf w).fetching origin line ↔
    IsThread s w (fun u => u.ended = false ∧ u.parked = false ∧ u.hold = .ready ∧ (s.wgOf w).origin u = origin ∧
      u.pc.pkt / 5 = line) j := by
  simp only [Workgroup.fetching, List.mem_map, List.mem_filter, Bool.and_eq_true, Bool.not_eq_true', beq_iff_eq, lineOf, and_assoc]
  constructor
  · rintro ⟨⟨j, u⟩, hm, he, hp, hh, ho, hl, rfl⟩
    exact ⟨u, Tab.find_of_mem hs hm, he, hp, hh, ho, hl⟩
  · rintro ⟨u, hu, he, hp, hh, ho, hl⟩
    exact ⟨(j, u), Tab.mem_of_find _ _ _ hu, he, hp, hh, ho, hl, rfl⟩

theorem State.bytesAt_split (s : State) (pa n k : Nat) : (s.bytesAt pa (n + k)).take n = s.bytesAt pa n ∧
    (s.bytesAt pa (n + k)).drop n = s.bytesAt (pa + n) k := by
  constructor
  · refine List.ext_getElem (by simp [State.bytesAt]) fun m h h' => ?_
    simp [State.bytesAt]
  · refine List.ext_getElem (by simp [State.bytesAt]) fun m h h' => ?_
    simp [State.bytesAt, Nat.add_assoc]

/-- The trailer of a line in memory. -/
theorem State.lineOk_bytesAt (s : State) (pa : Nat) :
    lineOk (s.bytesAt pa 64) = true ↔ s.natAt (pa + 60) 4 = crc32c (s.bytesAt pa 60) := by
  obtain ⟨ht, hd⟩ := s.bytesAt_split pa 60 4
  rw [lineOk, ht, hd, State.natAt, beq_iff_eq]

/-! ### The line is verified (R20) -/

/-- The threads that fetch a line may do so, and it is there: they are not in a handler, their settles are over, the line's
address is translated without effect and its data is good and reachable. -/
structure FetchesLine (s : State) (w : Nat) (origin : W64) (line pa : Nat) : Prop where
  numbered : s.Numbered
  some_ : (s.wgOf w).fetching origin line ≠ []
  fetching : ∀ j ∈ (s.wgOf w).fetching origin line, (s.thread w j).priv = false ∧ s.idle w (s.thread w j) = true
  located : s.locate (s.core w) (s.wgOf w).ctx.asid (s.wgOf w).ctx.root ⟨false, true, false⟩
    (origin + BitVec.ofNat 64 (line * 64)) = (.ok pa, s)
  good : s.isBad pa = false
  reached : (s.pathFrom (s.core w / 64) 0 pa).isSome

/-- The state once the line has been read: what its check data corrects is logged. -/
def State.lineRead (s : State) (w pa : Nat) : State :=
  s.scrub (s.dieFor pa (s.core w / 64)) pa (s.wgOf w).ctx.asid (some (s.core w))

theorem State.wgOf_lineRead (s : State) (w pa v : Nat) : (s.lineRead w pa).wgOf v = s.wgOf v :=
  congrArg (fun m : Tab Workgroup => Tab.get ({} : Workgroup) m v) (s.scrub_parts _ _ _ _).2.1

theorem State.idle_lineRead (s : State) (w pa v : Nat) (x : Thread) : (s.lineRead w pa).idle v x = s.idle v x := by
  obtain ⟨-, -, hcores, hreqs, -⟩ := s.scrub_parts (s.dieFor pa (s.core w / 64)) pa (s.wgOf w).ctx.asid (some (s.core w))
  have hcore : ∀ n, (s.lineRead w pa).coreOf n = s.coreOf n := fun n => congrArg (fun m : Tab Core => Tab.get ({} : Core) m n) hcores
  have hreq : (s.lineRead w pa).reqs = s.reqs := hreqs
  simp only [State.idle, State.storesOut, hcore, hreq, State.wgOf_lineRead]

section
variable (h : FetchesLine s w origin line pa)
include h

theorem FetchesLine.fetchLine {t : Nat} (ht : t ∈ (s.wgOf w).fetching origin line) :
    s.fetchLine (s.wgOf w) ((s.wgOf w).thread t).priv (lineVa origin line) =
      if lineOk (s.bytesAt pa 64) then (.ok (s.bytesAt pa 64), s.lineRead w pa) else (.error 0x08, s.lineRead w pa) := by
  have hpriv : ((s.wgOf w).thread t).priv = false := (h.fetching t ht).1
  have hloc : s.locate (s.wgOf w).core (s.wgOf w).ctx.asid (s.wgOf w).ctx.root { write := false, fetch := true, priv := false }
      (lineVa origin line) = (.ok pa, s) := h.located
  have hpath : (s.pathFrom (dieOfCore (s.wgOf w).core) 0 pa).isNone = false :=
    (Option.not_isSome _).symm.trans (congrArg not h.reached)
  unfold State.fetchLine
  simp only [hpriv, hloc, hpath, h.good]
  rfl

theorem FetchesLine.exec_eq : execFetchCodeLine w origin line s = .next
    (if lineOk (s.bytesAt pa 64) then s.lineRead w pa
      else ((s.wgOf w).homeSets ((s.wgOf w).fetching origin line)).foldl
        (fun s ts => s.trapWhole w ts (0x08, lineVa origin line)) (s.lineRead w pa)) := by
  obtain ⟨t, ts, hts⟩ := List.exists_cons_of_ne_nil h.some_
  have hf := h.fetchLine (t := t) (hts ▸ List.mem_cons_self)
  have hts' := hts
  rw [Workgroup.fetching] at hts'
  unfold execFetchCodeLine
  dsimp only
  rw [hts']
  dsimp only
  rw [hf, hts]
  cases lineOk (s.bytesAt pa 64) <;> rfl

/-- Every thread that fetches a bad line enters its handler with the cause. -/
theorem FetchesLine.traps (hf : (s.wgOf w).fhnd ≠ 0) {t : State}
    (ht : t = ((s.wgOf w).homeSets ((s.wgOf w).fetching origin line)).foldl
      (fun s ts => s.trapWhole w ts (0x08, lineVa origin line)) (s.lineRead w pa)) :
    t.mem = s.mem ∧ ∀ j ∈ (s.wgOf w).fetching origin line,
      (t.thread w j).priv = true ∧ (t.thread w j).tcause = 0x08 ∧ (t.thread w j).tval = lineVa origin line := by
  obtain ⟨hmem, hwgs, -⟩ := s.scrub_parts (s.dieFor pa (s.core w / 64)) pa (s.wgOf w).ctx.asid (some (s.core w))
  have hwg := s.wgOf_lineRead w pa w
  have hsorted := State.sorted_threads h.numbered w
  have hfound : ∀ j ∈ (s.wgOf w).fetching origin line, ∃ u, Tab.find (s.wgOf w).threads j = some u := fun j hj =>
    have ⟨u, hu, _⟩ := (State.mem_fetching hsorted).mp hj
    ⟨u, hu⟩
  obtain ⟨i, is, hcons⟩ := List.exists_cons_of_ne_nil h.some_
  obtain ⟨x, hx⟩ := hfound i (hcons ▸ List.mem_cons_self)
  have hlisted := State.find_wgs_of_thread hx
  have hcan : ∀ j ∈ (s.wgOf w).fetching origin line, (s.lineRead w pa).CanTrap w j := by
    intro j hj
    obtain ⟨u, hu⟩ := hfound j hj
    have hready := h.fetching j hj
    rw [State.thread, Workgroup.thread_of_find hu] at hready
    exact ⟨u, by rw [hwg]; exact hu, hready.1, (s.idle_lineRead w pa w u).trans hready.2⟩
  have hnodup : ((s.wgOf w).fetching origin line).Nodup := (Tab.nodup_keys hsorted).sublist (List.filter_sublist.map _)
  have hhome : ∀ j ∈ (s.wgOf w).fetching origin line, (s.wgOf w).home j < 128 := fun j hj =>
    have ⟨u, hu⟩ := hfound j hj
    ((h.numbered.2.1 (w, s.wgOf w) (Tab.mem_of_find _ _ _ hlisted)).2 (j, u) (Tab.mem_of_find _ _ _ hu)).2
  have hlisted' : (Tab.find (s.lineRead w pa).wgs w).isSome := by rw [State.lineRead, hwgs, hlisted]; rfl
  rw [State.foldl_trapWhole_eq hlisted' (by rw [hwg]; exact hf) (show (0x08 : BitVec 8) ≠ 0x13 by decide)
    (Workgroup.homeSets_disjoint _ _) fun us hus => ⟨Workgroup.homeSets_ne_nil hus, hnodup.sublist (Workgroup.homeSets_subset hus),
      fun j hj => hcan j ((Workgroup.homeSets_subset hus).subset hj)⟩] at ht
  subst ht
  refine ⟨hmem, fun j hj => ?_⟩
  obtain ⟨u, hu⟩ := hfound j hj
  rw [State.thread, State.wgOf_modWg _ w _ hlisted', hwg]
  exact Workgroup.thread_foldl_trapEntered (Workgroup.homeSets_disjoint _ _)
    (fun us hus => hnodup.sublist (Workgroup.homeSets_subset hus)) (Workgroup.exists_homeSet hj (hhome j hj)) (by rw [hu]; rfl)

end

end
end Sys2Proof.Machine

/-- Settles O33: a result arrives in its registers and no settle, trap or arrival after it changes what it left; a poll puts
one thread; trapped threads enter their handler, those of a bad line one set after another. -/
theorem threadsGoOn : Obligations.ThreadsGoOn := by
  refine ⟨fun s w i k p vals fl hn hw hi hk hp hd => ?_, fun s w i va k want scope acq last pa v _ hx hs hv =>
    Sys2Proof.Machine.waddrPoll_goesOn hx hs hv, fun s w set ts _ hset hne hts hf =>
    Sys2Proof.Machine.handlerEntry_goesOn hset hne hts hf, fun s w origin line pa i hn => ?_⟩
  · have h : Sys2Proof.Machine.Returns s w i p vals := ⟨hn, hw, hi, List.mem_of_getElem? hk, hd⟩
    refine ⟨s.afterReturn w i p vals fl, Sys2Proof.Machine.execResultReturn_ready hk hp, Sys2Proof.Machine.State.mem_afterReturn,
      h.pend, h.fflags, h.pc, fun x hx => ?_, fun n => h.readV_ne, fun hds _ hr hf => h.othersStand hds hr hf⟩
    split
    next n he => exact h.readV hx he
    next n he => exact fun h0 h48 => h.readP hx he h0 h48
    next n he => exact h.readS hx he
  · intro here hi hall hf va hloc hgood hpath
    have hmem : ∀ j, j ∈ (s.wgOf w).fetching origin line ↔ here j := fun j =>
      Sys2Proof.Machine.State.mem_fetching (Sys2Proof.Machine.State.sorted_threads hn w)
    have h : Sys2Proof.Machine.FetchesLine s w origin line pa := ⟨hn, List.ne_nil_of_mem ((hmem i).mpr hi),
      fun j hj => hall j ((hmem j).mp hj), hloc, hgood, hpath⟩
    have hexec := h.exec_eq
    refine ⟨fun hok => ?_, fun hbad => ⟨_, hexec, ?_⟩⟩
    · rw [if_pos ((s.lineOk_bytesAt pa).mpr hok)] at hexec
      exact hexec
    · obtain ⟨hm, ht⟩ := h.traps hf rfl
      rw [if_neg fun hok => hbad ((s.lineOk_bytesAt pa).mp hok)]
      exact ⟨hm, fun j hj => ht j ((hmem j).mpr hj)⟩

namespace Sys2Proof.Machine

/-! ## Dot products, compares and conversions (R66, R120 to R122) -/

/-- Rows whose instructions compute lane by lane, each with the function of its row. -/
theorem computes_of_lanewise {rows : List VRow} (h : ∀ r ∈ rows, ∀ x s, exec (r.instr x) s = lanewise r.op r.fn x s) :
    Computes rows :=
  fun r hr x _ _ s hi hc => (h r hr x s).trans (lanewise_noChannel hi hc r.fn)

/-! ### The elements of a register -/

theorem half_zero (w : W32) : half w 0 = w.toNat % 2 ^ 16 := rfl

theorem half_one (w : W32) : half w 1 = w.toNat / 2 ^ 16 := by
  have := w.isLt
  simp only [half, bitsNat, Nat.shiftRight_eq_div_pow]
  omega

/-! ### The order of two values, and the compares -/

theorem FVal.cmp_cases (a b : FVal) : a.cmp b = -1 ∨ a.cmp b = 0 ∨ a.cmp b = 1 := by
  fun_cases FVal.cmp a b <;> simp

theorem FVal.cmp_beq_neg_one (a b : FVal) : (a.cmp b == -1) = decide (a.cmp b < 0) := by
  rcases a.cmp_cases b with h | h | h <;> rw [h] <;> rfl

theorem FVal.cmp_bne_one (a b : FVal) : (a.cmp b != 1) = decide (a.cmp b ≤ 0) := by
  rcases a.cmp_cases b with h | h | h <;> rw [h] <;> rfl

theorem oPred_eq_resP (b : Bool) : oPred b = resP b := by
  cases b <;> rfl

/-- R121: the relation that a condition asks of two values. -/
def FCond.rel : FCond → FVal → FVal → Bool
  | .eq, a, b => !unordered a b && a.cmp b == 0
  | .ne, a, b => unordered a b || a.cmp b != 0
  | .lt, a, b => !unordered a b && decide (a.cmp b < 0)
  | .le, a, b => !unordered a b && decide (a.cmp b ≤ 0)
  | .un, a, b => unordered a b
  | .ord, a, b => !unordered a b

/-- R121: the conditions for which a quiet NaN is no invalid operation. -/
def FCond.quiet : FCond → Bool
  | .lt | .le => false
  | _ => true

theorem fcmp_eq_fcompare (k : FCond) : fcmp k = fcompare k.quiet k.rel := by
  funext i
  cases k with
  | lt => simp only [fcmp, FVal.cmp_beq_neg_one, oPred_eq_resP]; rfl
  | le => simp only [fcmp, FVal.cmp_bne_one, oPred_eq_resP]; rfl
  | eq | ne | un | ord => simp only [fcmp, oPred_eq_resP]; rfl

/-! ### Dot products and conversions -/

theorem opDot2_eq_dot2Of (f : FloatFmt) : opDot2 f = dot2Of f := by
  funext i
  simp only [opDot2, half_zero, half_one]
  rfl

theorem opCvt2_eq_packOf (f : FloatFmt) : opCvt2 f = packOf f := by
  funext i
  simp only [opCvt2, Nat.mul_comm _ (2 ^ 16)]
  rfl

/-- Each row's function is the one its instruction computes in a lane. -/
theorem exec_floatOtherRows : ∀ r ∈ floatOtherRows, ∀ x s, exec (r.instr x) s = lanewise r.op r.fn x s := by
  intro r hr x s
  simp only [floatOtherRows, List.mem_cons, List.not_mem_nil, or_false] at hr
  rcases hr with rfl | rfl | rfl | rfl | rfl | rfl | rfl | rfl | rfl | rfl | rfl | rfl | hr
  -- R120: the dot products
  iterate 2 · exact congrArg (lanewise _ · x s) (opDot2_eq_dot2Of _)
  -- R121: the compares
  · exact congrArg (lanewise _ · x s) (fcmp_eq_fcompare .eq)
  · exact congrArg (lanewise _ · x s) (fcmp_eq_fcompare .ne)
  · exact congrArg (lanewise _ · x s) (fcmp_eq_fcompare .lt)
  · exact congrArg (lanewise _ · x s) (fcmp_eq_fcompare .le)
  · exact congrArg (lanewise _ · x s) (fcmp_eq_fcompare .un)
  · exact congrArg (lanewise _ · x s) (fcmp_eq_fcompare .ord)
  -- R122: widening, then narrowing two values into one register
  iterate 2 · rfl
  iterate 2 · exact congrArg (lanewise _ · x s) (opCvt2_eq_packOf _)
  -- R66: to and from integers
  · rcases hr with rfl | rfl | rfl | rfl | rfl | rfl | rfl | rfl <;> rfl

end Sys2Proof.Machine

/-- Settles O6: each row's instruction computes lane by lane, and what it computes is the row's function of the operands. -/
theorem floatConversionResults : Obligations.FloatConversionResults :=
  Sys2Proof.Machine.computes_of_lanewise Sys2Proof.Machine.exec_floatOtherRows

namespace Sys2Proof.Machine

/-! ## Effects of lanes and of home warps, one after another -/

/-- Changes of one workgroup, one after another, are one change of it. -/
theorem State.foldl_modWg {α : Type} (l : List α) (w : Nat) (f : α → Workgroup → Workgroup) (s : State) :
    l.foldl (fun s a => s.modWg w (f a)) s = s.modWg w fun g => l.foldl (fun g a => f a g) g := by
  induction l generalizing s with
  | nil => exact (s.modWg_id w).symm
  | cons a rest ih => rw [List.foldl_cons, ih, State.modWg_modWg]; rfl

/-- The threads of some lanes, each once, changed and then changed again. -/
theorem foldl_modThread_comp {ls : List Lane} (hn : (ls.map (·.tid)).Nodup) (u v : Lane → Thread → Thread) (g : Workgroup) :
    ls.foldl (fun g l => g.modThread l.tid (v l)) (ls.foldl (fun g l => g.modThread l.tid (u l)) g) =
      ls.foldl (fun g l => g.modThread l.tid fun t => v l (u l t)) g := by
  simp only [foldl_modThread _ _ _ hn, Tab.map_map]
  congr 1
  refine Tab.map_congr _ _ _ fun tid t => ?_
  cases ls.find? (fun l => l.tid = tid) <;> rfl

/-- The threads of some of the lanes change. -/
theorem foldl_modThread_filter (p : Lane → Bool) (u : Lane → Thread → Thread) (ls : List Lane) (g : Workgroup) :
    (ls.filter p).foldl (fun g l => g.modThread l.tid (u l)) g =
      ls.foldl (fun g l => g.modThread l.tid fun t => if p l then u l t else t) g := by
  rw [List.foldl_filter]
  refine foldl_congr' _ _ _ _ fun g l _ => ?_
  split
  · rfl
  · exact (g.modThread_id l.tid).symm

/-- A unit's traps are changes of its threads, one after another. -/
theorem trapUnit_eq_foldl (c : Cur) (cause : List Lane → Lane → Option Cause) (u : List Lane) (g : Workgroup) :
    trapUnit c cause u g = u.foldl (fun g l => g.modThread l.tid (causeTrap c (unitCause cause u l))) g := by
  refine foldl_congr' _ _ _ _ fun g l _ => ?_
  show (match unitCause cause u l with | some k => g.trapLane c l.tid k | none => g) = _
  cases unitCause cause u l with
  | some k => rfl
  | none => exact (g.modThread_id l.tid).symm

section
variable {op : Nat} {x : Args} {sg : Sig} {c : Cur} {s : State}

/-- The lanes of the group, home warp after home warp, change their threads each by itself. -/
theorem byHome_lanesBecome (h : Issuing op x sg c s) (u : Lane → Thread → Thread) :
    (s.modWg c.wg fun g => (byHome (lanesOf s c x.ctl.pfx)).foldl
      (fun g ls => ls.foldl (fun g l => g.modThread l.tid (u l)) g) g) =
      s.lanesBecome c.wg (lanesOf s c x.ctl.pfx) fun _ => u := by
  have hn : ((lanesOf s c x.ctl.pfx).map (·.tid)).Nodup := by rw [lanesOf_tids]; exact h.once
  refine State.modWg_congr _ _ _ _ fun g => ?_
  rw [← List.foldl_flatten, foldl_modThread _ _ _ (byHome_nodup _ hn)]
  congr 1
  refine Tab.map_congr _ _ _ fun tid t => ?_
  exact congrArg (fun o : Option Lane => match o with | some l => u l t | none => t)
    (find_perm _ _ (byHome_nodup _ hn) (byHome_flatten _ (lanesOf_hw h _)) tid)

/-- In a home warp whose active lanes meet no cause, an active lane meets none; in another, each of them does. -/
theorem homeCause_isNone {l : Lane} (hl : l ∈ actives s c x) :
    (homeCause s op sg x c l).isNone = ((lowest s c x l.hw).isSome && homeRuns s op sg x c l.hw) := by
  obtain ⟨hm, ha⟩ := List.mem_filter.mp hl
  have hla : l ∈ homeActives s c x l.hw := List.mem_filter.mpr ⟨hl, by simp⟩
  rw [← unitRuns_home, unitRuns, filter_home_act, homeCause, if_pos ha, sharedCause]
  cases (homeActives s c x l.hw).findSome? (formCause (c.source s) op sg x 0 c) <;>
    simp [List.ne_nil_of_mem hla]

/-- What a lane becomes under an instruction executed once for each home warp: trapped for the cause of its home warp or its own;
active, changed by the instruction. -/
def homeBecomes (s : State) (op : Nat) (sg : Sig) (x : Args) (c : Cur) (u : Lane → Thread → Thread) (l : Lane) (t : Thread) :
    Thread :=
  match homeCause s op sg x c l with
  | some k => t.trap c.pc.pkt c.slot k
  | none => if l.act then u l t else t

/-- A home warp's unit: its lanes take their causes; where it runs, its active lanes change their threads. -/
theorem unit_homeBecomes (h : Issuing op x sg c s) (u : Lane → Thread → Thread) (k : Nat) (g : Workgroup) :
    (let ls := (lanesOf s c x.ctl.pfx).filter (·.hw = k)
     let g' := trapUnit c (fun _ => formCause (c.source s) op sg x 0 c) ls g
     if unitRuns (fun _ => formCause (c.source s) op sg x 0 c) ls then
       (ls.filter (·.act)).foldl (fun g l => g.modThread l.tid (u l)) g' else g') =
      ((lanesOf s c x.ctl.pfx).filter (·.hw = k)).foldl (fun g l => g.modThread l.tid (homeBecomes s op sg x c u l)) g := by
  have hn : (((lanesOf s c x.ctl.pfx).filter (·.hw = k)).map (·.tid)).Nodup := by
    refine List.Nodup.sublist (List.filter_sublist.map _) ?_
    rw [lanesOf_tids]
    exact h.once
  have hact : ∀ l ∈ (lanesOf s c x.ctl.pfx).filter (·.hw = k), l.act = true → (homeCause s op sg x c l).isNone =
      unitRuns (fun _ => formCause (c.source s) op sg x 0 c) ((lanesOf s c x.ctl.pfx).filter (·.hw = k)) := by
    intro l hl ha
    obtain ⟨hm, hk⟩ := List.mem_filter.mp hl
    rw [unitRuns_home, homeCause_isNone (List.mem_filter.mpr ⟨hm, ha⟩), of_decide_eq_true hk]
  have hown : ∀ l ∈ (lanesOf s c x.ctl.pfx).filter (·.hw = k), unitCause (fun _ => formCause (c.source s) op sg x 0 c)
      ((lanesOf s c x.ctl.pfx).filter (·.hw = k)) l = homeCause s op sg x c l := fun l hl =>
    unitCause_home s l k (of_decide_eq_true (List.mem_filter.mp hl).2)
  dsimp only
  rw [trapUnit_eq_foldl, foldl_modThread_filter, foldl_modThread_comp hn]
  split
  · next hr =>
    refine foldl_congr' _ _ _ _ fun g l hl => congrArg _ (funext fun t => ?_)
    rw [hown l hl, homeBecomes]
    cases hk : homeCause s op sg x c l with
    | none => rfl
    | some e => cases ha : l.act with
      | false => rfl
      | true => exact absurd (hact l hl ha) (by simp [hk, hr])
  · next hr =>
    refine foldl_congr' _ _ _ _ fun g l hl => congrArg _ (funext fun t => ?_)
    rw [hown l hl, homeBecomes]
    cases hk : homeCause s op sg x c l with
    | some e => rfl
    | none => cases ha : l.act with
      | false => rfl
      | true => exact absurd (hact l hl ha) (by simp [hk, hr])

/-- An instruction executed once for each home warp that changes its active threads, each by itself. -/
theorem perHome_lanesBecome (h : Issuing op x sg c s) {eff : Sig → Cur → List Lane → State → State} (u : Lane → Thread → Thread)
    (heff : ∀ act s', eff sg c act s' = s'.modWg c.wg fun g => act.foldl (fun g l => g.modThread l.tid (u l)) g) :
    perHome op noCause eff x s =
      .next (s.lanesBecome c.wg (lanesOf s c x.ctl.pfx) fun _ => homeBecomes s op sg x c u) := by
  have hcause : ∀ (s' : State) (act : List Lane) (l : Lane),
      scalarCause (c.source s) op sg x c (noCause s' c sg) act l (noIll.at_ s' c sg x l) = formCause (c.source s) op sg x 0 c l := by
    intro s' act l
    cases hf : formCause (c.source s) op sg x 0 c l <;> simp [scalarCause, noCause, noIll_at, hf]
  have howed : ∀ (k : Option Cause) (l : Lane), orOwed false k l = k := by
    intro k l
    cases k <;> rfl
  unfold perHome
  rw [issue_eq h]
  congr 1
  simp only [hcause, howed, Bool.false_and]
  rw [shared_modWg s c _ (fun _ => formCause (c.source s) op sg x 0 c) _
    (fun act g => act.foldl (fun g l => g.modThread l.tid (u l)) g) fun s' ls _ => heff _ s', ← byHome_lanesBecome h]
  refine State.modWg_congr _ _ _ _ fun g => ?_
  rw [byHome, List.foldl_map, List.foldl_map]
  exact foldl_congr' _ _ _ _ fun g k _ => unit_homeBecomes h u k g

end

theorem State.modWg_eq_self {s : State} {w : Nat} {f : Workgroup → Workgroup} (h : ∀ g, f g = g) : s.modWg w f = s :=
  (State.modWg_congr s w f (fun g => g) h).trans (s.modWg_id w)

/-- Two ways of going on agree where what they keep, `I`, holds. -/
theorem foldl_congr_of_keeps {α β : Type} (I : β → Prop) {f f' : β → α → β} (l : List α) {b : β} (hb : I b)
    (h : ∀ a ∈ l, ∀ b, I b → f b a = f' b a ∧ I (f' b a)) : l.foldl f b = l.foldl f' b := by
  induction l generalizing b with
  | nil => rfl
  | cons a rest ih =>
    obtain ⟨he, hk⟩ := h a List.mem_cons_self b hb
    rw [List.foldl_cons, List.foldl_cons, he]
    exact ih hk fun a ha => h a (List.mem_cons_of_mem _ ha)

/-- A unit no lane of which meets a cause or owes a trap, looked at without installing anything: with an active lane it has its
effect. -/
theorem State.shared_one {s : State} {c : Cur} {u : List Lane} {cause : State → List Lane → Lane → Option Cause}
    {eff prep : State → List Lane → State} {owes : State → List Lane → Lane → Bool}
    (hcause : ∀ l ∈ u, cause s (u.filter (·.act)) l = none) (hprep : prep s (u.filter (·.act)) = s)
    (howes : u.filter (owes s (u.filter (·.act))) = []) :
    s.shared c [u] cause eff prep owes = if u.filter (·.act) = [] then s else eff s (u.filter (·.act)) := by
  have hnone : (u.filter (·.act)).findSome? (cause s (u.filter (·.act))) = none :=
    List.findSome?_eq_none_iff.mpr fun l hl => hcause l (List.mem_filter.mp hl).1
  unfold State.shared
  rw [List.foldl_cons, List.foldl_nil]
  dsimp only
  rw [hprep, howes, hnone, if_pos rfl, State.modWg_eq_self]
  · simp
  · intro g
    refine Eq.trans (foldl_congr' _ _ (fun g _ => g) _ fun g l hl => ?_) (List.foldl_fixed u)
    simp [sharedCause, hnone, hcause l hl]

/-- Units no lane of which meets a cause or owes a trap, looked at without installing anything, in states that keep `I`: each with
an active lane has its effect. -/
theorem State.shared_eq_foldl {s : State} {c : Cur} {units : List (List Lane)} {cause : State → List Lane → Lane → Option Cause}
    {eff prep : State → List Lane → State} {owes : State → List Lane → Lane → Bool} (I : State → Prop) (hs : I s)
    (hcause : ∀ u ∈ units, ∀ s', I s' → ∀ l ∈ u, cause s' (u.filter (·.act)) l = none)
    (hprep : ∀ u ∈ units, ∀ s', I s' → prep s' (u.filter (·.act)) = s')
    (howes : ∀ u ∈ units, ∀ s', I s' → u.filter (owes s' (u.filter (·.act))) = [])
    (heff : ∀ u ∈ units, ∀ s', I s' → I (eff s' (u.filter (·.act)))) :
    s.shared c units cause eff prep owes =
      units.foldl (fun s u => if u.filter (·.act) = [] then s else eff s (u.filter (·.act))) s := by
  refine foldl_congr_of_keeps I units hs fun u hu s' hs' => ⟨?_, ?_⟩
  · exact State.shared_one (hcause u hu s' hs') (hprep u hu s' hs') (howes u hu s' hs')
  · split
    · exact hs'
    · exact heff u hu s' hs'

end Sys2Proof.Machine

namespace Sys2Proof.Machine

/-! ## Scalar arithmetic and compares (R79, R80) -/

/-! ### The operations in exact integer arithmetic -/

section
variable {n : Nat} (a b : BitVec n)

theorem add_eq_ofInt : a + b = BitVec.ofInt n (a.toInt + b.toInt) := by
  rw [BitVec.ofInt_add, BitVec.ofInt_toInt, BitVec.ofInt_toInt]

theorem sub_eq_ofInt : a - b = BitVec.ofInt n (a.toInt - b.toInt) := by
  rw [Int.sub_eq_add_neg, BitVec.ofInt_add, BitVec.ofInt_neg, BitVec.ofInt_toInt, BitVec.ofInt_toInt, BitVec.sub_eq_add_neg]

theorem mul_eq_ofInt : a * b = BitVec.ofInt n (a.toInt * b.toInt) := by
  rw [BitVec.ofInt_mul, BitVec.ofInt_toInt, BitVec.ofInt_toInt]

theorem mulhS_eq_ofInt : mulhS a b = BitVec.ofInt n (a.toInt * b.toInt / 2 ^ n) := by
  rw [mulhS, Int.shiftRight_eq_div_pow, Int.natCast_pow]
  rfl

theorem mulhN_eq_ofInt : mulhN a b = BitVec.ofInt n ((a.toNat * b.toNat : Int) / 2 ^ n) := by
  rw [mulhN, Nat.shiftRight_eq_div_pow, ← BitVec.ofInt_natCast]
  simp

theorem toInt_eq_zero_iff : b.toInt = 0 ↔ b = 0 := by
  rw [← BitVec.toInt_inj]
  simp

theorem toNat_eq_zero_iff : b.toNat = 0 ↔ b = 0 := by
  rw [← BitVec.toNat_inj]
  simp

theorem divS_eq_ofInt : divS a b = BitVec.ofInt n (quotS a.toInt b.toInt) := by
  simp only [divS, quotS, toInt_eq_zero_iff]
  split
  · rw [BitVec.ofInt_neg, BitVec.ofInt_ofNat, BitVec.neg_one_eq_allOnes]
  · exact BitVec.eq_of_toInt_eq (by rw [BitVec.toInt_sdiv, BitVec.toInt_ofInt])

theorem remS_eq_ofInt : remS a b = BitVec.ofInt n (restS a.toInt b.toInt) := by
  simp only [remS, restS, toInt_eq_zero_iff]
  split
  · rw [BitVec.ofInt_toInt]
  · rw [← BitVec.toInt_srem, BitVec.ofInt_toInt]

theorem divN_eq_ofInt : divN a b = BitVec.ofInt n (quotN n a.toNat b.toNat) := by
  simp only [divN, quotN, toNat_eq_zero_iff]
  split
  · have h : (2 ^ n - 1 : Int) = (2 ^ n - 1 : Nat) := by simp
    rw [h, BitVec.ofInt_natCast]
    exact BitVec.eq_of_toNat_eq (by simp)
  · rw [BitVec.ofInt_natCast, ← BitVec.toNat_udiv, BitVec.ofNat_toNat, BitVec.setWidth_eq]

theorem remN_eq_ofInt : remN a b = BitVec.ofInt n (restN a.toNat b.toNat) := by
  simp only [remN, restN, toNat_eq_zero_iff]
  split
  · rw [BitVec.ofInt_natCast, BitVec.ofNat_toNat, BitVec.setWidth_eq]
  · rw [BitVec.ofInt_natCast, ← BitVec.toNat_umod, BitVec.ofNat_toNat, BitVec.setWidth_eq]

theorem minS_eq_ofInt : minS a b = BitVec.ofInt n (min a.toInt b.toInt) := by
  simp only [minS, BitVec.slt_eq_decide, decide_eq_true_eq]
  split
  · rw [min_eq_left (by omega), BitVec.ofInt_toInt]
  · rw [min_eq_right (by omega), BitVec.ofInt_toInt]

theorem maxS_eq_ofInt : maxS a b = BitVec.ofInt n (max a.toInt b.toInt) := by
  simp only [maxS, BitVec.slt_eq_decide, decide_eq_true_eq]
  split
  · rw [max_eq_right (by omega), BitVec.ofInt_toInt]
  · rw [max_eq_left (by omega), BitVec.ofInt_toInt]

theorem minN_eq_ofInt : minN a b = BitVec.ofInt n (min a.toNat b.toNat : Nat) := by
  simp only [minN, BitVec.ult_eq_decide, decide_eq_true_eq, BitVec.ofInt_natCast]
  split
  · rw [min_eq_left (by omega), BitVec.ofNat_toNat, BitVec.setWidth_eq]
  · rw [min_eq_right (by omega), BitVec.ofNat_toNat, BitVec.setWidth_eq]

theorem maxN_eq_ofInt : maxN a b = BitVec.ofInt n (max a.toNat b.toNat : Nat) := by
  simp only [maxN, BitVec.ult_eq_decide, decide_eq_true_eq, BitVec.ofInt_natCast]
  split
  · rw [max_eq_right (by omega), BitVec.ofNat_toNat, BitVec.setWidth_eq]
  · rw [max_eq_left (by omega), BitVec.ofNat_toNat, BitVec.setWidth_eq]

end

/-! ### The operations bit by bit -/

section
variable (a b : W64)

theorem eq_bits64 {f : Nat → Bool} (h : ∀ k < 64, a.getLsbD k = f k) : a = bits64 f :=
  BitVec.eq_of_getLsbD_eq fun k hk => (h k hk).trans (getLsbD_bits64 f k hk).symm

theorem cnt6_eq : cnt6 b = b.toNat % 64 := by
  simp [cnt6, bitsNat]

theorem and_eq_bits64 : a &&& b = bits64 fun k => a.getLsbD k && b.getLsbD k := eq_bits64 _ fun _ _ => by simp
theorem or_eq_bits64 : a ||| b = bits64 fun k => a.getLsbD k || b.getLsbD k := eq_bits64 _ fun _ _ => by simp
theorem xor_eq_bits64 : a ^^^ b = bits64 fun k => a.getLsbD k != b.getLsbD k := eq_bits64 _ fun _ _ => by simp

theorem shl64_eq_bits64 : shl64 a b = bits64 fun k => decide (b.toNat % 64 ≤ k) && a.getLsbD (k - b.toNat % 64) := by
  refine eq_bits64 _ fun k hk => ?_
  have h : (!decide (k < b.toNat % 64)) = decide (b.toNat % 64 ≤ k) := by simp only [← decide_not, not_lt]
  rw [shl64, cnt6_eq, BitVec.getLsbD_shiftLeft, h, decide_eq_true hk, Bool.true_and]

theorem shr64_eq_bits64 : shr64 a b = bits64 fun k => a.getLsbD (k + b.toNat % 64) := by
  refine eq_bits64 _ fun k hk => ?_
  simp [shr64, cnt6_eq, Nat.add_comm]

theorem sra64_eq_bits64 : sra64 a b = bits64 fun k => a.getLsbD (min (k + b.toNat % 64) 63) := by
  refine eq_bits64 _ fun k hk => ?_
  rw [sra64, BitVec.getLsbD_sshiftRight, cnt6_eq, Nat.add_comm (b.toNat % 64) k]
  by_cases h : k + b.toNat % 64 < 64
  · rw [min_eq_left (by omega)]
    simp [h, hk]
  · rw [min_eq_right (by omega)]
    simp [h, hk, BitVec.msb_eq_getLsbD_last]

end

/-! ### The instructions -/

theorem scalarOp_congr {op : Nat} {f f' : W64 → W64 → W64} (h : ∀ a b, f a b = f' a b) (x : Args) (s : State) :
    scalarOp op f x s = scalarOp op f' x s :=
  congrArg (scalarOp op · x s) (funext₂ h)

/-- Each row's function is the one its instruction computes from the operands. -/
theorem exec_scalarRows : ∀ r ∈ scalarRows, ∀ x s, exec (r.instr x) s = scalarOp r.op r.fn x s := by
  intro r hr x s
  simp only [scalarRows, List.mem_cons, List.not_mem_nil, or_false] at hr
  rcases hr with rfl | rfl | rfl | rfl | rfl | rfl | rfl | rfl | rfl | rfl | rfl | rfl | rfl | rfl | rfl | rfl | rfl | rfl |
    rfl | rfl | rfl | rfl | rfl | rfl | rfl | rfl | rfl | rfl
  · exact scalarOp_congr add_eq_ofInt x s
  · exact scalarOp_congr sub_eq_ofInt x s
  · exact scalarOp_congr mul_eq_ofInt x s
  · exact scalarOp_congr mulhS_eq_ofInt x s
  · exact scalarOp_congr mulhN_eq_ofInt x s
  · exact scalarOp_congr divS_eq_ofInt x s
  · exact scalarOp_congr divN_eq_ofInt x s
  · exact scalarOp_congr remS_eq_ofInt x s
  · exact scalarOp_congr remN_eq_ofInt x s
  · exact scalarOp_congr and_eq_bits64 x s
  · exact scalarOp_congr or_eq_bits64 x s
  · exact scalarOp_congr xor_eq_bits64 x s
  · exact scalarOp_congr shl64_eq_bits64 x s
  · exact scalarOp_congr shr64_eq_bits64 x s
  · exact scalarOp_congr sra64_eq_bits64 x s
  · exact scalarOp_congr minS_eq_ofInt x s
  · exact scalarOp_congr minN_eq_ofInt x s
  · exact scalarOp_congr maxS_eq_ofInt x s
  · exact scalarOp_congr maxN_eq_ofInt x s
  · rfl
  -- the same with an immediate
  · exact scalarOp_congr add_eq_ofInt x s
  · exact scalarOp_congr and_eq_bits64 x s
  · exact scalarOp_congr or_eq_bits64 x s
  · exact scalarOp_congr xor_eq_bits64 x s
  · exact scalarOp_congr shl64_eq_bits64 x s
  · exact scalarOp_congr shr64_eq_bits64 x s
  · exact scalarOp_congr sra64_eq_bits64 x s
  · rfl

/-- An instruction that is a result of its home warps. -/
theorem homesReceive_of_scalarResult {op : Nat} {i : Args → Instr} {val : Sig → Args → Lane → W64}
    (h : ∀ x s, exec (i x) s = scalarResult op (fun sg l => val sg x l) x s) : HomesReceive op i val := by
  intro x sg c s hi
  rw [h x s]
  exact scalarResult_eq hi _

theorem scalarResults : Says.ScalarResults :=
  ⟨fun r hr => homesReceive_of_scalarResult fun x s => exec_scalarRows r hr x s,
    homesReceive_of_scalarResult fun _ _ => rfl, homesReceive_of_scalarResult fun _ _ => rfl⟩

theorem beq_iff_toNat_eq (a b : W64) : (a == b) = true ↔ a.toNat = b.toNat := by
  rw [beq_iff_eq, BitVec.toNat_inj]

theorem bne_iff_toNat_ne (a b : W64) : (a != b) = true ↔ a.toNat ≠ b.toNat := by
  rw [bne_iff_ne, Ne, Ne, BitVec.toNat_inj]

/-- Each compare's relation is the one its instruction decides. -/
theorem exec_scalarCompareRows : ∀ r ∈ scalarCompareRows, ∃ f : W64 → W64 → Bool, (∀ a b, f a b = true ↔ r.rel a b) ∧
    ∀ x s, exec (r.instr x) s = scalarCmp r.op f x s := by
  intro r hr
  simp only [scalarCompareRows, List.mem_cons, List.not_mem_nil, or_false] at hr
  rcases hr with rfl | rfl | rfl | rfl | rfl | rfl | rfl | rfl | rfl | rfl
  · exact ⟨_, beq_iff_toNat_eq, fun _ _ => rfl⟩
  · exact ⟨_, bne_iff_toNat_ne, fun _ _ => rfl⟩
  · exact ⟨_, fun _ _ => BitVec.slt_iff_toInt_lt, fun _ _ => rfl⟩
  · exact ⟨_, fun _ _ => BitVec.sle_iff_toInt_le, fun _ _ => rfl⟩
  · exact ⟨_, fun _ _ => BitVec.ult_iff_lt, fun _ _ => rfl⟩
  · exact ⟨_, fun _ _ => BitVec.ule_iff_le, fun _ _ => rfl⟩
  -- the same with an immediate
  · exact ⟨_, beq_iff_toNat_eq, fun _ _ => rfl⟩
  · exact ⟨_, bne_iff_toNat_ne, fun _ _ => rfl⟩
  · exact ⟨_, fun _ _ => BitVec.slt_iff_toInt_lt, fun _ _ => rfl⟩
  · exact ⟨_, fun _ _ => BitVec.ult_iff_lt, fun _ _ => rfl⟩

theorem scalarCompares : Says.ScalarCompares := by
  intro r hr x sg c s h P hP
  obtain ⟨f, hf, he⟩ := exec_scalarCompareRows r hr
  have hPf : P = fun l => f (operand r.op sg x l .a) (operand r.op sg x l .b) :=
    funext fun l => Bool.eq_iff_iff.mpr ((hP l).trans (hf _ _).symm)
  rw [he, scalarCmp, hPf]
  exact perHome_lanesBecome h (fun l t => t.writeP x.d.toNat (f (operand r.op sg x l .a) (operand r.op sg x l .b)))
    fun _ _ => rfl

end Sys2Proof.Machine

/-- Settles O10: each row's function is its instruction's, whose result the home warps receive; a compare changes the threads of
each home warp by themselves. -/
theorem scalarOperations : Obligations.ScalarOperations :=
  ⟨Sys2Proof.Machine.scalarResults, Sys2Proof.Machine.scalarCompares⟩

namespace Sys2Proof.Machine

/-! ## Branches (R85) -/

/-- The target of a relative branch: the packet plus the signed offset, modulo 2^64. -/
theorem branchTarget_eq (pkt : Nat) (off : BitVec 14) :
    branchTarget pkt off = (((pkt : Int) + off.toInt) % 2 ^ 64).toNat := by
  rw [branchTarget, BitVec.signExtend, ← BitVec.ofInt_natCast, ← BitVec.ofInt_add, BitVec.toNat_ofInt]
  rfl

/-- What a lane becomes at a `br` (R85, R341): trapped for its cause, moved where the predicate says so, or left to go on. -/
def brBecomes (c : Cur) (x : ArgsJ) (l : Lane) (t : Thread) : Thread :=
  match brCause c x l.t with
  | some k => t.trap c.pc.pkt c.slot k
  | none => if l.t.readP x.pred.toNat != x.neg then t.goTo (branchTarget c.pc.pkt x.off) else t

/-- The causes of a `br` one by one, each with the code it gives. -/
theorem brBecomes_eq (c : Cur) (x : ArgsJ) (l : Lane) (t : Thread) : brBecomes c x l t =
    if 47 < x.pred.toNat then t.trap c.pc.pkt c.slot (illegal c)
    else if Dest.p x.pred.toNat ∈ l.t.pending then t.trap c.pc.pkt c.slot (hazard c)
    else if Dest.p x.pred.toNat ∈ l.t.spoilt then t.trap c.pc.pkt c.slot (0x13, 0)
    else if l.t.readP x.pred.toNat ^^ x.neg then t.goTo (((c.pc.pkt : Int) + x.off.toInt) % 2 ^ 64).toNat else t := by
  have hxor : (l.t.readP x.pred.toNat != x.neg) = (l.t.readP x.pred.toNat ^^ x.neg) := by
    cases l.t.readP x.pred.toNat <;> cases x.neg <;> rfl
  unfold brBecomes brCause
  simp only [List.contains_iff_mem, hxor, branchTarget_eq]
  split_ifs <;> rfl

/-- A lane's share of a `br` is a change of its thread. -/
theorem execBr_lane (c : Cur) (x : ArgsJ) (l : Lane) (s : State) :
    s.modWg c.wg (fun g => g.modThread l.tid (brBecomes c x l)) =
      match brCause c x l.t with
      | some k => s.modWg c.wg (·.trapLane c l.tid k)
      | none => if l.t.readP x.pred.toNat != x.neg then s.jump c l.tid (branchTarget c.pc.pkt x.off) else s := by
  unfold brBecomes
  cases brCause c x l.t with
  | some k => rfl
  | none =>
    dsimp only
    split
    · rfl
    · exact State.modWg_eq_self fun g => g.modThread_id l.tid

theorem conditionalBranch : Says.ConditionalBranch := by
  intro x c s hc hn
  have htids : ((lanesOf s c none).map (·.tid)).Nodup := by rwa [lanesOf_tids]
  have hlanes : exec (.br x) s =
      .next ((lanesOf s c none).foldl (fun s l => s.modWg c.wg fun g => g.modThread l.tid (brBecomes c x l)) s) := by
    show onGroup s _ = _
    rw [onGroup, hc]
    exact congrArg _ (foldl_congr' _ _ _ s fun s l _ => (execBr_lane c x l s).symm)
  rw [hlanes, State.foldl_modWg, ← State.lanesBecome_eq_foldl s c.wg (fun _ => brBecomes c x) htids]
  exact congrArg _ (State.lanesBecome_congr s c.wg fun _ l _ => funext (brBecomes_eq c x l))

/-- A write of a lane's thread and then a jump are one change of the thread. -/
theorem jump_modThread (s : State) (c : Cur) (l : Lane) (f : Thread → Thread) (pkt : Nat) :
    (s.modWg c.wg fun g => g.modThread l.tid f).jump c l.tid pkt =
      s.modWg c.wg fun g => g.modThread l.tid fun t => (f t).goTo pkt := by
  rw [State.jump, State.modWg_modWg]
  exact State.modWg_congr s c.wg _ _ fun g => g.modThread_modThread l.tid f (Thread.goTo pkt)

/-- R85: each active lane goes on at its own packet, after the write of the link that `call` makes. -/
theorem jumpRows_each : EachLaneDoes jumpRows := by
  intro r hr x sg c s h
  simp only [jumpRows, List.mem_cons, List.not_mem_nil, or_false] at hr
  rcases hr with rfl | rfl | rfl | rfl
  · show execBra x s = _
    exact perLane_eachLane h (fun _ l t => t.goTo (l.h.readS x.a.toNat).toNat) noIll_at (fun _ _ => rfl) fun _ _ _ => rfl
  · show execBrx x s = _
    exact perLane_eachLane h (fun _ l t => t.goTo (l.t.readV x.a.toNat).toNat) noIll_at (fun _ _ => rfl) fun _ _ _ => rfl
  · show execCall x s = _
    exact perLane_eachLane h (fun _ l t => (t.writeV x.d.toNat (BitVec.ofNat 32 (c.pc.pkt + 1))).goTo
      (scalarField 0x043 sg x l .b).toNat) noIll_at (fun l s' => jump_modThread s' c l _ _) fun _ _ _ => rfl
  · show execRet x s = _
    exact perLane_eachLane h (fun _ l t => t.goTo (l.t.readV x.a.toNat).toNat) noIll_at (fun _ _ => rfl) fun _ _ _ => rfl

end Sys2Proof.Machine

/-- Settles O11: each lane's share of a branch is a change of its own thread. -/
theorem branches : Obligations.Branches :=
  ⟨Sys2Proof.Machine.conditionalBranch, Sys2Proof.Machine.jumpRows_each⟩

namespace Sys2Proof.Machine

/-! ## Instructions of each active lane that meet no cause -/

section
variable {op : Nat} {x : Args} {sg : Sig} {c : Cur} {s : State}

/-- Lanes on their own: those of them that are active have the effect. -/
theorem foldl_singletons {α : Type} (eff : Lane → α → α) (ls : List Lane) (a : α) :
    (ls.map fun l => [l]).foldl (fun a u => if u.filter (·.act) = [] then a else (u.filter (·.act)).foldl (fun a l => eff l a) a) a =
      (ls.filter (·.act)).foldl (fun a l => eff l a) a := by
  rw [List.foldl_map, List.foldl_filter]
  refine foldl_congr' _ _ _ _ fun a l _ => ?_
  cases ha : l.act <;> simp [ha]

/-- What holds of the registers a group reads, and is kept by a change of its workgroup, holds of those it reads afterwards. -/
theorem Cur.source_modWg {P : Workgroup → Prop} {f : Workgroup → Workgroup} (hf : ∀ g, P g → P (f g)) (w : Nat)
    (h : P (c.source s)) (hw : c.snap = none → w = c.wg) : P (c.source (s.modWg w f)) := by
  unfold Cur.source at h ⊢
  cases hs : c.snap with
  | some g => simpa [hs] using h
  | none =>
    simp only [hs, Option.getD_none] at h ⊢
    rw [hw hs]
    cases hw : Tab.find s.wgs c.wg with
    | some g => exact State.wgOf_modWg s c.wg f (by simp [hw]) ▸ hf _ h
    | none => rwa [State.modWg_of_absent f hw]

/-- An instruction each active lane executes for itself, no lane of which meets a cause of its form or its own or owes a trap:
the workgroup changes by the effect of one active lane after another, which keeps what its causes look at. -/
theorem perLane_of_clean (h : Clean op x sg c s) {more : State → Cur → Sig → Lane → Option Cause}
    {eff : Sig → Cur → Lane → State → State} {waits : Bool} {E : Lane → Workgroup → Workgroup} (I : State → Prop) (hs : I s)
    (hmore : ∀ l ∈ actives s c x, ∀ s', I s' → more s' c sg l = none)
    (heff : ∀ l s', eff sg c l s' = s'.modWg c.wg (E l)) (hkeep : ∀ l s', I s' → I (s'.modWg c.wg (E l)))
    (hw : waits = true → ∀ l ∈ lanesOf s c x.ctl.pfx, l.t.owed = none) :
    perLane op more eff x s (waits := waits) =
      .next (s.modWg c.wg fun g => (actives s c x).foldl (fun g l => E l g) g) := by
  have hcause : ∀ l ∈ lanesOf s c x.ctl.pfx, ∀ s', I s' → ∀ act,
      scalarCause (c.source s) op sg x c (fun _ l => more s' c sg l) act l (noIll.at_ s' c sg x l) = none := by
    intro l hl s' hs' act
    rw [scalarCause, noIll_at, h.good l hl]
    cases ha : l.act with
    | true => exact hmore l (List.mem_filter.mpr ⟨hl, ha⟩) s' hs'
    | false => rfl
  have howed : ∀ l ∈ lanesOf s c x.ctl.pfx, (waits && l.act && l.t.owed.isSome) = false := by
    intro l hl
    cases waits with
    | true => simp [hw rfl l hl]
    | false => rfl
  unfold perLane
  rw [issue_eq h.toIssuing]
  refine congrArg _ ?_
  rw [State.shared_eq_foldl I hs]
  · rw [foldl_singletons (fun l s => eff sg c l s)]
    simp only [heff]
    exact State.foldl_modWg _ c.wg E s
  · rintro _ hu s' hs' l hl
    obtain ⟨m, hm, rfl⟩ := List.mem_map.mp hu
    obtain rfl := List.mem_singleton.mp hl
    refine (congrArg (orOwed waits · l) (hcause l hm s' hs' _)).trans ?_
    cases ha : waits && l.act with
    | false => simp [orOwed, ha]
    | true => simpa [orOwed, ha] using howed l hm
  · rintro _ hu s' hs'
    exact List.foldl_fixed _
  · rintro _ hu s' hs'
    obtain ⟨m, hm, rfl⟩ := List.mem_map.mp hu
    have := howed m hm
    simp_all
  · rintro _ hu s' hs'
    generalize List.filter _ _ = act
    induction act generalizing s' with
    | nil => exact hs'
    | cons l rest ih => exact ih _ (show I (eff sg c l s') from (heff l s').symm ▸ hkeep l s' hs')

/-! ### Home warps and threads -/

/-- Changes of the home warps of some lanes: each home warp takes those of its own lanes, in their order. -/
theorem get_foldl_put_hw (W : Lane → HWarp → HWarp) (ls : List Lane) (m : Tab HWarp) (k : Nat) :
    Tab.get {} (ls.foldl (fun m l => Tab.put m l.hw (W l (Tab.get {} m l.hw))) m) k =
      (ls.filter (·.hw = k)).foldl (fun w l => W l w) (Tab.get {} m k) := by
  induction ls generalizing m with
  | nil => rfl
  | cons l rest ih =>
    rw [List.foldl_cons, ih, Tab.get_put, List.filter_cons]
    by_cases hk : l.hw = k
    · simp [hk]
    · simp [hk, Ne.symm hk]

theorem foldl_modThread_table (u : Lane → Thread → Thread) (ls : List Lane) (g : Workgroup) :
    ls.foldl (fun g l => g.modThread l.tid (u l)) g =
      { g with threads := ls.foldl (fun T l => Tab.modify T l.tid (u l)) g.threads } := by
  induction ls generalizing g with
  | nil => rfl
  | cons l rest ih => exact ih _

/-- The active lanes change their threads, and each of them its home warp. -/
theorem homesBecome_foldl (h : Issuing op x sg c s) (u : Lane → Thread → Thread) (W : Lane → HWarp → HWarp) :
    HomesBecome s (s.modWg c.wg fun g => (actives s c x).foldl (fun g l => (g.modThread l.tid (u l)).modHw l.hw (W l)) g)
      c.wg (lanesOf s c x.ctl.pfx) (homeFold s c x W) fun l t => if l.act then u l t else t := by
  have htids : ((lanesOf s c x.ctl.pfx).map (·.tid)).Nodup := by rw [lanesOf_tids]; exact h.once
  refine ⟨fun m => (actives s c x).foldl (fun m l => Tab.put m l.hw (W l (Tab.get {} m l.hw))) m,
    fun m k => get_foldl_put_hw W _ m k, ?_⟩
  rw [State.lanesBecome_eq_foldl s c.wg (fun _ l t => if l.act then u l t else t) htids, State.modWg_modWg]
  refine State.modWg_congr _ _ _ _ fun g => ?_
  rw [← foldl_modThread_filter (fun l => l.act) u]
  refine (foldl_both (actives s c x) (fun l T => Tab.modify T l.tid (u l))
    (fun l m => Tab.put m l.hw (W l (Tab.get {} m l.hw))) g).trans ?_
  rw [foldl_modThread_table]
  rfl

/-! ### One home warp -/

/-- The values of a lane's home warp are those its group reads. -/
theorem h_of_lanesOf {p : Option Pfx} {l : Lane} (hl : l ∈ lanesOf s c p) : l.h = (c.source s).hw l.hw := by
  obtain ⟨t, -, rfl⟩ := List.mem_map.mp hl
  rfl

theorem hw_of_oneHome {k : Nat} (ho : OneHome s c k) {p : Option Pfx} {l : Lane} (hl : l ∈ lanesOf s c p) : l.hw = k := by
  obtain ⟨t, ht, rfl⟩ := List.mem_map.mp hl
  exact ho (laneAt (c.source s) none t) (List.mem_map_of_mem ht)

/-- The active lanes of one home warp read the same scalar values. -/
theorem h_of_actives {k : Nat} (ho : OneHome s c k) {l m : Lane} (hl : l ∈ actives s c x) (hm : m ∈ actives s c x) : m.h = l.h := by
  have hl := (List.mem_filter.mp hl).1
  have hm := (List.mem_filter.mp hm).1
  rw [h_of_lanesOf hl, h_of_lanesOf hm, hw_of_oneHome ho hl, hw_of_oneHome ho hm]

/-- Where all lanes are of one home warp, its lowest active lane is the first of the active lanes. -/
theorem actives_eq_cons {k : Nat} (ho : OneHome s c k) {l : Lane} (hl : lowest s c x k = some l) :
    ∃ rest, actives s c x = l :: rest := by
  have hhome : homeActives s c x k = actives s c x :=
    List.filter_eq_self.mpr fun m hm => decide_eq_true (hw_of_oneHome ho (List.mem_filter.mp hm).1)
  rw [lowest_eq_head, hhome] at hl
  exact ⟨_, (List.cons_head?_tail hl).symm⟩

theorem byHome_of_oneHome (h : Issuing op x sg c s) {k : Nat} (ho : OneHome s c k) {l : Lane} (hl : lowest s c x k = some l) :
    byHome (lanesOf s c x.ctl.pfx) = [lanesOf s c x.ctl.pfx] := by
  have hm : l ∈ lanesOf s c x.ctl.pfx := (List.mem_filter.mp (List.mem_of_find?_eq_some hl)).1
  have hlk : l.hw = k := hw_of_oneHome ho hm
  have hk : k < 128 := hlk ▸ lanesOf_hw h _ l hm
  have hhomes : homesOf (lanesOf s c x.ctl.pfx) = [k] := by
    have hany : ∀ i, ((lanesOf s c x.ctl.pfx).any fun m => m.hw == i) = (i == k) := by
      intro i
      refine Bool.eq_iff_iff.mpr ⟨fun ha => ?_, fun hi => ?_⟩
      · obtain ⟨m, hm, hmi⟩ := List.any_eq_true.mp ha
        exact beq_iff_eq.mpr ((beq_iff_eq.mp hmi).symm.trans (hw_of_oneHome ho hm))
      · exact List.any_eq_true.mpr ⟨l, hm, beq_iff_eq.mpr (hlk.trans (beq_iff_eq.mp hi).symm)⟩
    rw [homesOf, List.filter_congr fun i _ => hany i, List.filter_beq,
      List.count_eq_one_of_mem List.nodup_range (List.mem_range.mpr hk)]
    rfl
  rw [byHome, hhomes, List.map_singleton, List.filter_eq_self.mpr fun m hm => decide_eq_true (hw_of_oneHome ho hm)]

/-- An instruction executed once for each home warp, in one home warp no lane of which meets a cause or owes a trap, and where
looking for the causes installs nothing: its effect. -/
theorem perHome_of_oneHome (h : Clean op x sg c s) {k : Nat} (ho : OneHome s c k) {l : Lane} (hl : lowest s c x k = some l)
    {more : State → Cur → Sig → List Lane → Lane → Option Cause} {eff : Sig → Cur → List Lane → State → State}
    {prep : Cur → List Lane → State → State} {ill : Ill} {waits : Bool}
    (hmore : ∀ m ∈ actives s c x, more s c sg (actives s c x) m = none) (hprep : prep c (actives s c x) s = s)
    (hill : ∀ m ∈ actives s c x, ill.at_ s c sg x m = false)
    (hw : waits = true → ∀ m ∈ lanesOf s c x.ctl.pfx, m.t.owed = none) :
    perHome op more eff x s (prep := prep) (ill := ill) (waits := waits) = .next (eff sg c (actives s c x) s) := by
  obtain ⟨rest, hact⟩ := actives_eq_cons ho hl
  have hill' : ∀ m ∈ lanesOf s c x.ctl.pfx, ill.at_ s c sg x m = false := by
    intro m hm
    cases ha : m.act with
    | true => exact hill m (List.mem_filter.mpr ⟨hm, ha⟩)
    | false => simp [Ill.at_, ha]
  have hcause : ∀ m ∈ lanesOf s c x.ctl.pfx,
      scalarCause (c.source s) op sg x c (more s c sg) (actives s c x) m (ill.at_ s c sg x m) = none := by
    intro m hm
    rw [scalarCause, hill' m hm, h.good m hm]
    cases ha : m.act with
    | true => exact hmore m (List.mem_filter.mpr ⟨hm, ha⟩)
    | false => rfl
  have howed : ∀ m ∈ lanesOf s c x.ctl.pfx, (waits && m.act && m.t.owed.isSome) = false := by
    intro m hm
    cases waits with
    | true => simp [hw rfl m hm]
    | false => rfl
  have hgood : (actives s c x).filter (fun m => (formCause (c.source s) op sg x 0 c m).isNone && !ill.at_ s c sg x m) =
      actives s c x := List.filter_eq_self.mpr fun m hm => by
    simp [h.good m (List.mem_filter.mp hm).1, hill m hm]
  unfold perHome
  rw [issue_eq h.toIssuing]
  refine congrArg _ ?_
  dsimp only
  rw [byHome_of_oneHome h.toIssuing ho hl]
  refine (State.shared_one ?_ ?_ ?_).trans (if_neg fun hnil => List.cons_ne_nil l rest (hact.symm.trans hnil))
  · intro m hm
    refine (congrArg (orOwed waits · m) (hcause m hm)).trans ?_
    cases ha : waits && m.act with
    | false => simp [orOwed, ha]
    | true => simpa [orOwed, ha] using howed m hm
  · exact (congrArg (prep c · s) hgood).trans hprep
  · refine List.filter_eq_nil_iff.mpr fun m hm => ?_
    have := howed m hm
    simp_all

end
end Sys2Proof.Machine

namespace Sys2Proof.Machine

/-! ## Meetings, masks, `elect` and `yield` (R88, R90, R93, R97) -/

section
variable {x : Args} {sg : Sig} {c : Cur} {s : State}

/-- R88: what an active lane's `meet` changes: its thread, then its bit of the mask. -/
theorem execMeet_opens : Says.MeetingOpens := by
  intro x sg c s h hm
  have hmore : ∀ l ∈ actives s c x, ∀ s', ((c.source s').hdr = (c.source s).hdr ∧ (c.source s').fhLen = (c.source s).fhLen) →
      (if l.t.depth = (c.source s').hdr.depth then some (0x04, scalarField 0x045 sg x l .b)
        else if 2 ^ 27 ≤ (scalarField 0x045 sg x l .b).toNat ∨
          (c.source s').codeLen l.t ≤ (scalarField 0x045 sg x l .b).toNat then some (illegal c)
        else none : Option Cause) = none := by
    rintro l hl s' ⟨hhdr, hlen⟩
    obtain ⟨hlow, hcode, hdepth⟩ := hm l hl
    have hcode' : (c.source s').codeLen l.t = (c.source s).codeLen l.t := by
      rw [Workgroup.codeLen, Workgroup.codeLen, hhdr, hlen]
    rw [hhdr, hcode', if_neg hdepth]
    exact if_neg (not_or.mpr ⟨Nat.not_le.mpr hlow, Nat.not_le.mpr hcode⟩)
  have hkeep : ∀ f : Workgroup → Workgroup, (∀ g, (f g).hdr = g.hdr ∧ (f g).fhLen = g.fhLen) → ∀ s' : State,
      ((c.source s').hdr = (c.source s).hdr ∧ (c.source s').fhLen = (c.source s).fhLen) →
      (c.source (s'.modWg c.wg f)).hdr = (c.source s).hdr ∧ (c.source (s'.modWg c.wg f)).fhLen = (c.source s).fhLen :=
    fun f hf s' hs' => Cur.source_modWg (P := fun g => g.hdr = (c.source s).hdr ∧ g.fhLen = (c.source s).fhLen)
      (fun g ⟨h1, h2⟩ => ⟨(hf g).1.trans h1, (hf g).2.trans h2⟩) c.wg hs' fun _ => rfl
  refine ⟨_, ?_, homesBecome_foldl h.toIssuing (fun l t => { t with
    entries := Tab.set 0 t.entries t.depth t.meet, depth := t.depth + 1
    meet := meetWord (scalarField 0x045 sg x l .b).toNat x.d.toNat }) fun l w => w.setK x.d.toNat l.lane true⟩
  show execMeet x s = _
  exact perLane_of_clean h _ ⟨rfl, rfl⟩ hmore (fun _ _ => rfl) (fun l => hkeep _ fun _ => ⟨rfl, rfl⟩) (by simp)

/-- R90: a change of a bit of each active lane, and of no thread. -/
theorem perLane_setK {op : Nat} (h : Clean op x sg c s) (j : Bool) :
    ∃ t, perLane op noLaneCause (fun _ c l s => s.modWg c.wg (·.modHw l.hw (·.setK x.d.toNat l.lane j))) x s = .next t ∧
      HomesBecome s t c.wg (lanesOf s c x.ctl.pfx) (homeFold s c x fun l w => w.setK x.d.toNat l.lane j) fun _ t => t := by
  refine ⟨_, perLane_of_clean h (fun _ => True) trivial (fun _ _ _ _ => rfl) (fun _ _ => rfl) (fun _ _ _ => trivial) (by simp), ?_⟩
  have := homesBecome_foldl h.toIssuing (fun _ t => t) fun l w => w.setK x.d.toNat l.lane j
  simpa only [Workgroup.modThread_id, ite_self] using this

theorem execJoin_setsBits : Says.JoinAndLeave := by
  intro j x sg c s h
  cases j with
  | true => exact perLane_setK h true
  | false => exact perLane_setK h false

/-! ### `elect` -/

/-- The lane that wins is the first of the active waiting lanes of its home warp. -/
theorem electWins_eq (x : Args) (l : Lane) : electWins c x.a.toNat (lanesOf s c x.ctl.pfx) l =
    ((homeActives s c x l.hw).find? fun m => c.gathered || m.h.bitK x.a.toNat m.lane).any fun m => m.tid == l.tid := by
  simp only [electWins, electWaited, homeActives, actives, List.find?_filter]
  congr 1
  congr 1
  funext m
  simp [Bool.and_assoc, Bool.and_left_comm]

theorem execElect_chooses : Says.ElectChoosesOne := by
  intro x sg c s h
  have hgood : (lanesOf s c x.ctl.pfx).filter (fun l => (formCause (c.source s) 0x04B sg x 0 c l).isNone) =
      lanesOf s c x.ctl.pfx := List.filter_eq_self.mpr fun l hl => by simp [h.good l hl]
  have htids : ((lanesOf s c x.ctl.pfx).map (·.tid)).Nodup := by rw [lanesOf_tids]; exact h.once
  show execElect x s = _
  unfold execElect
  rw [issue_eq h.toIssuing]
  refine congrArg _ ?_
  dsimp only
  rw [hgood, State.shared_eq_foldl (fun _ => True) trivial (fun _ hu _ _ l hl => ?_) (fun _ _ _ _ => rfl)
    (fun _ _ _ _ => by simp) (fun _ _ _ _ => trivial)]
  · refine (foldl_singletons (fun l s' => s'.modWg c.wg (·.modThread l.tid (·.writeP x.d.toNat
      (electWins c x.a.toNat (lanesOf s c x.ctl.pfx) l)))) _ s).trans ?_
    rw [State.foldl_modWg, State.lanesBecome_eq_foldl s c.wg _ htids]
    simp only [electWins_eq]
    exact State.modWg_congr _ _ _ _ fun g => foldl_modThread_filter _ _ _ g
  · obtain ⟨m, hm, rfl⟩ := List.mem_map.mp hu
    obtain rfl := List.mem_singleton.mp hl
    simp [scalarCause, h.good l hm, noLaneCause]

/-! ### `yield` -/

/-- The other groups do not depend on the threads of this one. -/
theorem otherGroups_modThread {g : Workgroup} {i : Nat} (hi : i ∈ c.lanes) (f : Thread → Thread) :
    (g.modThread i f).otherGroups c = g.otherGroups c := by
  unfold Workgroup.otherGroups
  refine congrArg (fun l : List (Nat × Thread) => (l.map fun p => p.2.pc).dedup) ?_
  show (Tab.modify g.threads i f).filter _ = _
  induction g.threads with
  | nil => rfl
  | cons p rest ih =>
    have hcons : Tab.modify (p :: rest) i f = (if p.1 = i then (p.1, f p.2) else p) :: Tab.modify rest i f := by
      by_cases hp : p.1 = i <;> simp [Tab.modify, Tab.map, hp]
    rw [hcons, List.filter_cons, List.filter_cons, ih]
    by_cases hp : p.1 = i <;> simp [hp, hi]

theorem execYield_holds : Says.YieldHolds := by
  intro x sg c s h hn
  have htids : ((lanesOf s c x.ctl.pfx).map (·.tid)).Nodup := by rw [lanesOf_tids]; exact h.once
  have hrun : execYield x s = .next (s.modWg c.wg fun g => (actives s c x).foldl (fun g l =>
      g.modThread l.tid fun t => { t with hold := .yield (g.otherGroups c) 0 }) g) :=
    perLane_of_clean h (fun _ => True) trivial (fun _ _ _ _ => rfl) (fun _ _ => rfl) (fun _ _ _ => trivial)
      fun _ => owed_of_nothingOwed hn _
  refine hrun.trans (congrArg _ ?_)
  rw [State.lanesBecome_eq_foldl s c.wg _ htids]
  refine State.modWg_congr _ _ _ _ fun g => ?_
  rw [← foldl_modThread_filter (fun l => l.act) fun l t => { t with hold := .yield (g.otherGroups c) 0 }]
  refine foldl_congr_of_keeps (fun g' => g'.otherGroups c = g.otherGroups c) _ rfl fun l hl g' hg' => ⟨by rw [hg'], ?_⟩
  have hl : l.tid ∈ c.lanes := by
    rw [← lanesOf_tids s c x.ctl.pfx]
    exact List.mem_map_of_mem (List.mem_filter.mp hl).1
  exact (otherGroups_modThread hl _).trans hg'

end
end Sys2Proof.Machine

/-- Settles O24: each of these instructions is one effect per active lane, on its thread and its home warp. -/
theorem meetings : Obligations.Meetings :=
  ⟨Sys2Proof.Machine.execMeet_opens, Sys2Proof.Machine.execJoin_setsBits, Sys2Proof.Machine.execElect_chooses,
    Sys2Proof.Machine.execYield_holds⟩

namespace Sys2Proof.Machine

/-! ## Ending, replacing and starting (R94 to R96) -/

section
variable {x : Args} {sg : Sig} {c : Cur} {s : State}

/-! ### `exit` and `tail` -/

/-- A lane's thread ends: the thread is over, and its home warp forgets its lane. -/
theorem endThread_lane {p : Option Pfx} {l : Lane} (hl : l ∈ lanesOf s c p) {g : Workgroup} (hg : g.hdr = (c.source s).hdr)
    (b : Bool) : g.endThread l.tid b = (g.modThread l.tid (Thread.over b)).modHw l.hw (HWarp.forget l.lane) := by
  obtain ⟨t, -, rfl⟩ := List.mem_map.mp hl
  simp only [Workgroup.endThread, Workgroup.laneOf, Workgroup.home, laneAt, ← hg]
  rfl

/-- Records for successors, which `tail` adds. -/
def Workgroup.addTails (g : Workgroup) (ts : List TailRec) : Workgroup := { g with tails := g.tails ++ ts }

/-- Records that some lanes add, beside what they do to the threads and the home warps. -/
theorem foldl_both_addTails {α : Type} (l : List α) (T : α → Tab Thread → Tab Thread) (H : α → Tab HWarp → Tab HWarp)
    (A : α → List TailRec) (g : Workgroup) :
    l.foldl (fun g a => (g.both (T a) (H a)).addTails (A a)) g =
      (l.foldl (fun g a => g.both (T a) (H a)) g).addTails (l.flatMap A) := by
  rw [foldl_both]
  induction l generalizing g with
  | nil => exact congrArg (fun ts => ({ g with tails := ts } : Workgroup)) (List.append_nil g.tails).symm
  | cons a rest ih =>
    rw [List.foldl_cons, ih, List.flatMap_cons]
    exact congrArg (fun ts => ({ g.both (fun m => rest.foldl (fun m a => T a m) (T a m))
      (fun m => rest.foldl (fun m a => H a m) (H a m)) with tails := ts } : Workgroup)) (List.append_assoc g.tails _ _)

/-- The threads of the active lanes end, one after another, each with the records of its own. -/
theorem foldl_endThread (b : Bool) (A : Lane → List TailRec) {g : Workgroup} (hg : g.hdr = (c.source s).hdr) :
    (actives s c x).foldl (fun g l => (g.endThread l.tid b).addTails (A l)) g =
      ((actives s c x).foldl (fun g l => (g.modThread l.tid (Thread.over b)).modHw l.hw (HWarp.forget l.lane)) g).addTails
        ((actives s c x).flatMap A) := by
  refine (foldl_congr_of_keeps (fun g => g.hdr = (c.source s).hdr) _ hg fun l hl g hg => ⟨?_, ?_⟩).trans
    (foldl_both_addTails (actives s c x) (fun l T => Tab.modify T l.tid (Thread.over b))
      (fun l m => Tab.put m l.hw (HWarp.forget l.lane (Tab.get {} m l.hw))) A g)
  · rw [endThread_lane (List.mem_filter.mp hl).1 hg]
    rfl
  · exact hg

/-- An instruction that ends the thread of each active lane, and records something for each. -/
theorem perLane_endThread {op : Nat} (h : Clean op x sg c s) (hn : NothingOwed s c) (b : Bool) (A : Lane → List TailRec)
    {eff : Sig → Cur → Lane → State → State}
    (heff : ∀ l s', eff sg c l s' = s'.modWg c.wg fun g => (g.endThread l.tid b).addTails (A l)) :
    ∃ t, perLane op noLaneCause eff x s (waits := true) =
        .next (t.modWg c.wg (·.addTails ((actives s c x).flatMap A))) ∧
      HomesBecome s t c.wg (lanesOf s c x.ctl.pfx) (homeFold s c x fun l w => w.forget l.lane) fun l t =>
        if l.act then t.over b else t := by
  refine ⟨_, ?_, homesBecome_foldl h.toIssuing (fun _ => Thread.over b) fun l => HWarp.forget l.lane⟩
  refine (perLane_of_clean h (fun _ => True) trivial (fun _ _ _ _ => rfl) heff (fun _ _ _ => trivial)
    fun _ => owed_of_nothingOwed hn _).trans (congrArg _ ?_)
  rw [State.modWg_modWg]
  refine State.modWg_agree s c.wg _ _ fun p hp hw => ?_
  rw [h.one p hp hw]
  exact foldl_endThread b A h.hdr.symm

theorem execExit_ends : Says.ThreadsEnd := by
  intro e x sg c s h hn
  cases e with
  | true =>
    obtain ⟨t, ht, hb⟩ := perLane_endThread (eff := fun _ c l s => s.modWg c.wg (·.endThread l.tid false)) h hn false
      (fun _ => []) fun l s' => by simp only [Workgroup.addTails, List.append_nil]
    refine ⟨t, ht.trans (congrArg _ (State.modWg_congr _ _ _ _ fun g => ?_)), hb⟩
    simp [Workgroup.addTails]
  | false =>
    obtain ⟨t, ht, hb⟩ := perLane_endThread (eff := fun _ c l s => s.modWg c.wg fun g =>
      let g := g.endThread l.tid true
      { g with tails := g.tails ++ [⟨l.h.readS x.a.toNat, l.h.readS x.b.toNat⟩] }) h hn true
      (fun l => [⟨l.h.readS x.a.toNat, l.h.readS x.b.toNat⟩]) fun l s' => rfl
    refine ⟨t, ht.trans (congrArg _ (State.modWg_congr _ _ _ _ fun g => ?_)), hb⟩
    simp [Workgroup.addTails, List.map_eq_flatMap]

/-! ### `spawn` -/

theorem execSpawn_arms : Says.SpawnArms := by
  intro x sg c s k l pa t h hn ho hl hctx va hal hlow hreach ht hder hidle hbad
  obtain ⟨rest, hact⟩ := actives_eq_cons ho hl
  have hl' : l ∈ actives s c x := hact ▸ List.mem_cons_self
  have haddr : addrCause va 256 = none := by
    rw [addrCause, if_neg (not_not.mpr hal), if_neg (Nat.not_le.mpr hlow)]
  have htable : s.inTable (s.wgOf c.wg).ctx va.toNat = true := by simp [State.inTable, ht, hder]
  have hfree : ¬((!s.inTable (s.wgOf c.wg).ctx va.toNat) = true ∨ s.blockState pa ≠ 0) := by
    simp [htable, State.blockState, hidle]
  have hcause : ∀ m ∈ actives s c x, spawnCause x s c sg (actives s c x) m = none := by
    intro m hm
    have hva : m.h.readS x.a.toNat = va := by rw [h_of_actives ho hl' hm]
    rw [spawnCause, hva, hctx, haddr]
    dsimp only
    rw [(hreach m hm).1]
    dsimp only
    rw [if_neg hfree, hbad]
    rfl
  have hprep : spawnPrep x c (actives s c x) s = s := by
    rw [hact]
    dsimp only [spawnPrep]
    rw [haddr, (hreach l hl').1]
    dsimp only
    rw [if_neg hfree, hbad]
    rfl
  have hword : bytesOfNat 1 4 = [1, 0, 0, 0] := rfl
  have htarget : (s.applyNow pa (bytesOfNat 1 4)).tableFor ((s.applyNow pa (bytesOfNat 1 4)).wgOf c.wg).ctx va.toNat =
      some t := ht
  show execSpawn x s = _
  unfold execSpawn
  rw [perHome_of_oneHome h ho hl hcause hprep (fun m _ => noIll_at s m) fun _ => owed_of_nothingOwed hn _, hact]
  dsimp only
  rw [(hreach l hl').2]
  dsimp only
  rw [htarget, hword]

end
end Sys2Proof.Machine

/-- Settles O25: `exit` and `tail` are one effect per active lane; an idle block that translates meets no cause of `spawn`. -/
theorem endsAndStarts : Obligations.EndsAndStarts :=
  ⟨Sys2Proof.Machine.execExit_ends, Sys2Proof.Machine.execSpawn_arms⟩

namespace Sys2Proof.Machine

/-! ## Scalar loads, stores and argument words (R81, R82) -/

/-! ### Addresses and values -/

/-- A value of `k` bits read as two's complement. -/
theorem toInt_ofNat_eq_signedLow {k : Nat} (hk : 0 < k) (n : Nat) : (BitVec.ofNat k n).toInt = signedLow k n := by
  have hpow : 2 ^ k = 2 * 2 ^ (k - 1) := by rw [← pow_succ', Nat.sub_add_cancel hk]
  rw [BitVec.toInt_eq_toNat_cond, BitVec.toNat_ofNat, signedLow]
  push_cast
  split <;> split <;> omega

/-- The base and the offset in elements, modulo 2^64. -/
theorem scalarAddr_eq_scalarBase (x : Args) (k : Nat) (l : Lane) : scalarAddr x k l = scalarBase x k l := by
  rw [scalarAddr, scalarBase, BitVec.ofInt_add, BitVec.ofInt_mul, BitVec.ofInt_natCast, BitVec.ofInt_natCast, BitVec.ofNat_toNat,
    BitVec.setWidth_eq]
  rfl

theorem bytesOfNat_eq (n k : Nat) : bytesOfNat n k = (List.range k).map fun i => BitVec.ofNat 8 (n / 256 ^ i) := by
  refine List.map_congr_left fun i _ => ?_
  rw [Nat.shiftRight_eq_div_pow, pow_mul]
  rfl

section
variable {op : Nat} {x : Args} {sg : Sig} {c : Cur} {s : State} {h : Nat} {l : Lane} {k pa : Nat} {write : Bool}

/-! ### Accesses that translate -/

/-- An access at a whole address that translates, of data that may be read, meets no cause in any active lane. -/
theorem scalarMemCause_none (ho : OneHome s c h) (hl : l ∈ actives s c x) (hal : (scalarBase x k l).toNat % k = 0)
    (hlow : (scalarBase x k l).toNat < 2 ^ 48) (hr : AllReach s c x write (scalarBase x k l) pa)
    (hs : write = false → s.loadStops (c.source s).core (c.source s).ctx.asid pa k = none) :
    ∀ m ∈ actives s c x, scalarMemCause x k write s c sg (actives s c x) m = none := by
  intro m hm
  have hva : scalarAddr x k m = scalarBase x k l := by
    rw [scalarAddr_eq_scalarBase, scalarBase, scalarBase, h_of_actives ho hl hm]
  have haddr : addrCause (scalarBase x k l) k = none := by
    rw [addrCause, if_neg (not_not.mpr hal), if_neg (Nat.not_le.mpr hlow)]
  rw [scalarMemCause, hva, haddr]
  dsimp only
  rw [(hr m hm).1]
  cases write with
  | true => rfl
  | false =>
    dsimp only
    rw [hs rfl]
    rfl

/-- Looking for its causes installs nothing and logs nothing. -/
theorem scalarMemPrep_id {rest : List Lane} (hact : actives s c x = l :: rest) (hr : AllReach s c x write (scalarBase x k l) pa)
    (hs : write = false → s.loadStops (s.wgOf c.wg).core (s.wgOf c.wg).ctx.asid pa k = none) :
    scalarMemPrep x k write c (actives s c x) s = s := by
  rw [hact]
  dsimp only [scalarMemPrep]
  rw [scalarAddr_eq_scalarBase, (hr l (hact ▸ List.mem_cons_self)).1]
  dsimp only
  cases write with
  | true => simp
  | false => simp [hs rfl]

theorem scalarLoad_loads (h' : Clean op x sg c s) (ho : OneHome s c h) (hl : lowest s c x h = some l) (hk : 0 < k) (signed : Bool)
    (hal : (scalarBase x k l).toNat % k = 0) (hlow : (scalarBase x k l).toNat < 2 ^ 48)
    (hr : AllReach s c x false (scalarBase x k l) pa)
    (hs : ∀ g ∈ [s.wgOf c.wg, c.source s], s.loadStops g.core g.ctx.asid pa k = none) :
    let g := s.wgOf c.wg
    let q := (s.countMiss c.wg pa k).loadSync g.core g.ctx.asid pa k
    let n := natOfBytes q.1
    scalarLoad op k signed x s = .next (q.2.writeScalar c h x.d.toNat
      (if signed then BitVec.ofInt 64 (signedLow (8 * k) n) else BitVec.ofNat 64 n)) := by
  obtain ⟨rest, hact⟩ := actives_eq_cons ho hl
  have hl' : l ∈ actives s c x := hact ▸ List.mem_cons_self
  have hhw : l.hw = h := hw_of_oneHome ho (List.mem_filter.mp hl').1
  have hext : ∀ n, (BitVec.ofNat (8 * k) n).signExtend 64 = BitVec.ofInt 64 (signedLow (8 * k) n) := fun n => by
    rw [BitVec.signExtend, toInt_ofNat_eq_signedLow (by omega)]
  unfold scalarLoad
  rw [perHome_of_oneHome h' ho hl (scalarMemCause_none ho hl' hal hlow hr fun _ => hs _ (by simp))
    (scalarMemPrep_id hact hr fun _ => hs _ (by simp)) (fun m _ => noIll_at s m) (by simp), hact]
  dsimp only
  rw [scalarAddr_eq_scalarBase, (hr l hl').2, hhw]
  simp only [hext]

theorem scalarStore_stores (h' : Clean op x sg c s) (ho : OneHome s c h) (hl : lowest s c x h = some l)
    (hal : (scalarBase x k l).toNat % k = 0) (hlow : (scalarBase x k l).toNat < 2 ^ 48)
    (hr : AllReach s c x true (scalarBase x k l) pa) :
    scalarStore op k x s = .next (s.weakStore c (s.wgOf c.wg) pa (scalarBase x k l)
      ((List.range k).map fun i => BitVec.ofNat 8 ((l.h.readS x.d.toNat).toNat / 256 ^ i)) ((actives s c x).map (·.tid))) := by
  obtain ⟨rest, hact⟩ := actives_eq_cons ho hl
  have hl' : l ∈ actives s c x := hact ▸ List.mem_cons_self
  unfold scalarStore
  rw [perHome_of_oneHome h' ho hl (scalarMemCause_none ho hl' hal hlow hr (by simp))
    (scalarMemPrep_id hact hr (by simp)) (fun m _ => noIll_at s m) (by simp), hact]
  dsimp only
  rw [scalarAddr_eq_scalarBase, (hr l hl').2, bytesOfNat_eq]

end

theorem sldRows_load : Says.ScalarLoads := by
  intro r hr x sg c s h l pa hc ho hl va hal hlow hreach hs
  simp only [sldRows, List.mem_cons, List.not_mem_nil, or_false] at hr
  rcases hr with rfl | rfl | rfl | rfl | rfl | rfl | rfl <;> exact scalarLoad_loads hc ho hl (by decide) _ hal hlow hreach hs

theorem sstRows_store : Says.ScalarStores := by
  intro r hr x sg c s h l pa hc ho hl va hal hlow hreach
  simp only [sstRows, List.mem_cons, List.not_mem_nil, or_false] at hr
  rcases hr with rfl | rfl | rfl | rfl <;> exact scalarStore_stores hc ho hl hal hlow hreach

/-! ### The argument block

Which word an argument load takes is a draw of its own; a translation does not depend on how many draws were made. -/

theorem State.log_paOk (s : State) (die : Nat) (e : LogEntry) : (s.log die e).paOk = s.paOk := by
  unfold State.log
  split <;> rfl

theorem State.scrub_paOk (s : State) (die pa asid : Nat) (core : Option Nat) : (s.scrub die pa asid core).paOk = s.paOk := by
  unfold State.scrub
  split
  · exact State.log_paOk _ _ _
  · rfl

theorem State.countAt_paOk (s : State) (die pa : Nat) : (s.countAt die pa).paOk = s.paOk := by
  unfold State.countAt
  split <;> rfl

theorem State.setAD_paOk (s : State) (entries : List Nat) (write : Bool) : (s.setAD entries write).paOk = s.paOk := by
  cases entries with
  | nil => rfl
  | cons leaf rest =>
    exact List.foldlRecOn rest _ (motive := fun t : State => t.paOk = s.paOk) rfl fun t ht ea _ => ht

/-- Which addresses exist is none of what a walk changes. -/
theorem State.walk_paOk (s : State) (core asid root va : Nat) (w : Want) : (s.walk core asid root va w).2.paOk = s.paOk := by
  unfold State.walk
  cases s.walkFrom asid va 4 root [] with
  | error e =>
    dsimp only
    split_ifs
    · exact s.countAt_paOk _ _
    · exact (State.log_paOk _ _ _).trans (s.countAt_paOk _ _)
    · exact (State.log_paOk _ _ _).trans (s.countAt_paOk _ _)
  | ok e =>
    have hused : ∀ used : List Nat, (used.foldl (fun s ea =>
        (s.countAt (dieOfCore core) ea).scrub (s.dieFor ea (dieOfCore core)) ea asid (some core)) s).paOk = s.paOk := fun used =>
      List.foldlRecOn used _ (motive := fun t : State => t.paOk = s.paOk) rfl fun t ht ea _ =>
        ((State.scrub_paOk _ _ _ _ _).trans (t.countAt_paOk _ _)).trans ht
    dsimp only
    split_ifs
    · exact (State.log_paOk _ _ _).trans (hused _)
    · exact (State.setAD_paOk _ _ _).trans (hused _)

theorem State.translate_paOk (s : State) (core asid root : Nat) (w : Want) (va : W64) :
    (s.translate core asid root w va).2.paOk = s.paOk := by
  unfold State.translate
  dsimp only
  split
  · rfl
  · split
    · split_ifs
      · exact State.log_paOk _ _ _
      · rfl
    · split
      · split_ifs
        · exact State.log_paOk _ _ _
        · rfl
      · exact s.walk_paOk _ _ _ _ _

/-- What a walk finds does not depend on the counter of free choices. -/
theorem walkFrom_fresh (s : State) (n asid va : Nat) (l t : Nat) (seen : List Nat) :
    { s with fresh := n }.walkFrom asid va l t seen = s.walkFrom asid va l t seen := by
  induction l generalizing t seen with
  | zero => rfl
  | succ l ih =>
    unfold State.walkFrom
    simp only [ih]
    rfl

theorem walk_fst_fresh (s : State) (n core asid root va : Nat) (w : Want) :
    ({ s with fresh := n }.walk core asid root va w).1 = (s.walk core asid root va w).1 := by
  unfold State.walk
  rw [walkFrom_fresh]
  cases s.walkFrom asid va 4 root [] with
  | error e => rfl
  | ok e =>
    dsimp only
    split_ifs <;> rfl

theorem translate_fst_fresh (s : State) (n core asid root : Nat) (w : Want) (va : W64) :
    ({ s with fresh := n }.translate core asid root w va).1 = (s.translate core asid root w va).1 := by
  have hcore : { s with fresh := n }.coreOf core = s.coreOf core := rfl
  have hdie : { s with fresh := n }.dieAt (dieOfCore core) = s.dieAt (dieOfCore core) := rfl
  unfold State.translate
  dsimp only
  rw [hcore, hdie]
  split
  · rfl
  · split
    · split_ifs <;> rfl
    · split
      · split_ifs <;> rfl
      · exact walk_fst_fresh s n core asid root _ w

/-- An address is reached where it translates and exists. -/
theorem locate_fst (s : State) (core asid root : Nat) (w : Want) (va : W64) : (s.locate core asid root w va).1 =
    (s.translate core asid root w va).1.bind fun pa => if s.paOk pa then .ok pa else .error 0x11 := by
  rw [State.locate, ← s.translate_paOk core asid root w va]
  obtain ⟨r, t⟩ := s.translate core asid root w va
  cases r with
  | error e => rfl
  | ok pa =>
    dsimp only [Except.bind]
    split <;> rfl

theorem locate_fst_fresh (s : State) (n core asid root : Nat) (w : Want) (va : W64) :
    ({ s with fresh := n }.locate core asid root w va).1 = (s.locate core asid root w va).1 := by
  rw [locate_fst, locate_fst, translate_fst_fresh]
  rfl

/-- R82: the word at bind, or, where the address translates, the one memory holds. -/
theorem argWord_cases (s : State) (g : Workgroup) (off : Nat) :
    ∃ v, (v = Tab.get 0 g.argWords (off / 8) ∨ ∃ pa, (s.locate g.core g.ctx.asid g.ctx.root ⟨false, false, true⟩
        (g.args + BitVec.ofNat 64 off)).1 = .ok pa ∧ v = BitVec.ofNat 64 (s.natAt pa 8)) ∧
      s.argWord g off = (v, { s with fresh := s.fresh + 1 }) := by
  unfold State.argWord State.draw
  dsimp only
  rw [locate_fst_fresh s (s.fresh + 1)]
  cases (s.locate g.core g.ctx.asid g.ctx.root ⟨false, false, true⟩ (g.args + BitVec.ofNat 64 off)).1 with
  | error e => exact ⟨_, .inl rfl, rfl⟩
  | ok pa =>
    refine ⟨_, ?_, rfl⟩
    split
    · exact .inl rfl
    · exact .inr ⟨pa, rfl, rfl⟩

theorem execSldk_reads : Says.ArgumentWord := by
  intro x sg c s h l hc ho hl off g hal hlen
  obtain ⟨rest, hact⟩ := actives_eq_cons ho hl
  have hl' : l ∈ actives s c x := hact ▸ List.mem_cons_self
  have hhw : l.hw = h := hw_of_oneHome ho (List.mem_filter.mp hl').1
  obtain ⟨v, hv, hword⟩ := argWord_cases s g off
  refine ⟨v, hv, ?_⟩
  show execSldk x s = _
  unfold execSldk
  rw [perHome_of_oneHome hc ho hl ?_ rfl (fun m _ => noIll_at s m) (by simp), hact]
  · dsimp only
    rw [scalarAddr_eq_scalarBase, hhw, hword]
  · intro m hm
    have hoff : (scalarAddr x 8 m).toNat = off := by
      rw [scalarAddr_eq_scalarBase, scalarBase, h_of_actives ho hl' hm]
      rfl
    simp only [hoff, hal, Nat.not_le.mpr hlen, ne_eq, not_true_eq_false, if_false]

end Sys2Proof.Machine

/-- Settles O22: in one home warp the access of the lowest active lane is the access; it meets no cause and installs nothing. -/
theorem scalarMemory : Obligations.ScalarMemory :=
  ⟨Sys2Proof.Machine.sldRows_load, Sys2Proof.Machine.sstRows_store, Sys2Proof.Machine.execSldk_reads⟩

namespace Sys2Proof.Machine

/-! ## Held threads go on (R89, R93, R97, R110, R124, R166)

What a release leaves alone is said once, by `Passes`: it is the same for every release, holds of a release followed by another,
and keeps what an earlier release has reached. -/

/-! ### What a release leaves alone -/

/-- Some threads of a workgroup go on: only they change, and of them the number, the code, the place and the life stand; bits of
masks are only cleared; a release set keeps its other threads. -/
structure Workgroup.Passes (P : Nat → Prop) (g k : Workgroup) : Prop where
  hdr : k.hdr = g.hdr
  sorted : Tab.sorted k.threads = Tab.sorted g.threads
  found : ∀ i, (Tab.find k.threads i).isSome = (Tab.find g.threads i).isSome
  others : ∀ i, ¬P i → (k.thread i).stands = (g.thread i).stands
  same : ∀ i, (k.thread i).tid = (g.thread i).tid ∧ (k.thread i).pc = (g.thread i).pc ∧
    (k.thread i).priv = (g.thread i).priv ∧ (k.thread i).ended = (g.thread i).ended
  bits : ∀ h n i, (k.hw h).bitK n i = true → (g.hw h).bitK n i = true
  sets : ∀ r ∈ g.relSets, (∃ i ∈ r.tids, ¬P i) →
    ∃ q ∈ k.relSets, q.gathered = r.gathered ∧ ∀ i ∈ r.tids, ¬P i → i ∈ q.tids

/-- The same of a workgroup in the state; memory and the threads of the others stand. -/
structure State.Passes (w : Nat) (P : Nat → Prop) (s t : State) : Prop where
  mem : t.mem = s.mem
  others : ∀ v ≠ w, ∀ i, (t.thread v i).stands = (s.thread v i).stands
  wg : (s.wgOf w).Passes P (t.wgOf w)

section
variable {P Q : Nat → Prop} {g k l : Workgroup} {s t u : State} {w i : Nat}

theorem Workgroup.Passes.refl (P : Nat → Prop) (g : Workgroup) : g.Passes P g :=
  ⟨rfl, rfl, fun _ => rfl, fun _ _ => rfl, fun _ => ⟨rfl, rfl, rfl, rfl⟩, fun _ _ _ h => h, fun r hr _ => ⟨r, hr, rfl, fun _ h _ => h⟩⟩

theorem Workgroup.Passes.trans (h : g.Passes P k) (h' : k.Passes P l) : g.Passes P l where
  hdr := h'.hdr.trans h.hdr
  sorted := h'.sorted.trans h.sorted
  found i := (h'.found i).trans (h.found i)
  others i hi := (h'.others i hi).trans (h.others i hi)
  same i := by
    obtain ⟨h1, h2, h3, h4⟩ := h.same i
    obtain ⟨h1', h2', h3', h4'⟩ := h'.same i
    exact ⟨h1'.trans h1, h2'.trans h2, h3'.trans h3, h4'.trans h4⟩
  bits n m i hb := h.bits n m i (h'.bits n m i hb)
  sets r hr := by
    rintro ⟨i, hi, hP⟩
    obtain ⟨q, hq, hg, hs⟩ := h.sets r hr ⟨i, hi, hP⟩
    obtain ⟨q', hq', hg', hs'⟩ := h'.sets q hq ⟨i, hs i hi hP, hP⟩
    exact ⟨q', hq', hg'.trans hg, fun j hj hPj => hs' j (hs j hj hPj) hPj⟩

theorem Workgroup.Passes.mono (h : g.Passes P k) (hPQ : ∀ i, P i → Q i) : g.Passes Q k where
  hdr := h.hdr
  sorted := h.sorted
  found := h.found
  others i hi := h.others i fun hP => hi (hPQ i hP)
  same := h.same
  bits := h.bits
  sets r hr := by
    rintro ⟨i, hi, hQ⟩
    obtain ⟨q, hq, hg, hs⟩ := h.sets r hr ⟨i, hi, fun hP => hQ (hPQ i hP)⟩
    exact ⟨q, hq, hg, fun j hj hQj => hs j hj fun hP => hQj (hPQ j hP)⟩

theorem Workgroup.passes_foldl {α : Type} (ls : List α) {f : Workgroup → α → Workgroup} (g : Workgroup)
    (h : ∀ k : Workgroup, ∀ a ∈ ls, k.Passes P (f k a)) : g.Passes P (ls.foldl f g) :=
  List.foldlRecOn (motive := fun k => g.Passes P k) ls _ (.refl P g) fun k hk a ha => hk.trans (h k a ha)

/-- A thread changes, but for its number, its code, its place and its life. -/
theorem Workgroup.passes_modThread (g : Workgroup) (hi : P i) {f : Thread → Thread}
    (hf : ∀ t, (f t).tid = t.tid ∧ (f t).pc = t.pc ∧ (f t).priv = t.priv ∧ (f t).ended = t.ended) : g.Passes P (g.modThread i f) where
  hdr := rfl
  sorted := Tab.sorted_map _ _
  found j := by
    rw [Workgroup.find_modThread]
    split <;> simp
  others j hj := by rw [Workgroup.thread_modThread_ne g i j f fun h => hj (h ▸ hi)]
  same j := ⟨Workgroup.read_modThread (·.tid) (fun t => (hf t).1) g i j, Workgroup.read_modThread (·.pc) (fun t => (hf t).2.1) g i j,
    Workgroup.read_modThread (·.priv) (fun t => (hf t).2.2.1) g i j, Workgroup.read_modThread (·.ended) (fun t => (hf t).2.2.2) g i j⟩
  bits _ _ _ h := h
  sets r hr _ := ⟨r, hr, rfl, fun _ h _ => h⟩

theorem Workgroup.passes_unset (g : Workgroup) {ts : List Nat} (hts : ∀ i ∈ ts, P i) : g.Passes P (g.unset ts) where
  hdr := rfl
  sorted := rfl
  found _ := rfl
  others _ _ := rfl
  same _ := ⟨rfl, rfl, rfl, rfl⟩
  bits _ _ _ h := h
  sets r hr := by
    rintro ⟨i, hi, hP⟩
    have hstays : ∀ j ∈ r.tids, ¬P j → j ∈ r.tids.filter fun t => !ts.contains t := fun j hj hPj =>
      List.mem_filter.mpr ⟨hj, by simpa using fun h => hPj (hts j h)⟩
    refine ⟨{ r with tids := r.tids.filter fun t => !ts.contains t }, List.mem_filter.mpr ⟨List.mem_map_of_mem hr, ?_⟩, rfl, hstays⟩
    simpa using List.ne_nil_of_mem (hstays i hi hP)

/-- Release sets are added. -/
theorem Workgroup.passes_addSets (P : Nat → Prop) (g : Workgroup) (rs : List RelSet) :
    g.Passes P { g with relSets := g.relSets ++ rs } :=
  { Workgroup.Passes.refl P g with sets := fun r hr _ => ⟨r, List.mem_append_left _ hr, rfl, fun _ h _ => h⟩ }

theorem Workgroup.passes_count (P : Nat → Prop) (g : Workgroup) (n m : Nat) : g.Passes P (g.count n m) :=
  { Workgroup.Passes.refl P g with }

/-- Bits of a mask after one of them is cleared. -/
theorem HWarp.bitK_setK_false (x : HWarp) (n i m j : Nat) :
    (x.setK n i false).bitK m j = (x.bitK m j && !(decide (m = n) && decide (j = i))) := by
  by_cases hj : j < 64
  · by_cases hm : m = n
    · by_cases hi : j = i
      · subst hi
        simp [HWarp.bitK, HWarp.setK, HWarp.writeK, HWarp.readK, setBit, hm, hj]
      · simp [HWarp.bitK, HWarp.setK, HWarp.writeK, HWarp.readK, setBit, hm, hj, hi]
    · simp [HWarp.bitK, HWarp.setK, HWarp.writeK, HWarp.readK, hm]
  · simp [HWarp.bitK, BitVec.getLsbD_of_ge _ _ (Nat.le_of_not_lt hj)]

theorem Workgroup.passes_clearK (P : Nat → Prop) (g : Workgroup) (h n i : Nat) : g.Passes P (g.modHw h (·.setK n i false)) :=
  { Workgroup.Passes.refl P g with
    bits := fun h' m j hb => by
      by_cases hh : h' = h
      · simp [Workgroup.hw, Workgroup.modHw, hh, HWarp.bitK_setK_false] at hb ⊢
        exact hb.1
      · simpa [Workgroup.hw, Workgroup.modHw, hh] using hb }

/-! ### The same in the state -/

theorem State.Passes.refl (w : Nat) (P : Nat → Prop) (s : State) : s.Passes w P s := ⟨rfl, fun _ _ _ => rfl, .refl P _⟩

theorem State.Passes.trans (h : s.Passes w P t) (h' : t.Passes w P u) : s.Passes w P u where
  mem := h'.mem.trans h.mem
  others v hv i := (h'.others v hv i).trans (h.others v hv i)
  wg := h.wg.trans h'.wg

theorem State.Passes.mono (h : s.Passes w P t) (hPQ : ∀ i, P i → Q i) : s.Passes w Q t := ⟨h.mem, h.others, h.wg.mono hPQ⟩

theorem State.Passes.stands (h : s.Passes w P t) (hi : ¬P i) : (t.thread w i).stands = (s.thread w i).stands := h.wg.others i hi

theorem State.Passes.othersStand (h : s.Passes w P t) : OthersStand s t w P := by
  intro v i hvi
  by_cases hv : v = w
  · subst hv
    exact h.stands fun hi => hvi ⟨rfl, hi⟩
  · exact h.others v hv i

theorem State.passes_modWg_here (s : State) (w : Nat) {f : Workgroup → Workgroup} (hf : (s.wgOf w).Passes P (f (s.wgOf w))) :
    s.Passes w P (s.modWg w f) where
  mem := rfl
  others v hv i := by rw [State.thread, s.wgOf_modWg_ne w v f hv, State.thread]
  wg := by
    cases h : Tab.find s.wgs w with
    | none => exact State.modWg_of_absent f h w ▸ .refl P _
    | some g => exact (s.wgOf_modWg w f (by simp [h])).symm ▸ hf

theorem State.passes_modWg (s : State) (w : Nat) {f : Workgroup → Workgroup} (hf : ∀ g : Workgroup, g.Passes P (f g)) :
    s.Passes w P (s.modWg w f) := s.passes_modWg_here w (hf _)

/-- Only threads change where groups can issue again. -/
theorem State.wgOf_unblock (s : State) (w : Nat) :
    ∃ F : Nat → Thread → Thread, s.unblock.wgOf w = { s.wgOf w with threads := Tab.map F (s.wgOf w).threads } := by
  simp only [State.wgOf, State.unblock, Tab.get, Tab.find_map]
  cases Tab.find s.wgs w with
  | none => exact ⟨fun _ t => t, rfl⟩
  | some g => exact ⟨_, rfl⟩

theorem State.passes_unblock (s : State) (w : Nat) (P : Nat → Prop) : s.Passes w P s.unblock where
  mem := rfl
  others v _ i := s.stands_unblock v i
  wg := by
    have hstay : ∀ i, ∃ b, (s.unblock.wgOf w).thread i = { (s.wgOf w).thread i with blocked := b } := s.thread_unblock w
    obtain ⟨F, hF⟩ := s.wgOf_unblock w
    exact {
      hdr := by rw [hF]
      sorted := by rw [hF]; exact Tab.sorted_map _ _
      found := fun i => by rw [hF]; simp
      others := fun i _ => s.stands_unblock w i
      same := fun i => by
        obtain ⟨b, hb⟩ := hstay i
        rw [hb]
        exact ⟨rfl, rfl, rfl, rfl⟩
      bits := fun h n i hb => by rwa [s.hw_unblock] at hb
      sets := fun r hr _ => ⟨r, by rw [hF]; exact hr, rfl, fun _ h _ => h⟩ }

theorem State.passes_join (s : State) (w : Nat) {ts : List Nat} (hts : ∀ i ∈ ts, P i) : s.Passes w P (s.join w ts) := by
  rw [State.join_eq_modWg]
  refine s.passes_modWg w fun g => ?_
  split
  · exact .refl P g
  · exact Workgroup.passes_foldl ts g fun k i hi => k.passes_modThread (hts i hi) fun _ => ⟨rfl, rfl, rfl, rfl⟩

/-! ### The threads of a table -/

/-- The entries a predicate picks, by their keys. -/
theorem Tab.mem_keys_filter {α : Type} {m : Tab α} (h : Tab.sorted m = true) (p : Nat × α → Bool) (i : Nat) :
    i ∈ (List.filter p m).map Prod.fst ↔ ∃ u, Tab.find m i = some u ∧ p (i, u) = true := by
  constructor
  · intro hi
    obtain ⟨⟨j, u⟩, hm, rfl⟩ := List.mem_map.mp hi
    obtain ⟨hm, hp⟩ := List.mem_filter.mp hm
    exact ⟨u, Tab.find_of_mem h hm, hp⟩
  · rintro ⟨u, hu, hp⟩
    exact List.mem_map.mpr ⟨(i, u), List.mem_filter.mpr ⟨Tab.mem_of_find m i u hu, hp⟩, rfl⟩

theorem Tab.nodup_keys_filter {α : Type} {m : Tab α} (h : Tab.sorted m = true) (p : Nat × α → Bool) :
    ((List.filter p m).map Prod.fst).Nodup :=
  (Tab.nodup_keys h).sublist (List.filter_sublist.map _)

/-- Threads stand in the table once, each under its number. -/
structure Workgroup.Keyed (g : Workgroup) : Prop where
  sorted : Tab.sorted g.threads = true
  tid : ∀ i u, Tab.find g.threads i = some u → u.tid = i

theorem State.Numbered.keyed (h : s.Numbered) (w : Nat) : (s.wgOf w).Keyed where
  sorted := State.sorted_threads h w
  tid i u hu := by
    have hw := State.find_wgs_of_thread hu
    exact ((h.2.1 _ (Tab.mem_of_find _ _ _ hw)).2 _ (Tab.mem_of_find _ _ _ hu)).1

theorem Workgroup.Passes.keyed (h : g.Passes P k) (hk : g.Keyed) : k.Keyed where
  sorted := h.sorted.trans hk.sorted
  tid i u hu := by
    have hf : (Tab.find g.threads i).isSome := by rw [← h.found i, hu]; rfl
    obtain ⟨x, hx⟩ := Option.isSome_iff_exists.mp hf
    rw [← Workgroup.thread_of_find hu, (h.same i).1, Workgroup.thread_of_find hx]
    exact hk.tid i x hx

theorem isThread_iff (s : State) (w : Nat) (f : Thread → Prop) (i : Nat) :
    IsThread s w f i ↔ (Tab.find (s.wgOf w).threads i).isSome ∧ f (s.thread w i) := by
  constructor
  · rintro ⟨u, hu, hf⟩
    exact ⟨by rw [hu]; rfl, by rwa [State.thread, Workgroup.thread_of_find hu]⟩
  · rintro ⟨hs, hf⟩
    obtain ⟨u, hu⟩ := Option.isSome_iff_exists.mp hs
    exact ⟨u, hu, by rwa [State.thread, Workgroup.thread_of_find hu] at hf⟩

theorem hold_of_stands {x y : Thread} (h : x.stands = y.stands) : x.hold = y.hold := congrArg (·.hold) h

/-- A thread that does not go on is held as before, in the same code. -/
theorem State.Passes.isThread_held (h : s.Passes w P t) (hi : ¬P i) (why : Hold) (priv : Bool) :
    IsThread t w (fun u => u.hold = why ∧ u.priv = priv) i ↔ IsThread s w (fun u => u.hold = why ∧ u.priv = priv) i := by
  have hpriv : (t.thread w i).priv = (s.thread w i).priv := (h.wg.same i).2.2.1
  rw [isThread_iff, isThread_iff, h.wg.found, hold_of_stands (h.stands hi), hpriv]

/-! ### Threads are ready again -/

theorem Workgroup.passes_release {ts : List Nat} (hts : ∀ i ∈ ts, P i) (g : Workgroup) (gathered : Bool) :
    g.Passes P (g.release [ts] gathered) := by
  have hflat : [ts].flatten = ts := List.append_nil ts
  have hready : g.Passes P (ts.foldl (fun g t => g.modThread t fun t => { t with hold := .ready }) g) :=
    g.passes_foldl ts fun k i hi => k.passes_modThread (hts i hi) fun _ => ⟨rfl, rfl, rfl, rfl⟩
  unfold Workgroup.release
  rw [hflat]
  exact (hready.trans (Workgroup.passes_unset _ hts)).trans (Workgroup.passes_addSets P _ _)

theorem Workgroup.thread_release {ts : List Nat} (hn : ts.Nodup) (hi : i ∈ ts) (hf : (Tab.find g.threads i).isSome) (gathered : Bool) :
    (g.release [ts] gathered).thread i = { g.thread i with hold := .ready } := by
  have hflat : [ts].flatten = ts := List.append_nil ts
  unfold Workgroup.release
  rw [hflat]
  exact Workgroup.thread_foldl_modThread_mem (fun t => { t with hold := .ready }) hn hi hf

theorem Workgroup.relSets_release {ts : List Nat} (hne : ts ≠ []) (g : Workgroup) (gathered : Bool) :
    ⟨ts, gathered⟩ ∈ (g.release [ts] gathered).relSets := by
  refine List.mem_append_right _ (List.mem_map_of_mem (List.mem_filter.mpr ⟨List.mem_singleton_self ts, ?_⟩))
  simpa using hne

/-! ### Arrivals -/

/-- The threads among some that stand at their meeting and are ready. -/
def State.arriving (s : State) (w : Nat) (ts : List Nat) : List Nat :=
  ts.filter fun t => let x := (s.wgOf w).thread t; !x.ended && !x.parked && x.hold == .ready && x.atMeeting

/-- The hold of a thread that arrives: at its meeting, or before it until it has settled. -/
def State.arrivalHold (s : State) (w : Nat) (x : Thread) : Hold :=
  if s.idle w x then .meeting (meetAddr x.meet) (meetMask x.meet) else .implicit

/-- An arriving thread waits in no release set any more. -/
def State.hold (s : State) (w i : Nat) (g : Workgroup) : Workgroup :=
  (g.modThread i fun x => { x with hold := s.arrivalHold w x }).unset [i]

theorem State.arrivalHold_ne_ready (s : State) (w : Nat) (x : Thread) : s.arrivalHold w x ≠ .ready := by
  unfold State.arrivalHold
  split <;> simp

/-- Threads that owe nothing arrive without a trap. -/
theorem State.arrive_eq {ts : List Nat} (hf : ∀ i ∈ ts, (s.thread w i).failed = []) :
    s.arrive w ts = s.modWg w fun g => (s.arriving w ts).foldl (fun g i => s.hold w i g) g := by
  have hnone : (s.arriving w ts).filter (fun t => s.idle w ((s.wgOf w).thread t) && !((s.wgOf w).thread t).failed.isEmpty) = [] := by
    refine List.filter_eq_nil_iff.mpr fun i hi => ?_
    have hf' : ((s.wgOf w).thread i).failed = [] := hf i (List.mem_filter.mp hi).1
    simp [hf']
  have hall : (s.arriving w ts).filter (fun t => !([] : List Nat).contains t) = s.arriving w ts := List.filter_eq_self.mpr fun _ _ => rfl
  unfold State.arrive
  dsimp only
  unfold State.arriving at hnone hall ⊢
  rw [hnone, State.trapOwed_nil, hall]
  rfl

theorem State.passes_hold (s : State) (hi : P i) (g : Workgroup) : g.Passes P (s.hold w i g) := by
  have hheld : g.Passes P (g.modThread i fun x => { x with hold := s.arrivalHold w x }) :=
    g.passes_modThread hi fun _ => ⟨rfl, rfl, rfl, rfl⟩
  exact hheld.trans (Workgroup.passes_unset _ fun j hj => List.mem_singleton.mp hj ▸ hi)

theorem State.passes_arrive {ts : List Nat} (hf : ∀ i ∈ ts, (s.thread w i).failed = []) :
    s.Passes w (· ∈ s.arriving w ts) (s.arrive w ts) := by
  rw [State.arrive_eq hf]
  exact s.passes_modWg w fun g => g.passes_foldl _ fun k i hi => s.passes_hold hi k

/-- Changes that do the same to the threads, one after another, do the same to the threads. -/
theorem foldl_threads_congr {α : Type} (ls : List α) {f f' : Workgroup → α → Workgroup}
    (h : ∀ g g' a, g.threads = g'.threads → (f g a).threads = (f' g' a).threads) {g g' : Workgroup} (e : g.threads = g'.threads) :
    (ls.foldl f g).threads = (ls.foldl f' g').threads := by
  induction ls generalizing g g' with
  | nil => exact e
  | cons a rest ih => exact ih (h g g' a e)

theorem Workgroup.thread_congr (e : g.threads = k.threads) (i : Nat) : g.thread i = k.thread i := by
  rw [Workgroup.thread, Workgroup.thread, e]

/-- A thread that arrives is held; another goes on. -/
theorem State.thread_arrive {ts : List Nat} (hf : ∀ i ∈ ts, (s.thread w i).failed = []) (hn : ts.Nodup)
    (hi : (Tab.find (s.wgOf w).threads i).isSome) : (s.arrive w ts).thread w i =
      if i ∈ s.arriving w ts then { s.thread w i with hold := s.arrivalHold w (s.thread w i) } else s.thread w i := by
  have hwgs : (Tab.find s.wgs w).isSome := by
    obtain ⟨u, hu⟩ := Option.isSome_iff_exists.mp hi
    rw [State.find_wgs_of_thread hu]
    rfl
  have hhold : ((s.arriving w ts).foldl (fun g i => s.hold w i g) (s.wgOf w)).threads = ((s.arriving w ts).foldl
      (fun g i => g.modThread i fun x => { x with hold := s.arrivalHold w x }) (s.wgOf w)).threads :=
    foldl_threads_congr _
      (fun g g' i e => congrArg (fun T => Tab.modify T i fun x : Thread => { x with hold := s.arrivalHold w x }) e) rfl
  rw [State.arrive_eq hf, State.thread, s.wgOf_modWg w _ hwgs, Workgroup.thread_congr hhold]
  split
  · next hin => exact Workgroup.thread_foldl_modThread_mem _ (hn.filter _) hin hi
  · next hout => exact Workgroup.thread_foldl_modThread_ne _ hout

theorem State.atMeeting_of_arriving {ts : List Nat} (hi : i ∈ s.arriving w ts) : (s.thread w i).atMeeting = true := by
  have := (List.mem_filter.mp hi).2
  simp only [Bool.and_eq_true] at this
  exact this.2

/-! ### Meetings (R89) -/

/-- The threads of home warp `h` held at a meeting, of the program or in a handler. -/
def MeetingHeld (s : State) (w h addr mask : Nat) (priv : Bool) (i : Nat) : Prop :=
  (s.wgOf w).home i = h ∧ IsThread s w (fun u => u.hold = .meeting addr mask ∧ u.priv = priv) i

theorem mem_heldAt (hk : (s.wgOf w).Keyed) (h addr mask : Nat) (priv : Bool) (i : Nat) :
    i ∈ (s.wgOf w).heldAt h addr mask priv ↔ MeetingHeld s w h addr mask priv i := by
  refine (Tab.mem_keys_filter hk.sorted _ i).trans ⟨?_, ?_⟩
  · rintro ⟨u, hu, hp⟩
    simp only [Bool.and_eq_true, beq_iff_eq, hk.tid i u hu] at hp
    obtain ⟨⟨hh, hpr⟩, hw⟩ := hp
    exact ⟨hh, u, hu, hw, hpr⟩
  · rintro ⟨hh, u, hu, hw, hpr⟩
    exact ⟨u, hu, by simp [hk.tid i u hu, hh, hpr, hw]⟩

theorem mem_named (hk : (s.wgOf w).Keyed) (h mask i : Nat) : i ∈ (s.wgOf w).named h mask ↔
    ∃ u, Tab.find (s.wgOf w).threads i = some u ∧ (s.wgOf w).home i = h ∧ u.ended = false ∧
      ((s.wgOf w).hw h).bitK mask ((s.wgOf w).laneOf i) = true := by
  refine (Tab.mem_keys_filter hk.sorted _ i).trans (exists_congr fun u => and_congr_right fun _ => ?_)
  simp [and_assoc]

/-- A mask is complete where every live thread it names is held. -/
theorem all_named_of_maskWithin (hk : (s.wgOf w).Keyed) {h mask : Nat} {p : Nat → Prop} (hm : MaskWithin s w h mask p)
    {held : List Nat} (hp : ∀ i, p i → i ∈ held) : ((s.wgOf w).named h mask).all held.contains = true := by
  refine List.all_eq_true.mpr fun i hi => ?_
  obtain ⟨u, hu, hh, he, hb⟩ := (mem_named hk h mask i).mp hi
  simpa using hp i (hm i u hu hh he hb)

/-- Threads pop their meeting entries, and their bits of the mask are cleared. -/
def Workgroup.popAll (g : Workgroup) (h mask : Nat) (ts : List Nat) : Workgroup :=
  ts.foldl (fun g t => (g.modThread t Thread.popMeet).modHw h (·.setK mask (g.laneOf t) false)) g

theorem Thread.popMeet_same (t : Thread) :
    t.popMeet.tid = t.tid ∧ t.popMeet.pc = t.pc ∧ t.popMeet.priv = t.priv ∧ t.popMeet.ended = t.ended := by
  unfold Thread.popMeet
  split <;> exact ⟨rfl, rfl, rfl, rfl⟩

theorem Workgroup.passes_popAll {ts : List Nat} (hts : ∀ i ∈ ts, P i) (g : Workgroup) (h mask : Nat) :
    g.Passes P (g.popAll h mask ts) :=
  g.passes_foldl ts fun k i hi => (k.passes_modThread (hts i hi) Thread.popMeet_same).trans (Workgroup.passes_clearK P _ h mask _)

theorem Workgroup.thread_popAll {ts : List Nat} (hn : ts.Nodup) (hi : i ∈ ts) (hf : (Tab.find g.threads i).isSome) (h mask : Nat) :
    (g.popAll h mask ts).thread i = (g.thread i).popMeet := by
  have hpop : (g.popAll h mask ts).threads = (ts.foldl (fun g t => g.modThread t Thread.popMeet) g).threads :=
    foldl_threads_congr ts (fun g g' i e => congrArg (Tab.modify · i Thread.popMeet) e) rfl
  rw [Workgroup.thread_congr hpop]
  exact Workgroup.thread_foldl_modThread_mem _ hn hi hf

/-- Something that one step of a fold reaches, and every step keeps, holds in the end. -/
theorem foldl_reaches {α β : Type} {J K : β → Prop} {f : β → α → β} {ls : List α} {a : α} (ha : a ∈ ls) {b : β} (hb : J b)
    (hJ : ∀ x ∈ ls, ∀ b, J b → J (f b x)) (hK : ∀ x ∈ ls, ∀ b, J b → K b → K (f b x)) (hstep : ∀ b, J b → K (f b a)) :
    J (ls.foldl f b) ∧ K (ls.foldl f b) := by
  induction ls generalizing b with
  | nil => cases ha
  | cons x rest ih =>
    have hJ' : ∀ y ∈ rest, ∀ b, J b → J (f b y) := fun y hy => hJ y (List.mem_cons_of_mem _ hy)
    have hK' : ∀ y ∈ rest, ∀ b, J b → K b → K (f b y) := fun y hy => hK y (List.mem_cons_of_mem _ hy)
    have hx : J (f b x) := hJ x List.mem_cons_self b hb
    rcases List.mem_cons.mp ha with rfl | ha
    · exact List.foldlRecOn (motive := fun c => J c ∧ K c) rest f ⟨hx, hstep b hb⟩ fun c hc y hy =>
        ⟨hJ' y hy c hc.1, hK' y hy c hc.1 hc.2⟩
    · exact ih ha hx hJ' hK'

theorem Workgroup.bitK_popAll {ts : List Nat} (hi : i ∈ ts) (g : Workgroup) (h mask : Nat) :
    ((g.popAll h mask ts).hw h).bitK mask (g.laneOf i) = false := by
  refine (foldl_reaches (J := fun k : Workgroup => k.hdr = g.hdr) (K := fun k => (k.hw h).bitK mask (g.laneOf i) = false)
    (f := fun g t => (g.modThread t Thread.popMeet).modHw h (·.setK mask (g.laneOf t) false)) hi rfl (fun _ _ _ hk => hk) (fun j _ k _ hk => ?_) fun k hk => ?_).2
  · have hstep : (k.modThread j Thread.popMeet).Passes (fun _ => True) _ :=
      Workgroup.passes_clearK (fun _ => True) (k.modThread j Thread.popMeet) h mask (k.laneOf j)
    exact Bool.eq_false_iff.mpr fun hb => Bool.eq_false_iff.mp hk (hstep.bits h mask _ hb)
  · have hlane : g.laneOf i = k.laneOf i := by rw [Workgroup.laneOf, Workgroup.laneOf, ← hk]
    simp [Workgroup.modHw, Workgroup.hw, HWarp.bitK_setK_false, hlane]

/-- The threads of a meeting are released: popped, and ready as one release set. -/
def State.popped (s : State) (w h mask : Nat) (ts : List Nat) : State :=
  (s.join w ts).modWg w fun g => ((g.popAll h mask ts).release [ts] false).count 2 1

theorem releaseMeeting_of_ready {h addr mask : Nat} {priv : Bool} (hr : (s.wgOf w).meetingReady h addr mask priv = true) :
    s.releaseMeeting w h addr mask priv =
      ((s.popped w h mask ((s.wgOf w).heldAt h addr mask priv)).arrive w ((s.wgOf w).heldAt h addr mask priv)).unblock :=
  if_pos hr

theorem State.passes_popped {ts : List Nat} (hts : ∀ i ∈ ts, P i) (s : State) (w h mask : Nat) :
    s.Passes w P (s.popped w h mask ts) :=
  (s.passes_join w hts).trans (State.passes_modWg _ w fun g => ((g.passes_popAll hts h mask).trans
    (Workgroup.passes_release hts _ false)).trans (Workgroup.passes_count P _ 2 1))

theorem Workgroup.thread_modThread_or (g : Workgroup) (i j : Nat) (f : Thread → Thread) :
    (g.modThread i f).thread j = g.thread j ∨ (g.modThread i f).thread j = f (g.thread j) := by
  by_cases hj : j = i
  · subst hj
    cases hf : Tab.find g.threads j with
    | none => exact .inl (by simp [Workgroup.thread, Workgroup.modThread, Tab.get, hf])
    | some u => exact .inr (g.thread_modThread j f (by rw [hf]; rfl))
  · exact .inl (g.thread_modThread_ne i j f hj)

theorem State.thread_join (s : State) (w i : Nat) (ts : List Nat) :
    ∃ j, (s.join w ts).thread w i = { s.thread w i with joined := j } := by
  rw [State.join_eq_modWg]
  dsimp only
  cases hw : Tab.find s.wgs w with
  | none => exact ⟨_, congrArg (·.thread i) (State.modWg_of_absent _ hw w)⟩
  | some g =>
    rw [State.thread, s.wgOf_modWg w _ (by rw [hw]; rfl)]
    split
    · exact ⟨_, rfl⟩
    · refine List.foldlRecOn (motive := fun k : Workgroup => ∃ j, k.thread i = { s.thread w i with joined := j }) ts _ ⟨_, rfl⟩
        fun k hk t _ => ?_
      obtain ⟨j, hj⟩ := hk
      rcases k.thread_modThread_or t i (fun t => { t with joined := _ }) with h | h
      · exact ⟨j, h.trans hj⟩
      · exact ⟨_, h.trans (by rw [hj])⟩

theorem Thread.popMeet_joined (t : Thread) (j : List Nat) : { t with joined := j }.popMeet = { t.popMeet with joined := j } := by
  unfold Thread.popMeet
  split <;> rfl

theorem State.find_wgs_of_isSome (hi : (Tab.find (s.wgOf w).threads i).isSome) : (Tab.find s.wgs w).isSome := by
  obtain ⟨u, hu⟩ := Option.isSome_iff_exists.mp hi
  rw [State.find_wgs_of_thread hu]
  rfl

section
variable {ts : List Nat} {h mask : Nat}

theorem State.wgOf_popped (hw : (Tab.find s.wgs w).isSome) : (s.popped w h mask ts).wgOf w =
    ((((s.join w ts).wgOf w).popAll h mask ts).release [ts] false).count 2 1 := by
  rw [State.popped, State.wgOf_modWg]
  rw [State.join_eq_modWg]
  exact (State.find_modWg_isSome s w w _).trans hw

theorem State.thread_popped (hn : ts.Nodup) (hin : i ∈ ts) (hi : (Tab.find (s.wgOf w).threads i).isSome) :
    ∃ j, (s.popped w h mask ts).thread w i = { (s.thread w i).popMeet with joined := j, hold := .ready } := by
  obtain ⟨j, hj⟩ := s.thread_join w i ts
  have hj' : ((s.join w ts).wgOf w).thread i = { s.thread w i with joined := j } := hj
  have hi' : (Tab.find ((s.join w ts).wgOf w).threads i).isSome :=
    ((s.passes_join w (P := fun _ => True) (ts := ts) fun _ _ => trivial).wg.found i).trans hi
  have hpop := ((s.join w ts).wgOf w).passes_popAll (P := fun _ => True) (ts := ts) (fun _ _ => trivial) h mask
  have hcount : (s.popped w h mask ts).thread w i = ((((s.join w ts).wgOf w).popAll h mask ts).release [ts] false).thread i := by
    rw [State.thread, State.wgOf_popped (State.find_wgs_of_isSome hi)]
    rfl
  refine ⟨j, ?_⟩
  rw [hcount, Workgroup.thread_release hn hin ((hpop.found i).trans hi'), Workgroup.thread_popAll hn hin hi', hj',
    Thread.popMeet_joined]

theorem State.bitK_popped (hin : i ∈ ts) (hw : (Tab.find s.wgs w).isSome) :
    (((s.popped w h mask ts).wgOf w).hw h).bitK mask ((s.wgOf w).laneOf i) = false := by
  have hjoin := (s.passes_join w (P := fun _ => True) (ts := ts) fun _ _ => trivial).wg
  have hrel := (((s.join w ts).wgOf w).popAll h mask ts).passes_release (P := fun _ => True) (ts := ts) (fun _ _ => trivial) false
  have hlane : (s.wgOf w).laneOf i = ((s.join w ts).wgOf w).laneOf i := by rw [Workgroup.laneOf, Workgroup.laneOf, hjoin.hdr]
  rw [State.wgOf_popped hw, hlane]
  exact Bool.eq_false_iff.mpr fun hb =>
    Bool.eq_false_iff.mp (Workgroup.bitK_popAll hin ((s.join w ts).wgOf w) h mask) (hrel.bits h mask _ hb)

theorem State.relSets_popped (hne : ts ≠ []) (hw : (Tab.find s.wgs w).isSome) :
    ⟨ts, false⟩ ∈ ((s.popped w h mask ts).wgOf w).relSets := by
  rw [State.wgOf_popped hw]
  exact Workgroup.relSets_release hne _ false

end

/-- What a release of a meeting is, of the threads `p` names: each pops its entry, stands where it stood, and is ready unless it
stands at its next meeting; its bit is cleared; and those that are ready go on together. -/
def MeetingOver (s t : State) (w h mask : Nat) (p : Nat → Prop) : Prop :=
  (∀ i, p i → (0 < (s.thread w i).depth → (t.thread w i).depth + 1 = (s.thread w i).depth ∧
      (t.thread w i).meet = Tab.get 0 (s.thread w i).entries ((s.thread w i).depth - 1)) ∧
    ((s.thread w i).depth = 0 → (t.thread w i).depth = 0 ∧ (t.thread w i).meet = 0) ∧
    (t.thread w i).pc = (s.thread w i).pc ∧ ((t.thread w i).atMeeting = false → (t.thread w i).hold = .ready) ∧
    ((t.wgOf w).hw h).bitK mask ((s.wgOf w).laneOf i) = false) ∧
  ∀ i j, p i → p j → (t.thread w i).hold = .ready → (t.thread w j).hold = .ready →
    ∃ r ∈ (t.wgOf w).relSets, i ∈ r.tids ∧ j ∈ r.tids

theorem Thread.eq_of_stands {x y : Thread} (h : x.stands = y.stands) : x = { y with blocked := x.blocked } :=
  congrArg (fun z : Thread => { z with blocked := x.blocked }) h

section
variable {h addr mask : Nat} {priv : Bool}

theorem found_of_meetingHeld (hi : MeetingHeld s w h addr mask priv i) : (Tab.find (s.wgOf w).threads i).isSome :=
  ((isThread_iff s w _ i).mp hi.2).1

/-- What a thread has become that a meeting released; it is held again only at its next meeting. -/
theorem thread_arrive_popped {ts : List Nat} (hn : ts.Nodup) (hin : i ∈ ts) (hi : (Tab.find (s.wgOf w).threads i).isSome)
    (hf : ∀ i ∈ ts, ((s.popped w h mask ts).thread w i).failed = []) :
    ∃ j b a, ((s.popped w h mask ts).arrive w ts).unblock.thread w i =
        { (s.thread w i).popMeet with joined := j, blocked := b, hold := a } ∧
      (i ∉ (s.popped w h mask ts).arriving w ts → a = .ready) ∧
      (i ∈ (s.popped w h mask ts).arriving w ts → a ≠ .ready ∧ { (s.thread w i).popMeet with joined := j }.atMeeting = true) := by
  obtain ⟨j, hj⟩ := s.thread_popped (h := h) (mask := mask) hn hin hi
  have hi' : (Tab.find ((s.popped w h mask ts).wgOf w).threads i).isSome :=
    ((s.passes_popped (P := fun _ => True) (ts := ts) (fun _ _ => trivial) w h mask).wg.found i).trans hi
  obtain ⟨b, hb⟩ := ((s.popped w h mask ts).arrive w ts).thread_unblock w i
  rw [hb, State.thread_arrive hf hn hi']
  split
  · next hin' =>
    rw [hj]
    refine ⟨j, b, _, rfl, fun hout => absurd hin' hout, fun _ => ⟨State.arrivalHold_ne_ready _ w _, ?_⟩⟩
    have := State.atMeeting_of_arriving hin'
    rw [hj] at this
    exact this
  · next hout => exact ⟨j, b, .ready, by rw [hj], fun _ => rfl, fun hin' => absurd hin' hout⟩

theorem failed_popped {ts : List Nat} (hn : ts.Nodup) (hts : ∀ i ∈ ts, (Tab.find (s.wgOf w).threads i).isSome)
    (hf : ∀ i ∈ ts, (s.thread w i).failed = []) : ∀ i ∈ ts, ((s.popped w h mask ts).thread w i).failed = [] := by
  intro i hin
  obtain ⟨j, hj⟩ := s.thread_popped (h := h) (mask := mask) hn hin (hts i hin)
  have hpop : (s.thread w i).popMeet.failed = (s.thread w i).failed := by
    unfold Thread.popMeet
    split <;> rfl
  rw [hj, ← hf i hin, ← hpop]

/-- The release of a meeting changes the threads held there. -/
theorem passes_releaseMeeting (hk : (s.wgOf w).Keyed) (hf : ∀ i, MeetingHeld s w h addr mask priv i → (s.thread w i).failed = []) :
    s.Passes w (MeetingHeld s w h addr mask priv) (s.releaseMeeting w h addr mask priv) := by
  have hmem := mem_heldAt hk h addr mask priv
  have hn : ((s.wgOf w).heldAt h addr mask priv).Nodup := Tab.nodup_keys_filter hk.sorted _
  cases hr : (s.wgOf w).meetingReady h addr mask priv with
  | false => rw [State.releaseMeeting, hr, if_neg Bool.false_ne_true]; exact .refl w _ s
  | true =>
    rw [releaseMeeting_of_ready hr]
    have hfailed := failed_popped (h := h) (mask := mask) hn (fun i hi => found_of_meetingHeld ((hmem i).mp hi))
      fun i hi => hf i ((hmem i).mp hi)
    refine ((s.passes_popped (fun i hi => (hmem i).mp hi) w h mask).trans ?_).trans (State.passes_unblock _ w _)
    exact (State.passes_arrive hfailed).mono fun i hi => (hmem i).mp (List.mem_filter.mp hi).1

/-- A complete meeting is over. -/
theorem meetingOver_releaseMeeting (hk : (s.wgOf w).Keyed)
    (hf : ∀ i, MeetingHeld s w h addr mask priv i → (s.thread w i).failed = [])
    (hne : ∃ i, MeetingHeld s w h addr mask priv i) (hm : MaskWithin s w h mask (MeetingHeld s w h addr mask priv)) :
    MeetingOver s (s.releaseMeeting w h addr mask priv) w h mask (MeetingHeld s w h addr mask priv) := by
  have hmem := mem_heldAt hk h addr mask priv
  have hn : ((s.wgOf w).heldAt h addr mask priv).Nodup := Tab.nodup_keys_filter hk.sorted _
  obtain ⟨i0, hi0⟩ := hne
  have hne' : (s.wgOf w).heldAt h addr mask priv ≠ [] := List.ne_nil_of_mem ((hmem i0).mpr hi0)
  have hr : (s.wgOf w).meetingReady h addr mask priv = true := by
    rw [Workgroup.meetingReady]
    simp only [all_named_of_maskWithin hk hm fun i hi => (hmem i).mpr hi, Bool.and_true]
    simpa using hne'
  have hfailed := failed_popped (h := h) (mask := mask) hn (fun i hi => found_of_meetingHeld ((hmem i).mp hi))
    fun i hi => hf i ((hmem i).mp hi)
  rw [releaseMeeting_of_ready hr]
  generalize (s.wgOf w).heldAt h addr mask priv = ts at hmem hn hne' hfailed
  have hgo := (State.passes_arrive hfailed).trans (State.passes_unblock ((s.popped w h mask ts).arrive w ts) w _)
  refine ⟨fun i hi => ?_, fun i j hi hj hri hrj => ?_⟩
  · obtain ⟨j, b, a, ht, hready, hheld⟩ := thread_arrive_popped (h := h) (mask := mask) hn ((hmem i).mpr hi) (found_of_meetingHeld hi) hfailed
    have hbit := s.bitK_popped (w := w) (h := h) (mask := mask) ((hmem i).mpr hi) (State.find_wgs_of_isSome (found_of_meetingHeld hi))
    rw [ht]
    refine ⟨fun hd => ?_, fun hd => ?_, (Thread.popMeet_same _).2.1, fun hat => ?_,
      Bool.eq_false_iff.mpr fun hb => Bool.eq_false_iff.mp hbit (hgo.wg.bits h mask _ hb)⟩
    · rw [Thread.popMeet, if_neg (Nat.ne_of_gt hd)]
      exact ⟨Nat.sub_add_cancel hd, rfl⟩
    · rw [Thread.popMeet, if_pos hd]
      exact ⟨hd, rfl⟩
    · exact hready fun hin => Bool.eq_false_iff.mp hat (hheld hin).2
  · have hout : ∀ i, MeetingHeld s w h addr mask priv i →
        (((s.popped w h mask ts).arrive w ts).unblock.thread w i).hold = .ready → i ∉ (s.popped w h mask ts).arriving w ts := by
      intro i hi hready hin
      obtain ⟨j, b, a, ht, -, hheld⟩ := thread_arrive_popped (h := h) (mask := mask) hn ((hmem i).mpr hi) (found_of_meetingHeld hi) hfailed
      rw [ht] at hready
      exact (hheld hin).1 hready
    obtain ⟨r, hr', -, hall⟩ := hgo.wg.sets ⟨ts, false⟩
      (s.relSets_popped hne' (State.find_wgs_of_isSome (found_of_meetingHeld hi))) ⟨i, (hmem i).mpr hi, hout i hi hri⟩
    exact ⟨r, hr', hall i ((hmem i).mpr hi) (hout i hi hri), hall j ((hmem j).mpr hj) (hout j hj hrj)⟩

/-- A meeting that is over stays over where other threads go on. -/
theorem MeetingOver.passes {p : Nat → Prop} (ho : MeetingOver s t w h mask p) (ht : t.Passes w P u) (hd : ∀ i, p i → ¬P i) :
    MeetingOver s u w h mask p := by
  refine ⟨fun i hi => ?_, fun i j hi hj hri hrj => ?_⟩
  · obtain ⟨hpop, hlast, hpc, hready, hbit⟩ := ho.1 i hi
    rw [Thread.eq_of_stands (ht.stands (hd i hi))]
    exact ⟨hpop, hlast, hpc, hready, Bool.eq_false_iff.mpr fun hb => Bool.eq_false_iff.mp hbit (ht.wg.bits h mask _ hb)⟩
  · rw [hold_of_stands (ht.stands (hd i hi))] at hri
    rw [hold_of_stands (ht.stands (hd j hj))] at hrj
    obtain ⟨r, hr, hir, hjr⟩ := ho.2 i j hi hj hri hrj
    obtain ⟨q, hq, -, hall⟩ := ht.wg.sets r hr ⟨i, hir, hd i hi⟩
    exact ⟨q, hq, hall i hir (hd i hi), hall j hjr (hd j hj)⟩

/-- Where other threads went on before it, it is over all the same. -/
theorem MeetingOver.after {p : Nat → Prop} (ho : MeetingOver t u w h mask p) (ht : s.Passes w P t) (hd : ∀ i, p i → ¬P i) :
    MeetingOver s u w h mask p := by
  refine ⟨fun i hi => ?_, ho.2⟩
  have hlane : (t.wgOf w).laneOf i = (s.wgOf w).laneOf i := by rw [Workgroup.laneOf, Workgroup.laneOf, ht.wg.hdr]
  have hover := ho.1 i hi
  rw [Thread.eq_of_stands (ht.stands (hd i hi)), hlane] at hover
  exact hover

/-- The threads of a complete mask are those of it before other threads went on. -/
theorem State.Passes.maskWithin (ht : s.Passes w P t) {p : Nat → Prop} (hm : MaskWithin s w h mask p) : MaskWithin t w h mask p := by
  intro i u hu hh he hb
  have hi : (Tab.find (s.wgOf w).threads i).isSome := by rw [← ht.wg.found i, hu]; rfl
  obtain ⟨x, hx⟩ := Option.isSome_iff_exists.mp hi
  rw [Workgroup.home, ht.wg.hdr] at hh
  rw [Workgroup.laneOf, ht.wg.hdr] at hb
  refine hm i x hx hh ?_ (ht.wg.bits h mask _ hb)
  rw [← Workgroup.thread_of_find hx, ← (ht.wg.same i).2.2.2, Workgroup.thread_of_find hu, he]

/-- Threads go on in one code: those of the other are held at the meeting as before. -/
theorem State.Passes.meetingHeld (ht : s.Passes w (MeetingHeld s w h addr mask false) t) :
    MeetingHeld t w h addr mask true = MeetingHeld s w h addr mask true := by
  funext i
  have hhome : (t.wgOf w).home i = (s.wgOf w).home i := by rw [Workgroup.home, Workgroup.home, ht.wg.hdr]
  by_cases hi : MeetingHeld s w h addr mask false i
  · have hpriv : (s.thread w i).priv = false := ((isThread_iff s w _ i).mp hi.2).2.2
    refine propext ⟨fun hheld => ?_, fun hheld => ?_⟩
    · have : (s.thread w i).priv = true := (ht.wg.same i).2.2.1.symm.trans ((isThread_iff t w _ i).mp hheld.2).2.2
      exact absurd (hpriv.symm.trans this) Bool.false_ne_true
    · exact absurd (hpriv.symm.trans ((isThread_iff s w _ i).mp hheld.2).2.2) Bool.false_ne_true
  · exact propext (and_congr (by rw [hhome]) (ht.isThread_held hi _ true))

end

theorem execMeetingRelease_releases (s : State) (w h addr mask : Nat) (hn : s.Numbered)
    (hf : ∀ pr i, MeetingHeld s w h addr mask pr i → (s.thread w i).failed = []) :
    ∃ t, exec (.meetingRelease w h addr mask) s = .next t ∧ t.mem = s.mem ∧
      OthersStand s t w (fun i => ∃ pr, MeetingHeld s w h addr mask pr i) ∧
      ∀ pr, (∃ i, MeetingHeld s w h addr mask pr i) → MaskWithin s w h mask (MeetingHeld s w h addr mask pr) →
        MeetingOver s t w h mask (MeetingHeld s w h addr mask pr) := by
  have hk := hn.keyed w
  have hexec : exec (.meetingRelease w h addr mask) s =
      .next ((s.releaseMeeting w h addr mask false).releaseMeeting w h addr mask true) := rfl
  have hfirst := passes_releaseMeeting hk (hf false)
  have hfirstOver := meetingOver_releaseMeeting hk (hf false)
  generalize s.releaseMeeting w h addr mask false = s1 at hexec hfirst hfirstOver
  have hk1 := hfirst.wg.keyed hk
  have hsame := hfirst.meetingHeld
  have hapart : ∀ i, MeetingHeld s w h addr mask true i → ¬MeetingHeld s w h addr mask false i := fun i hi hi' =>
    absurd (((isThread_iff s w _ i).mp hi'.2).2.2.symm.trans ((isThread_iff s w _ i).mp hi.2).2.2) Bool.false_ne_true
  have hf1 : ∀ i, MeetingHeld s1 w h addr mask true i → (s1.thread w i).failed = [] := by
    intro i hi
    rw [hsame] at hi
    rw [Thread.eq_of_stands (hfirst.stands (hapart i hi))]
    exact hf true i hi
  have hsecond := passes_releaseMeeting hk1 hf1
  rw [hsame] at hsecond
  have hboth := (hfirst.mono fun i hi => (⟨false, hi⟩ : ∃ pr, MeetingHeld s w h addr mask pr i)).trans
    (hsecond.mono fun i hi => ⟨true, hi⟩)
  refine ⟨s1.releaseMeeting w h addr mask true, hexec, hboth.mem, hboth.othersStand, fun pr hne hm => ?_⟩
  cases pr with
  | false => exact (hfirstOver hne hm).passes hsecond fun i hi hi' => hapart i hi' hi
  | true =>
    have hover := meetingOver_releaseMeeting hk1 hf1 (hsame ▸ hne) (hsame ▸ hfirst.maskWithin hm)
    rw [hsame] at hover
    exact hover.after hfirst hapart

/-! ### Kinds of holds before one group (R93, R110, R124) -/

/-- Kinds of holds before a group whose threads a step releases, kind after kind: which threads of a workgroup are held so, and
when they go on. -/
structure HoldKinds (ι : Type) where
  held : ι → Workgroup → List Nat
  ready : ι → Workgroup → Bool
  why : ι → Hold
  priv : ι → Bool
  place : Hdr → Nat → Prop
  pc : PC
  mem : ∀ x (g : Workgroup), g.Keyed → ∀ i, i ∈ held x g ↔ place g.hdr i ∧
    ∃ u, Tab.find g.threads i = some u ∧ u.pc = pc ∧ u.hold = why x ∧ u.priv = priv x
  nodup : ∀ x (g : Workgroup), g.Keyed → (held x g).Nodup
  waits : ∀ x, why x ≠ .ready
  apart : ∀ x y, why x = why y → priv x = priv y → x = y

section
variable {ι : Type} (F : HoldKinds ι) {x y : ι} {b : State} {ls : List ι}

/-- The threads held in one of the kinds. -/
def HoldKinds.At (s : State) (w : Nat) (x : ι) (i : Nat) : Prop :=
  F.place (s.wgOf w).hdr i ∧ IsThread s w (fun u => u.pc = F.pc ∧ u.hold = F.why x ∧ u.priv = F.priv x) i

/-- Those of a kind go on where it is complete. -/
def HoldKinds.step (w : Nat) (s : State) (x : ι) : State :=
  if F.ready x (s.wgOf w) then (s.modWg w fun g => (g.release [F.held x g]).count 2 1).unblock else s

/-- The threads of a kind have gone on together. -/
def HoldKinds.Gone (s : State) (w : Nat) (x : ι) (b : State) : Prop :=
  GoTogether b w (F.At s w x) true ∧ ∀ i, F.At s w x i → (b.thread w i).hold = .ready

/-- What holds along the steps from `s`: threads of the kinds alone go on, a hold only ends, and those of kind `x` stand or have
gone on together. -/
structure HoldKinds.Along (s : State) (w : Nat) (ls : List ι) (x : ι) (b : State) : Prop where
  passes : s.Passes w (fun i => ∃ y ∈ ls, F.At s w y i) b
  hold : ∀ i, (b.thread w i).hold = (s.thread w i).hold ∨ (b.thread w i).hold = .ready
  goal : (∀ i, F.At s w x i → (b.thread w i).stands = (s.thread w i).stands) ∨ F.Gone s w x b

variable {F}

theorem HoldKinds.mem_held (hk : (s.wgOf w).Keyed) : i ∈ F.held x (s.wgOf w) ↔ F.At s w x i := F.mem x _ hk i

theorem HoldKinds.At.found (h : F.At s w x i) : (Tab.find (s.wgOf w).threads i).isSome := ((isThread_iff s w _ i).mp h.2).1

theorem HoldKinds.At.hold (h : F.At s w x i) : (s.thread w i).hold = F.why x := ((isThread_iff s w _ i).mp h.2).2.2.1

theorem HoldKinds.At.priv (h : F.At s w x i) : (s.thread w i).priv = F.priv x := ((isThread_iff s w _ i).mp h.2).2.2.2

/-- A thread stands before one group in one kind of hold. -/
theorem HoldKinds.At.unique (hx : F.At s w x i) (hy : F.At s w y i) : x = y :=
  F.apart x y (hx.hold.symm.trans hy.hold) (hx.priv.symm.trans hy.priv)

/-- A thread whose hold stands is held as before. -/
theorem HoldKinds.at_iff_of_passes (ht : s.Passes w P t) (hh : (t.thread w i).hold = (s.thread w i).hold) :
    F.At t w x i ↔ F.At s w x i := by
  obtain ⟨-, hpc, hpriv, -⟩ := ht.wg.same i
  have hpc' : (t.thread w i).pc = (s.thread w i).pc := hpc
  have hpriv' : (t.thread w i).priv = (s.thread w i).priv := hpriv
  rw [HoldKinds.At, HoldKinds.At, isThread_iff, isThread_iff, ht.wg.hdr, ht.wg.found, hh, hpc', hpriv']

/-- A step changes the threads of its kind. -/
theorem HoldKinds.passes_step (hk : (s.wgOf w).Keyed) (x : ι) : s.Passes w (F.At s w x) (F.step w s x) := by
  unfold HoldKinds.step
  split
  · refine (s.passes_modWg_here w ?_).trans (State.passes_unblock _ w _)
    exact (Workgroup.passes_release (fun i hi => (HoldKinds.mem_held hk).mp hi) _ true).trans (Workgroup.passes_count _ _ 2 1)
  · exact .refl w _ s

/-- Those of a complete kind go on together. -/
theorem HoldKinds.gone_step (hk : (s.wgOf w).Keyed) (hr : F.ready x (s.wgOf w) = true) (hne : ∃ i, F.At s w x i) :
    F.Gone s w x (F.step w s x) := by
  obtain ⟨i0, hi0⟩ := hne
  have hw : (Tab.find s.wgs w).isSome := State.find_wgs_of_isSome hi0.found
  have hheld : F.held x (s.wgOf w) ≠ [] := List.ne_nil_of_mem ((HoldKinds.mem_held hk).mpr hi0)
  have hstep : F.step w s x = (s.modWg w fun g => (g.release [F.held x g]).count 2 1).unblock := if_pos hr
  have hrel : (s.modWg w fun g => (g.release [F.held x g]).count 2 1).wgOf w =
      ((s.wgOf w).release [F.held x (s.wgOf w)]).count 2 1 := s.wgOf_modWg w _ hw
  rw [hstep]
  refine ⟨⟨⟨F.held x (s.wgOf w), true⟩, ?_, rfl, fun i hi => (HoldKinds.mem_held hk).mpr hi⟩, fun i hi => ?_⟩
  · obtain ⟨T, hT⟩ := (s.modWg w fun g => (g.release [F.held x g]).count 2 1).wgOf_unblock w
    rw [hT, hrel]
    exact Workgroup.relSets_release hheld (s.wgOf w) true
  · obtain ⟨b, hb⟩ := (s.modWg w fun g => (g.release [F.held x g]).count 2 1).thread_unblock w i
    have hthread := Workgroup.thread_release (F.nodup x _ hk) ((HoldKinds.mem_held hk).mpr hi) hi.found true
    rw [hb, State.thread, hrel]
    exact congrArg (·.hold) hthread

/-- Where a kind is not complete nothing happens; the threads of it are ready afterwards, or held as before. -/
theorem HoldKinds.hold_step (hk : (s.wgOf w).Keyed) (x : ι) (i : Nat) :
    ((F.step w s x).thread w i).hold = (s.thread w i).hold ∨ ((F.step w s x).thread w i).hold = .ready := by
  by_cases hi : F.At s w x i
  · cases hr : F.ready x (s.wgOf w) with
    | true => exact .inr ((HoldKinds.gone_step hk hr ⟨i, hi⟩).2 i hi)
    | false => exact .inl (by rw [HoldKinds.step, hr, if_neg Bool.false_ne_true])
  · exact .inl (hold_of_stands ((HoldKinds.passes_step hk x).stands hi))

/-- Threads that have gone on together stay so where others go on. -/
theorem HoldKinds.Gone.passes (hg : F.Gone s w x t) (hne : ∃ i, F.At s w x i) (ht : t.Passes w P u) (hd : ∀ i, F.At s w x i → ¬P i) :
    F.Gone s w x u := by
  obtain ⟨⟨r, hr, hgath, hall⟩, hready⟩ := hg
  obtain ⟨i, hi⟩ := hne
  obtain ⟨q, hq, hgath', hall'⟩ := ht.wg.sets r hr ⟨i, hall i hi, hd i hi⟩
  exact ⟨⟨q, hq, hgath'.trans hgath, fun j hj => hall' j (hall j hj) (hd j hj)⟩,
    fun j hj => (hold_of_stands (ht.stands (hd j hj))).trans (hready j hj)⟩

/-- Threads are held in a kind along the steps only if they were so before them. -/
theorem HoldKinds.Along.at_of_at (h : F.Along s w ls x b) (hi : F.At b w y i) : F.At s w y i := by
  rcases h.hold i with hh | hh
  · exact (HoldKinds.at_iff_of_passes h.passes hh).mp hi
  · exact absurd (hi.hold.symm.trans hh) (F.waits y)

section
variable (hk : (s.wgOf w).Keyed) (hne : ∃ i, F.At s w x i) (hready : ∀ b, s.Passes w (fun i => ∃ y ∈ ls, F.At s w y i) b →
  (∀ i, F.At s w x i → F.At b w x i) → F.ready x (b.wgOf w) = true)
include hk hne

/-- The step of another kind, or of the threads that have gone on, leaves them together. -/
theorem HoldKinds.Gone.step (hg : F.Gone s w x b) (h : F.Along s w ls x b) (y : ι) : F.Gone s w x (F.step w b y) :=
  hg.passes hne (HoldKinds.passes_step (h.passes.wg.keyed hk) y) fun i hi hi' => F.waits y (hi'.hold.symm.trans (hg.2 i hi))

include hready

/-- The step of the kind that is complete lets its threads go on. -/
theorem HoldKinds.Along.gone_step (h : F.Along s w ls x b) : F.Gone s w x (F.step w b x) := by
  rcases h.goal with hstand | hg
  · have hat : ∀ i, F.At s w x i → F.At b w x i := fun i hi =>
      (HoldKinds.at_iff_of_passes h.passes (hold_of_stands (hstand i hi))).mpr hi
    obtain ⟨i0, hi0⟩ := hne
    obtain ⟨⟨r, hr, hgath, hall⟩, hhold⟩ :=
      HoldKinds.gone_step (h.passes.wg.keyed hk) (hready b h.passes hat) ⟨i0, hat i0 hi0⟩
    exact ⟨⟨r, hr, hgath, fun i hi => hall i (hat i hi)⟩, fun i hi => hhold i (hat i hi)⟩
  · exact hg.step hk hne h x

theorem HoldKinds.Along.step (h : F.Along s w ls x b) (hy : y ∈ ls) : F.Along s w ls x (F.step w b y) where
  passes := h.passes.trans ((HoldKinds.passes_step (h.passes.wg.keyed hk) y).mono fun i hi => ⟨y, hy, h.at_of_at hi⟩)
  hold i := by
    rcases HoldKinds.hold_step (F := F) (h.passes.wg.keyed hk) y i with hh | hh
    · rw [hh]
      exact h.hold i
    · exact .inr hh
  goal := by
    rcases h.goal with hstand | hg
    · by_cases hxy : x = y
      · subst hxy
        exact .inr (h.gone_step hk hne hready)
      · exact .inl fun i hi => ((HoldKinds.passes_step (h.passes.wg.keyed hk) y).stands fun hi' =>
          hxy (hi.unique (h.at_of_at hi'))).trans (hstand i hi)
    · exact .inr (hg.step hk hne h y)

/-- The steps of all kinds, of which one is complete and stays so until its own. -/
theorem HoldKinds.gone_foldl (hx : x ∈ ls) :
    s.Passes w (fun i => ∃ y ∈ ls, F.At s w y i) (ls.foldl (F.step w) s) ∧ F.Gone s w x (ls.foldl (F.step w) s) := by
  have hstart : F.Along s w ls x s := ⟨.refl w _ s, fun _ => .inl rfl, .inl fun _ _ => rfl⟩
  obtain ⟨halong, hgone⟩ := foldl_reaches (J := F.Along s w ls x) (K := F.Gone s w x) (f := F.step w) hx hstart
    (fun y hy b h => h.step hk hne hready hy) (fun y _ b h hg => hg.step hk hne h y) fun b h => h.gone_step hk hne hready
  exact ⟨halong.passes, hgone⟩

end
end

/-! ### `elect` and the cross-lane operations (R93, R110) -/

/-- The holds on the masks of a home warp before one group, of the program's threads and of those in a handler. -/
def maskKinds (h : Nat) (pc : PC) (why : Nat → Hold) (hw : ∀ k, why k ≠ .ready) (hi : ∀ j k, why j = why k → j = k) :
    HoldKinds (Bool × Nat) where
  held x g := g.heldBefore h pc x.1 (why x.2)
  ready x g := g.gathered h pc x.1 (why x.2) x.2
  why x := why x.2
  priv x := x.1
  place d i := i / d.width = h
  pc := pc
  mem x g hk i := by
    refine (Tab.mem_keys_filter hk.sorted _ i).trans ⟨?_, ?_⟩
    · rintro ⟨u, hu, hp⟩
      simp only [Bool.and_eq_true, beq_iff_eq] at hp
      obtain ⟨⟨⟨hh, hpc⟩, hpr⟩, hwhy⟩ := hp
      exact ⟨hh, u, hu, hpc, hwhy, hpr⟩
    · rintro ⟨hh, u, hu, hpc, hwhy, hpr⟩
      have hhome : g.home i = h := hh
      exact ⟨u, hu, by simp [hhome, hpc, hwhy, hpr]⟩
  nodup x g hk := Tab.nodup_keys_filter hk.sorted _
  waits x := hw x.2
  apart x y hwhy hpr := Prod.ext hpr (hi _ _ hwhy)

/-- The masks in the order of their releases. -/
def maskOrder : List (Bool × Nat) := [false, true].flatMap fun q => (List.range 12).map fun k => (q, k)

theorem mem_maskOrder (q : Bool) (k : Nat) : (q, k) ∈ maskOrder ↔ k < 12 := by
  cases q <;> simp [maskOrder]

theorem releaseMasks_eq (s : State) (w h : Nat) (pc : PC) (why : Nat → Hold) (hw : ∀ k, why k ≠ .ready)
    (hi : ∀ j k, why j = why k → j = k) :
    s.releaseMasks w h pc why = maskOrder.foldl ((maskKinds h pc why hw hi).step w) s := by
  simp only [maskOrder, List.foldl_flatMap, List.foldl_map]
  rfl

/-- The threads of a complete mask go on together. -/
theorem releaseMasks_releases (hn : s.Numbered) {h k : Nat} {pc : PC} {why : Nat → Hold} (hw : ∀ k, why k ≠ .ready)
    (hi : ∀ j k, why j = why k → j = k) (hk : k < 12) (pr : Bool) (hne : ∃ i, (maskKinds h pc why hw hi).At s w (pr, k) i)
    (hm : MaskWithin s w h k ((maskKinds h pc why hw hi).At s w (pr, k))) :
    s.Passes w (fun i => ∃ y ∈ maskOrder, (maskKinds h pc why hw hi).At s w y i) (s.releaseMasks w h pc why) ∧
      (maskKinds h pc why hw hi).Gone s w (pr, k) (s.releaseMasks w h pc why) := by
  rw [releaseMasks_eq s w h pc why hw hi]
  refine HoldKinds.gone_foldl (hn.keyed w) hne (fun b hb hat => ?_) ((mem_maskOrder pr k).mpr hk)
  have hkb := hb.wg.keyed (hn.keyed w)
  have hmem : ∀ i, (maskKinds h pc why hw hi).At s w (pr, k) i → i ∈ (b.wgOf w).heldBefore h pc pr (why k) := fun i hi' =>
    (HoldKinds.mem_held (F := maskKinds h pc why hw hi) hkb).mpr (hat i hi')
  obtain ⟨i0, hi0⟩ := hne
  show (b.wgOf w).gathered h pc pr (why k) k = true
  rw [Workgroup.gathered]
  simp only [all_named_of_maskWithin hkb (hb.maskWithin hm) hmem, Bool.and_true]
  simpa using List.ne_nil_of_mem (hmem i0 hi0)

/-- The threads of a mask of a home warp that are held before one group. -/
def MaskHeld (s : State) (w h : Nat) (pc : PC) (why : Nat → Hold) (pr : Bool) (k i : Nat) : Prop :=
  (s.wgOf w).home i = h ∧ IsThread s w (fun u => u.pc = pc ∧ u.hold = why k ∧ u.priv = pr) i

theorem maskRelease_releases (hn : s.Numbered) {h k : Nat} {pc : PC} {why : Nat → Hold} (hw : ∀ k, why k ≠ .ready)
    (hi : ∀ j k, why j = why k → j = k) (hk : k < 12) (pr : Bool) (hne : ∃ i, MaskHeld s w h pc why pr k i)
    (hm : MaskWithin s w h k (MaskHeld s w h pc why pr k)) :
    let t := s.releaseMasks w h pc why
    t.mem = s.mem ∧ OthersStand s t w (fun i => ∃ q, ∃ j < 12, MaskHeld s w h pc why q j i) ∧
      GoTogether t w (MaskHeld s w h pc why pr k) true ∧
      ∀ i, MaskHeld s w h pc why pr k i → (t.thread w i).hold = .ready ∧ (t.thread w i).pc = pc := by
  obtain ⟨hpass, htogether, hready⟩ := releaseMasks_releases hn hw hi hk pr hne hm
  have hothers : s.Passes w (fun i => ∃ q, ∃ j < 12, MaskHeld s w h pc why q j i) (s.releaseMasks w h pc why) :=
    hpass.mono fun i ⟨⟨q, j⟩, hy, hat⟩ => ⟨q, j, (mem_maskOrder q j).mp hy, hat⟩
  refine ⟨hpass.mem, hothers.othersStand, htogether, fun i hi => ⟨hready i hi, ?_⟩⟩
  exact (hpass.wg.same i).2.1.trans ((isThread_iff s w _ i).mp hi.2).2.1

theorem execMaskRelease_releases (e pr : Bool) (s : State) (w h pkt slot k : Nat) (hn : s.Numbered) (hk : k < 12)
    (hne : ∃ i, MaskHeld s w h ⟨pkt, slot⟩ (fun k => if e then .elect k else .cross k) pr k i)
    (hm : MaskWithin s w h k (MaskHeld s w h ⟨pkt, slot⟩ (fun k => if e then .elect k else .cross k) pr k)) :
    ∃ t, exec (if e then .electRelease w h pkt slot else .crossLaneRelease w h pkt slot) s = .next t ∧ t.mem = s.mem ∧
      OthersStand s t w (fun i => ∃ q, ∃ j < 12, MaskHeld s w h ⟨pkt, slot⟩ (fun k => if e then .elect k else .cross k) q j i) ∧
      GoTogether t w (MaskHeld s w h ⟨pkt, slot⟩ (fun k => if e then .elect k else .cross k) pr k) true ∧
      ∀ i, MaskHeld s w h ⟨pkt, slot⟩ (fun k => if e then .elect k else .cross k) pr k i →
        (t.thread w i).hold = .ready ∧ (t.thread w i).pc = ⟨pkt, slot⟩ := by
  refine ⟨s.releaseMasks w h ⟨pkt, slot⟩ fun k => if e then .elect k else .cross k, by cases e <;> rfl,
    maskRelease_releases hn (fun k => ?_) (fun j k hjk => ?_) hk pr hne hm⟩
  · cases e <;> simp
  · cases e <;> simpa using hjk

/-! ### `fqnt` (R124) -/

/-- The threads of an octet held before an `fqnt`, of the program and in a handler. -/
def fqntKinds (octet : Nat) (pc : PC) : HoldKinds Bool where
  held q g := g.heldFqnt octet pc q
  ready q g := g.fqntReady octet pc q
  why _ := .fqnt
  priv q := q
  place _ i := octetOf i = octet
  pc := pc
  mem q g hk i := by
    refine (Tab.mem_keys_filter hk.sorted _ i).trans ⟨?_, ?_⟩
    · rintro ⟨u, hu, hp⟩
      simp only [Bool.and_eq_true, beq_iff_eq, hk.tid i u hu] at hp
      obtain ⟨⟨⟨ho, hpc⟩, hpr⟩, hwhy⟩ := hp
      exact ⟨ho, u, hu, hpc, hwhy, hpr⟩
    · rintro ⟨ho, u, hu, hpc, hwhy, hpr⟩
      exact ⟨u, hu, by simp [hk.tid i u hu, ho, hpc, hwhy, hpr]⟩
  nodup q g hk := Tab.nodup_keys_filter hk.sorted _
  waits _ := by simp
  apart _ _ _ hpr := hpr

/-- The threads of an octet held at one `fqnt`. -/
def FqntHeld (s : State) (w octet : Nat) (pc : PC) (pr : Bool) (i : Nat) : Prop :=
  octetOf i = octet ∧ IsThread s w (fun u => u.pc = pc ∧ u.hold = .fqnt ∧ u.priv = pr) i

theorem execFqntRelease_releases (pr : Bool) (s : State) (w octet pkt slot : Nat) (hn : s.Numbered)
    (hne : ∃ i, FqntHeld s w octet ⟨pkt, slot⟩ pr i)
    (hall : ∀ i, octetOf i = octet → IsThread s w (fun u => u.ended = false) i → FqntHeld s w octet ⟨pkt, slot⟩ pr i) :
    ∃ t, exec (.fqntRelease w octet pkt slot) s = .next t ∧ t.mem = s.mem ∧
      OthersStand s t w (fun i => ∃ q, FqntHeld s w octet ⟨pkt, slot⟩ q i) ∧
      GoTogether t w (FqntHeld s w octet ⟨pkt, slot⟩ pr) true ∧
      ∀ i, FqntHeld s w octet ⟨pkt, slot⟩ pr i → (t.thread w i).hold = .ready := by
  have hready : ∀ b, s.Passes w (fun i => ∃ q ∈ [false, true], FqntHeld s w octet ⟨pkt, slot⟩ q i) b →
      (∀ i, FqntHeld s w octet ⟨pkt, slot⟩ pr i → FqntHeld b w octet ⟨pkt, slot⟩ pr i) →
      (b.wgOf w).fqntReady octet ⟨pkt, slot⟩ pr = true := by
    intro b hb hat
    have hkb := hb.wg.keyed (hn.keyed w)
    have hmem : ∀ i, FqntHeld s w octet ⟨pkt, slot⟩ pr i → i ∈ (b.wgOf w).heldFqnt octet ⟨pkt, slot⟩ pr := fun i hi =>
      (HoldKinds.mem_held (F := fqntKinds octet ⟨pkt, slot⟩) hkb).mpr (hat i hi)
    have hoctet : ((b.wgOf w).octetThreads octet).all ((b.wgOf w).heldFqnt octet ⟨pkt, slot⟩ pr).contains = true := by
      refine List.all_eq_true.mpr fun i hi => ?_
      obtain ⟨u, hu, hp⟩ := (Tab.mem_keys_filter hkb.sorted _ i).mp hi
      simp only [Bool.and_eq_true, decide_eq_true_eq, Bool.not_eq_true'] at hp
      refine List.contains_iff_mem.mpr (hmem i (hall i hp.1 ((isThread_iff s w _ i).mpr ⟨?_, ?_⟩)))
      · rw [← hb.wg.found i, hu]
        rfl
      · rw [State.thread, ← (hb.wg.same i).2.2.2, Workgroup.thread_of_find hu, hp.2]
    obtain ⟨i0, hi0⟩ := hne
    rw [Workgroup.fqntReady]
    simp only [hoctet, Bool.and_true]
    simpa using List.ne_nil_of_mem (hmem i0 hi0)
  obtain ⟨hpass, htogether, hgone⟩ :=
    HoldKinds.gone_foldl (F := fqntKinds octet ⟨pkt, slot⟩) (ls := [false, true]) (hn.keyed w) hne hready (by simp : pr ∈ [false, true])
  have hothers := hpass.mono (Q := fun i => ∃ q, FqntHeld s w octet ⟨pkt, slot⟩ q i) fun i ⟨q, _, hq⟩ => ⟨q, hq⟩
  exact ⟨_, rfl, hpass.mem, hothers.othersStand, htogether, hgone⟩

/-! ### `mbwt` and `yield` (R97, R166) -/

theorem execMbwtRelease_releases (s : State) (w i off : Nat) (par : Bool) (hx : IsThread s w (fun u => u.hold = .mbwt off par) i)
    (hph : ((s.wgOf w).word off).getLsbD 32 ≠ par) :
    ∃ t, exec (.mbwtRelease w i) s = .next t ∧ t.mem = s.mem ∧ OthersStand s t w (· = i) ∧ (t.thread w i).hold = .ready := by
  obtain ⟨x, hx, hh⟩ := hx
  have hover : (s.wgOf w).phaseOver ((s.wgOf w).thread i) = true := by
    rw [Workgroup.phaseOver, Workgroup.thread_of_find hx, hh]
    exact bne_iff_ne.mpr hph
  obtain ⟨b, hb⟩ := State.thread_put (u := s) rfl (·.pass) hx
  refine ⟨_, if_pos hover, rfl, State.othersStand_put rfl _, ?_⟩
  rw [hb]
  rfl

/-- The threads whose `yield` is over. -/
def YieldDue (s : State) (w i : Nat) : Prop :=
  IsThread s w (fun u => ∃ gs n, u.hold = .yield gs n ∧
    (gs = [] ∨ 64 ≤ n ∨ ∀ j, j ≠ i → ¬IsThread s w (fun u => u.isReady = true) j)) i

/-- Another thread of a workgroup is ready. -/
theorem any_other_ready (hk : (s.wgOf w).Keyed) (i : Nat) : ((s.wgOf w).threads.any fun p => p.1 != i && p.2.isReady) = true ↔
    ∃ j, j ≠ i ∧ IsThread s w (fun u => u.isReady = true) j := by
  simp only [List.any_eq_true, Bool.and_eq_true, bne_iff_ne]
  constructor
  · rintro ⟨⟨j, u⟩, hm, hj, hr⟩
    exact ⟨j, hj, u, Tab.find_of_mem hk.sorted hm, hr⟩
  · rintro ⟨j, hj, u, hu, hr⟩
    exact ⟨(j, u), Tab.mem_of_find _ j u hu, hj, hr⟩

/-- A thread's `yield` is over: no group is left, 64 slots have passed, or no other thread is ready. -/
theorem yieldOver_iff (hk : (s.wgOf w).Keyed) {u : Thread} (hu : u.tid = i) : (s.wgOf w).yieldOver u = true ↔
    ∃ gs n, u.hold = .yield gs n ∧ (gs = [] ∨ 64 ≤ n ∨ ∀ j, j ≠ i → ¬IsThread s w (fun u => u.isReady = true) j) := by
  have hother : (!((s.wgOf w).threads.any fun p => p.1 != u.tid && p.2.isReady)) = true ↔
      ∀ j, j ≠ i → ¬IsThread s w (fun u => u.isReady = true) j := by
    rw [hu, Bool.not_eq_true', ← Bool.not_eq_true, any_other_ready hk]
    exact not_exists.trans (forall_congr' fun j => not_and)
  unfold Workgroup.yieldOver
  cases hh : u.hold with
  | yield gs n =>
    simp only [Bool.or_eq_true, List.isEmpty_iff, decide_eq_true_eq, hother, Hold.yield.injEq]
    constructor
    · exact fun h => ⟨gs, n, ⟨rfl, rfl⟩, or_assoc.mp h⟩
    · rintro ⟨gs', n', ⟨rfl, rfl⟩, h⟩
      exact or_assoc.mpr h
  | _ => simp

theorem mem_yieldOver (hk : (s.wgOf w).Keyed) (i : Nat) :
    i ∈ (s.wgOf w).threadsWhere (s.wgOf w).yieldOver ↔ YieldDue s w i :=
  (Tab.mem_keys_filter hk.sorted _ i).trans
    (exists_congr fun u => and_congr_right fun hu => yieldOver_iff hk (hk.tid i u hu))

theorem execYieldResume_releases (s : State) (w : Nat) (hn : s.Numbered) (hf : ∀ i, YieldDue s w i → (s.thread w i).failed = [])
    (i : Nat) (hi : YieldDue s w i) :
    ∃ t, exec (.yieldResume w i) s = .next t ∧ t.mem = s.mem ∧ OthersStand s t w (YieldDue s w) ∧
      ∀ j, YieldDue s w j → (t.thread w j).pc = (s.thread w j).pc ∧
        ((t.thread w j).atMeeting = false → (t.thread w j).hold = .ready) := by
  have hk := hn.keyed w
  have hmem := mem_yieldOver hk
  have hnodup : ((s.wgOf w).threadsWhere (s.wgOf w).yieldOver).Nodup := Tab.nodup_keys_filter hk.sorted _
  have hover : (s.wgOf w).yieldOver ((s.wgOf w).thread i) = true := by
    obtain ⟨u, hu, hdue⟩ := hi
    rw [Workgroup.thread_of_find hu]
    exact (yieldOver_iff hk (hk.tid i u hu)).mpr hdue
  have hexec : exec (.yieldResume w i) s = .next ((s.modWg w fun g => ((s.wgOf w).threadsWhere (s.wgOf w).yieldOver).foldl
      (fun g t => g.modThread t fun t => { t with hold := .ready }) g).arrive w
        ((s.wgOf w).threadsWhere (s.wgOf w).yieldOver)).unblock := if_pos hover
  generalize (s.wgOf w).threadsWhere (s.wgOf w).yieldOver = ts at hmem hnodup hexec
  have hready : s.Passes w (YieldDue s w) (s.modWg w fun g => ts.foldl (fun g t => g.modThread t fun t => { t with hold := .ready }) g) :=
    s.passes_modWg w fun g => g.passes_foldl ts fun k j hj => k.passes_modThread ((hmem j).mp hj) fun _ => ⟨rfl, rfl, rfl, rfl⟩
  have hthread : ∀ j ∈ ts, (s.modWg w fun g => ts.foldl (fun g t => g.modThread t fun t => { t with hold := .ready }) g).thread w j =
      { s.thread w j with hold := .ready } := by
    intro j hj
    have hfound := ((isThread_iff s w _ j).mp ((hmem j).mp hj)).1
    rw [State.thread, s.wgOf_modWg w _ (State.find_wgs_of_isSome hfound)]
    exact Workgroup.thread_foldl_modThread_mem (fun t => { t with hold := .ready }) hnodup hj hfound
  generalize (s.modWg w fun g => ts.foldl (fun g t => g.modThread t fun t => { t with hold := .ready }) g) = t at *
  have hfailed : ∀ j ∈ ts, (t.thread w j).failed = [] := fun j hj => by rw [hthread j hj, ← hf j ((hmem j).mp hj)]
  have hall : s.Passes w (YieldDue s w) (t.arrive w ts).unblock :=
    (hready.trans ((State.passes_arrive hfailed).mono fun j hj => (hmem j).mp (List.mem_filter.mp hj).1)).trans
      (State.passes_unblock _ w _)
  refine ⟨_, hexec, hall.mem, hall.othersStand, fun j hj => ⟨(hall.wg.same j).2.1, fun hat => ?_⟩⟩
  have hfound : (Tab.find (t.wgOf w).threads j).isSome := (hready.wg.found j).trans ((isThread_iff s w _ j).mp hj).1
  obtain ⟨b, hb⟩ := (t.arrive w ts).thread_unblock w j
  rw [hb, State.thread_arrive hfailed hnodup hfound] at hat ⊢
  split at hat
  · next hin => exact absurd (State.atMeeting_of_arriving hin) (Bool.eq_false_iff.mp hat)
  · next hout =>
    rw [if_neg hout, hthread j ((hmem j).mpr hj)]

end
end Sys2Proof.Machine

/-- Settles O31: a release changes the threads of its holds alone, and the releases that one step makes leave one another's threads
as they are. -/
theorem heldThreadsRelease : Obligations.HeldThreadsRelease :=
  ⟨Sys2Proof.Machine.execMeetingRelease_releases, Sys2Proof.Machine.execMaskRelease_releases,
    Sys2Proof.Machine.execFqntRelease_releases, fun s w i off par _ => Sys2Proof.Machine.execMbwtRelease_releases s w i off par,
    Sys2Proof.Machine.execYieldResume_releases⟩

namespace Sys2Proof.Machine

/-! ## Workgroups end (R94, R95, R201, R256) -/

/-! ### The write buffer leaves -/

/-- Requests are neither memory nor workgroups. -/
theorem State.parts_withReqs {s t : State} (h : t.mem = s.mem ∧ t.wgs = s.wgs) (rs : Tab Req) :
    { t with reqs := rs }.mem = s.mem ∧ { t with reqs := rs }.wgs = s.wgs := h

theorem State.sendReq_parts (s : State) (id : Nat) : (s.sendReq id).mem = s.mem ∧ (s.sendReq id).wgs = s.wgs := by
  have hlog : ∀ die e, (s.log die e).mem = s.mem ∧ (s.log die e).wgs = s.wgs := fun die e =>
    ⟨(s.log_parts die e).1, (s.log_parts die e).2.1⟩
  unfold State.sendReq
  split
  · exact ⟨rfl, rfl⟩
  · next r _ =>
    obtain ⟨d, row⟩ := reqRow r
    dsimp only
    split
    · exact State.parts_withReqs (hlog d _) _
    · exact ⟨rfl, rfl⟩

theorem State.newReq_parts (s : State) (r : Req) (deps : List Nat) :
    (s.newReq r deps).2.mem = s.mem ∧ (s.newReq r deps).2.wgs = s.wgs := by
  unfold State.newReq
  dsimp only
  split
  · exact State.sendReq_parts _ _
  · exact ⟨rfl, rfl⟩

/-- The stores of a core that leave their write buffer change neither memory nor a workgroup yet. -/
theorem State.flushCore_parts (s : State) (core : Nat) : (s.flushCore core).2.mem = s.mem ∧ (s.flushCore core).2.wgs = s.wgs :=
  List.foldlRecOn (motive := fun t : State => t.mem = s.mem ∧ t.wgs = s.wgs) (s.coreOf core).wb _ ⟨rfl, rfl⟩ fun _ ht _ _ =>
    ⟨(State.newReq_parts _ _ _).1.trans ht.1, (State.newReq_parts _ _ _).2.trans ht.2⟩

/-! ### A workgroup ends -/

section
variable {s : State} {w : Nat} {g : Workgroup}

theorem State.listed_of_endReady (h : s.endReady w = true) : (Tab.find s.wgs w).isSome := by
  cases hw : Tab.find s.wgs w with
  | none => simp [State.endReady, hw] at h
  | some g => rfl

theorem State.listed_of_tailReady (h : s.tailReady w = true) : (Tab.find s.wgs w).isSome := by
  cases hw : Tab.find s.wgs w with
  | none => simp [State.tailReady, hw] at h
  | some g => rfl

/-- The last thread has ended: the workgroup waits for its writes, without its commands and matrix operations. -/
theorem execWorkgroupEnd_begins (hr : s.endReady w = true) (hst : (s.wgOf w).status ≠ .ending) :
    ∃ t, exec (.workgroupEnd w) s = .next t ∧ t.mem = s.mem ∧ (t.wgOf w).status = .ending ∧
      (t.wgOf w).cmds = [] ∧ (t.wgOf w).mxq = [] := by
  obtain ⟨hm, hw⟩ := s.flushCore_parts (s.wgOf w).core
  have hexec : exec (.workgroupEnd w) s = .next ((s.wgOut (s.wgOf w)).2.modWg w fun g =>
      { g with status := .ending, endDeps := (s.wgOut (s.wgOf w)).1, cmds := [], mxq := [] }) := by
    show execWorkgroupEnd w s = _
    unfold execWorkgroupEnd
    simp only [hr, Bool.not_true, Bool.false_eq_true, if_false, hst]
  have hlisted : (Tab.find (s.wgOut (s.wgOf w)).2.wgs w).isSome := (congrArg (fun m => (Tab.find m w).isSome) hw).trans
    (s.listed_of_endReady hr)
  refine ⟨_, hexec, hm, ?_⟩
  rw [State.wgOf_modWg _ w _ hlisted]
  exact ⟨rfl, rfl, rfl⟩

/-- Its end is counted: its number and its slot are free, and its region has one more done. -/
theorem countEnd_counts (s : State) (w : Nat) (g : Workgroup) : (s.countEnd w g).mem = s.mem ∧ Tab.find (s.countEnd w g).wgs w = none ∧
    Tab.find ((s.countEnd w g).coreOf g.core).slots g.slot = none ∧
    ∀ r, Tab.find s.regions g.block = some r → ∃ q, Tab.find (s.countEnd w g).regions g.block = some q ∧
      q.done = r.done + 1 ∧ q.ending = r.ending := by
  refine ⟨rfl, ?_, ?_, fun r hr => ?_⟩
  · simp [State.countEnd, State.unblock]
  · simp [State.countEnd, State.unblock, State.leaveCore, State.freeSlot, State.coreOf, State.modCore]
  · have hregion : Tab.find (s.countEnd w g).regions g.block =
        some { r with runtk := r.runtk + (s.hb - g.boundAt), done := r.done + 1 } := by
      show Tab.find (Tab.modify (Tab.modify s.regions g.block _) g.block _) g.block = _
      simp only [Tab.find_modify, if_true, hr, Option.map_some]
      rfl
    exact ⟨_, hregion, rfl, rfl⟩

theorem execWorkgroupEnd_counts (hr : s.endReady w = true) (hst : (s.wgOf w).status = .ending) :
    ∃ t, exec (.workgroupEnd w) s = .next t ∧ t.mem = s.mem ∧ Tab.find t.wgs w = none ∧
      Tab.find (t.coreOf (s.core w)).slots (s.wgOf w).slot = none ∧
      ∀ r, Tab.find s.regions (s.wgOf w).block = some r →
        (Tab.find t.regions (s.wgOf w).block).map (·.done) = some (r.done + 1) := by
  have hexec : exec (.workgroupEnd w) s = .next (s.countEnd w (s.wgOf w)) := by
    show execWorkgroupEnd w s = _
    unfold execWorkgroupEnd
    simp only [hr, Bool.not_true, Bool.false_eq_true, if_false, hst, if_true]
  obtain ⟨hm, hwg, hslot, hdone⟩ := countEnd_counts s w (s.wgOf w)
  refine ⟨_, hexec, hm, hwg, hslot, fun r hr => ?_⟩
  obtain ⟨q, hq, hd, -⟩ := hdone r hr
  rw [hq, Option.map_some, hd]

/-! ### `tail` -/

variable {x : TailRec} {rest : List TailRec}

/-- A successor that cannot start ends the region with a status. -/
theorem execTailStart_fails (hr : s.tailReady w = true) (ht : (s.wgOf w).tails = x :: rest) {st : Nat}
    (hst : tailStatus (s.wgOf w) (s.headerLine (s.wgOf w).ctx x.hdr) = some st) :
    ∃ t, exec (.tailStart w) s = .next t ∧ t.mem = s.mem ∧ Tab.find t.wgs w = none ∧
      ∀ r, Tab.find s.regions (s.wgOf w).block = some r →
        (Tab.find t.regions (s.wgOf w).block).map (·.ending) = some (some (r.ending.getD st)) := by
  have hexec : exec (.tailStart w) s = .next ((s.endRegion (s.wgOf w).block st).countEnd w (s.wgOf w)) := by
    show execTailStart w s = _
    unfold execTailStart
    simp only [hr, Bool.not_true, Bool.false_eq_true, if_false, ht, hst]
  obtain ⟨hm, hwg, -, hdone⟩ := countEnd_counts (s.endRegion (s.wgOf w).block st) w (s.wgOf w)
  refine ⟨_, hexec, hm, hwg, fun r hr => ?_⟩
  obtain ⟨q, hq, -, he⟩ := hdone { r with ending := some (r.ending.getD st) } (by simp [State.endRegion, hr])
  rw [hq, Option.map_some, he]

/-- The kernel of a successor fits in the place of the workgroup. -/
def Workgroup.Fits (g : Workgroup) (h : Hdr) : Prop :=
  h.spad ≤ g.hdr.spad ∧ h.regs ≤ g.hdr.regs ∧ h.threads ≤ g.hdr.threads ∧ h.tileCount ≤ g.hdr.tileCount

theorem any_differ_of_same (hs : ∀ u ∈ rest, u = x) : (rest.any fun u => u != x) = false :=
  List.any_eq_false.mpr fun u hu => by simp [hs u hu]

section
variable {line : Option (List Byte)} {bs : List Byte} (ht : g.tails = x :: rest)
include ht

theorem tailStatus_of_differ (hd : ¬∀ u ∈ rest, u = x) : tailStatus g line = some 4 := by
  have hany : (rest.any fun u => u != x) = true := by
    obtain ⟨u, hu, hne⟩ := not_forall₂.mp hd
    exact List.any_eq_true.mpr ⟨u, hu, bne_iff_ne.mpr hne⟩
  simp only [tailStatus, ht, hany, if_true]

variable (hs : ∀ u ∈ rest, u = x)
include hs

theorem tailStatus_of_badHeader (hb : line = none ∨ ∃ bs, line = some bs ∧ headerOk bs = false) : tailStatus g line = some 1 := by
  have hany := any_differ_of_same hs
  rcases hb with rfl | ⟨bs, rfl, hbad⟩
  · simp only [tailStatus, ht, hany, Bool.false_eq_true, if_false]
  · simp only [tailStatus, ht, hany, hbad, Bool.false_eq_true, if_false, Bool.not_false, if_true]

theorem tailStatus_of_goodHeader (hok : headerOk bs = true) :
    tailStatus g (some bs) = if g.hdr.spad < (headerOf bs).spad ∨ g.hdr.regs < (headerOf bs).regs ∨
      g.hdr.threads < (headerOf bs).threads ∨ g.hdr.tileCount < (headerOf bs).tileCount then some 3 else none := by
  have hany := any_differ_of_same hs
  simp only [tailStatus, ht, hany, hok, Bool.false_eq_true, if_false, Bool.not_true]

theorem tailStatus_of_large (hok : headerOk bs = true) (hf : ¬g.Fits (headerOf bs)) : tailStatus g (some bs) = some 3 := by
  rw [tailStatus_of_goodHeader ht hs hok, if_pos]
  unfold Workgroup.Fits at hf
  omega

theorem tailStatus_of_fits (hok : headerOk bs = true) (hf : g.Fits (headerOf bs)) : tailStatus g (some bs) = none := by
  rw [tailStatus_of_goodHeader ht hs hok, if_neg]
  unfold Workgroup.Fits at hf
  omega

end

/-! ### The successor -/

theorem Tab.find_map_keys {α : Type} (f : Nat → α) (l : List Nat) (k : Nat) :
    Tab.find (l.map fun i => (i, f i)) k = if k ∈ l then some (f k) else none := by
  induction l with
  | nil => rfl
  | cons i rest ih =>
    by_cases hk : i = k
    · simp [Tab.find, hk]
    · simp [Tab.find, hk, Ne.symm hk, ih]

/-- The threads of a kernel at its start. -/
theorem find_startThreads (h : Hdr) (i : Nat) :
    Tab.find (startThreads h) i = if i < h.threads then some { tid := i, pc := ⟨h.entry, 0⟩ } else none := by
  rw [startThreads, Tab.find_map_keys fun i => ({ tid := i, pc := ⟨h.entry, 0⟩ } : Thread)]
  simp only [List.mem_range]

/-- Entries under some keys are kept. -/
theorem Tab.get_filter_keys {α : Type} (d : α) (p : Nat → Bool) (m : Tab α) {k : Nat} (hk : p k = true) :
    Tab.get d (List.filter (fun q => p q.1) m) k = Tab.get d m k := by
  have hfind : Tab.find (List.filter (fun q => p q.1) m) k = Tab.find m k := by
    induction m with
    | nil => rfl
    | cons q rest ih =>
      obtain ⟨j, v⟩ := q
      by_cases hj : j = k
      · simp [Tab.find, hj, hk]
      · cases hp : p j <;> simp [Tab.find, hj, hp, ih]
  rw [Tab.get, Tab.get, hfind]

theorem execTailStart_starts (hr : s.tailReady w = true) (ht : (s.wgOf w).tails = x :: rest) {bs : List Byte}
    (hl : s.headerLine (s.wgOf w).ctx x.hdr = some bs) (hst : tailStatus (s.wgOf w) (some bs) = none) :
    ∃ t, exec (.tailStart w) s = .next t ∧ t.mem = s.mem ∧ t.wgOf w = s.successor (s.wgOf w) (headerOf bs) x := by
  have hlisted := State.listed_of_tailReady hr
  show ∃ t, execTailStart w s = .next t ∧ _
  unfold execTailStart
  simp only [hr, Bool.not_true, Bool.false_eq_true, if_false, ht, hl, hst]
  refine ⟨_, rfl, rfl, ?_⟩
  exact s.wgOf_modWg w (fun g => s.successor g (headerOf bs) x) hlisted

end
end Sys2Proof.Machine

/-- Settles O44: the end of a workgroup is counted whole or not at all, and each status of a successor has its case. -/
theorem workgroupsEnd : Obligations.WorkgroupsEnd := by
  refine ⟨fun _ _ _ hr => ⟨Sys2Proof.Machine.execWorkgroupEnd_begins hr, Sys2Proof.Machine.execWorkgroupEnd_counts hr⟩, ?_⟩
  intro s w x rest _ hr ht g line h fails same fits
  have hh : ∀ bs, line = some bs → h = Sys2Proof.Machine.headerOf bs := fun bs hl => by simp only [h, hl, Option.map_some, Option.getD_some]
  refine ⟨fun hd => ?_, fun hs hb => ?_, fun hs => ?_, fun hs => ?_⟩
  · exact Sys2Proof.Machine.execTailStart_fails hr ht (Sys2Proof.Machine.tailStatus_of_differ ht hd)
  · exact Sys2Proof.Machine.execTailStart_fails hr ht (Sys2Proof.Machine.tailStatus_of_badHeader ht hs hb)
  · rintro ⟨bs, hl, hok⟩ hf
    have hf' : ¬g.Fits (Sys2Proof.Machine.headerOf bs) := hh bs hl ▸ hf
    exact Sys2Proof.Machine.execTailStart_fails hr ht
      ((congrArg (Sys2Proof.Machine.tailStatus g) hl).trans (Sys2Proof.Machine.tailStatus_of_large ht hs hok hf'))
  · rintro ⟨bs, hl, hok⟩ hf
    have hf' : g.Fits (Sys2Proof.Machine.headerOf bs) := hh bs hl ▸ hf
    obtain ⟨t, hexec, hm, hwg⟩ := Sys2Proof.Machine.execTailStart_starts hr ht hl (Sys2Proof.Machine.tailStatus_of_fits ht hs hok hf')
    refine ⟨t, hexec, hm, ?_⟩
    rw [hwg, hh bs hl]
    have hspad : ∀ i < (Sys2Proof.Machine.headerOf bs).spad, _ := fun i hi =>
      Sys2Proof.Machine.Tab.get_filter_keys 0 (fun k => decide (k < (Sys2Proof.Machine.headerOf bs).spad)) g.spad (decide_eq_true hi)
    exact ⟨rfl, rfl, rfl, rfl, rfl, rfl, hspad, rfl, rfl, Sys2Proof.Machine.find_startThreads (Sys2Proof.Machine.headerOf bs)⟩
